-- ==== Sys2Proof/Word.lean ====
section
/-! DEFINITION. The widths the spec uses for words, and the type of sparse tables. -/

namespace Sys2Proof

abbrev Byte := BitVec 8
abbrev Word64 := BitVec 64
abbrev Word32 := BitVec 32

/-- A sparse table: pairs of a key and a value, keys strictly rising, no entry for a key that holds its
default.  The operations on tables are in Sys2Proof/Machine/Tab.lean. -/
abbrev Tab (α : Type) := List (Nat × α)

end Sys2Proof
end

