-- ==== Sys2Proof/Syntax.lean ====
section
/-! DEFINITION. The commands the block takes: one constructor of `Instr` per row of the table of operations
and events, with the row's operands.  Where the spec's outcome depends on a physical quantity (a conversion's
error, a sensor's reading, a frame's bytes), that quantity is an operand. -/

namespace Sys2Proof

/-- The header a slot's instruction carries (R177): the facet it is presented to, its slot, guard predicate
and guard inversion; `last` marks the last slot presented of its bundle. -/
structure Hdr where
  pf : Nat
  slot : Nat
  pred : Nat
  pneg : Bool
  last : Bool
  deriving DecidableEq, Repr

/-- A UDP frame latched at a service port (R339): what the conditions of the protocol look at. -/
structure Frame where
  port : Nat
  dstPort : Nat
  srcPort : Nat
  srcIp : Nat
  ipv6 : Bool
  fragmented : Bool
  extHeader : Bool
  vlanTags : Nat
  csumOk : Bool
  dstOk : Bool
  payload : List Byte
  deriving DecidableEq, Repr

/-- A deviation of one conversion of a plane (R86, R87): the column, the window, code minus the healthy code,
and the over-range comparator. -/
structure ConvErr where
  col : Nat
  win : Nat
  dev : Int
  ovr : Bool
  deriving DecidableEq, Repr

/-- A margin event of a plane's conversion (R135): its column, its code, high or low band. -/
structure Margin where
  col : Nat
  code : Int
  high : Bool
  deriving DecidableEq, Repr

/-- An output of a mirror run's step (R459, R462): its kind and order number, its bundle, the original's and the mirror's bytes. -/
structure MOut where
  kind : Nat
  order : Nat
  bundle : Nat
  orig : List Byte
  mirror : List Byte
  deriving DecidableEq, Repr

/-- A term of a cost record (R371). -/
inductive Term where
  /-- Cycles of an island: 0 ac, 1 nc, 2 hc, 3 st. -/
  | path (cycles island : Nat)
  | fcycles (n region : Nat)
  | stage (fmt : Nat)
  | queued (fmt : Nat)
  /-- Coded blocks, ratio r as a fraction, raw blocks, region. -/
  | coded (blocks num den raw region : Nat)
  /-- Compute fc, staging fc at ratio 1, region. -/
  | attention (fc staging region : Nat)
  | ns (n : Nat)
  | transfer (bytes gbps : Nat)
  deriving DecidableEq, Repr

/-- A cost record (R371, R372, R392): its terms, the LFs of the placement, the logical arrays and HBM bytes
it declares, the energy of a step in nJ (R540). -/
structure Cost where
  terms : List Term
  lfs : List Nat
  arrays : Nat
  bytes : Nat
  energy : Nat
  deriving DecidableEq, Repr

/-- The commands. -/
inductive Instr where
  -- 04_resident_arrays.md, 05_side_path.md: products, bindings, converters, the side path
  | productStart (pf arr : Nat)
  | planeComplete (pf arr : Nat) (errs : List ConvErr) (margins : List Margin) (disagree : List Nat)
  | productComplete (pf arr : Nat)
  | drainRequestLatch (pf idx : Nat)
  | drainVectorReturn (pf idx : Nat)
  | arrMapWrite (pf n value : Nat)
  | bindingApply (pf n : Nat)
  | apCeilingWrite (pf value : Nat)
  | arrWinSelWrite (pf value : Nat)
  | convMapWrite (pf n value : Nat)
  | convMapApply (pf arr : Nat)
  | convFenceWrite (pf n : Nat)
  | converterFenceApply (pf arr : Nat)
  | replayComplete (pf arr : Nat) (errs : List ConvErr)
  | exactFallbackStart (pf arr : Nat)
  | exactFallbackDone (pf arr : Nat)
  | outlierRowRead (pf : Nat) (bad1 bad2 : List Nat)
  | outlierGoldRow (pf : Nat)
  | chkWinSelWrite (pf value : Nat)
  | checkWindowWrite (pf word value : Nat)
  -- 07_facet_machine.md: program, control and windows
  | facLoadGo (pf : Nat)
  | facLoadDone (pf : Nat)
  | facRun (pf : Nat)
  | facStop (pf : Nat)
  | facReset (pf : Nat)
  | facBindWrite (pf value : Nat)
  | facEpochWrite (pf value : Nat)
  | windowRead (addr n : Nat)
  | windowWrite (addr : Nat) (data : List Byte) (poison : Bool)
  | exception (pf slot cause : Nat)
  | exceptionSettle (pf : Nat)
  -- 08_bundle_reference.md: the slots' instructions
  | nop (h : Hdr)
  | br (h : Hdr) (target : Nat)
  | loop (h : Hdr) (cnt last : Nat)
  | halt (h : Hdr)
  | add (h : Hdr) (rd ra rb : Nat)
  | sub (h : Hdr) (rd ra rb : Nat)
  | and (h : Hdr) (rd ra rb : Nat)
  | or (h : Hdr) (rd ra rb : Nat)
  | xor (h : Hdr) (rd ra rb : Nat)
  | shl (h : Hdr) (rd ra rb : Nat)
  | shr (h : Hdr) (rd ra rb : Nat)
  | sra (h : Hdr) (rd ra rb : Nat)
  | mul (h : Hdr) (rd ra rb : Nat)
  | mulhu (h : Hdr) (rd ra rb : Nat)
  | div (h : Hdr) (rd ra rb : Nat)
  | divu (h : Hdr) (rd ra rb : Nat)
  | rem (h : Hdr) (rd ra rb : Nat)
  | remu (h : Hdr) (rd ra rb : Nat)
  | min (h : Hdr) (rd ra rb : Nat)
  | max (h : Hdr) (rd ra rb : Nat)
  | minu (h : Hdr) (rd ra rb : Nat)
  | maxu (h : Hdr) (rd ra rb : Nat)
  | addi (h : Hdr) (rd ra imm : Nat)
  | andi (h : Hdr) (rd ra imm : Nat)
  | ori (h : Hdr) (rd ra imm : Nat)
  | xori (h : Hdr) (rd ra imm : Nat)
  | shli (h : Hdr) (rd ra imm : Nat)
  | shri (h : Hdr) (rd ra imm : Nat)
  | srai (h : Hdr) (rd ra imm : Nat)
  | muli (h : Hdr) (rd ra imm : Nat)
  | li (h : Hdr) (rd imm : Nat)
  | lis (h : Hdr) (rd imm : Nat)
  | lih (h : Hdr) (rd imm : Nat)
  | cmp (h : Hdr) (pd ra rb cond : Nat)
  | cmpi (h : Hdr) (pd ra cond imm : Nat)
  | plog (h : Hdr) (pd pa pb table : Nat)
  | ld (h : Hdr) (rt ra size : Nat) (sx : Bool) (imm : Nat)
  | st (h : Hdr) (rt ra size : Nat) (sx : Bool) (imm : Nat)
  | rdc (h : Hdr) (rd sel : Nat)
  | vld (h : Hdr) (v ra imm : Nat)
  | vst (h : Hdr) (v ra imm : Nat)
  | vadd (h : Hdr) (vd va vb typ : Nat)
  | vsub (h : Hdr) (vd va vb typ : Nat)
  | vmul (h : Hdr) (vd va vb typ : Nat)
  | vfma (h : Hdr) (vd va vb vc typ : Nat)
  | vmax (h : Hdr) (vd va vb typ : Nat)
  | vmin (h : Hdr) (vd va vb typ : Nat)
  | vabs (h : Hdr) (vd va typ : Nat)
  | vneg (h : Hdr) (vd va typ : Nat)
  | vbcs (h : Hdr) (vd ra typ : Nat)
  | vsel (h : Hdr) (vd va vb vc typ : Nat)
  | vcmp (h : Hdr) (vd va vb typ cond : Nat)
  | vexp2 (h : Hdr) (vd va typ : Nat)
  | vrcp (h : Hdr) (vd va typ : Nat)
  | vrsqrt (h : Hdr) (vd va typ : Nat)
  | vact (h : Hdr) (vd va typ table : Nat)
  | vred (h : Hdr) (vd va typ op seg : Nat)
  | vcvt (h : Hdr) (vd va sf df half : Nat)
  | vquant (h : Hdr) (vd va vx sd df : Nat) (blk : Bool) (kc : Nat)
  | vmovs (h : Hdr) (rd va lane : Nat) (sx : Bool)
  | vwatch (h : Hdr) (va layer : Nat) (spec grad : Bool)
  | hset (h : Hdr) (hd ra : Nat)
  | aiss (h : Hdr) (hn vs ss bank : Nat) (acc spec : Bool) (kc vo : Nat)
  | adrnv (h : Hdr) (vd hn tile bank : Nat) (dq : Bool) (sd : Nat)
  | adrnm (h : Hdr) (hn bank : Nat) (dq : Bool) (ra : Nat)
  | tmm (h : Hdr) (td fa fb : Nat) (acc16 clr : Bool) (sa sb sk m n : Nat) (mask : Bool) (rk : Nat)
  | tclr (h : Hdr) (td : Nat)
  | tdrnv (h : Hdr) (vd td df rows : Nat) (clr : Bool)
  | tdrnm (h : Hdr) (ra td df rows : Nat) (clr : Bool)
  | tmsk (h : Hdr) (vs : Nat)
  | mcpy (h : Hdr) (tag dir : Nat) (posted : Bool) (rl rr rn : Nat)
  | mpage (h : Hdr) (tag dir : Nat) (posted : Bool) (rl vdesc : Nat)
  | mdec (h : Hdr) (tag rs rd rn : Nat)
  | mwait (h : Hdr) (mask : Nat)
  | step (h : Hdr) (vd rd : Nat)
  | scommit (h : Hdr)
  | send (h : Hdr) (rl ra rn chan : Nat)
  | recv (h : Hdr) (pd ra rn rs chan : Nat)
  | sout (h : Hdr) (re ra rn ro : Nat)
  | bar (h : Hdr) (id rn : Nat)
  -- completions of a facet's units
  | tensorOpBegin (pf : Nat)
  | tmmComplete (pf : Nat) (tileErr shadowErr : List (Nat × Nat))
  | shadowReplayDone (pf : Nat) (err : List (Nat × Nat))
  | tileDrainComplete (pf idx : Nat)
  | movementOpComplete (pf idx : Nat)
  | prismBlockDecode (pf reader : Nat)
  | messageArrive (pf src chan : Nat)
  | sendCreditReturn (pf idx : Nat)
  | barrierRelease (service id step : Nat)
  | acc16CtlWrite (pf value : Nat)
  | tenShadowWrite (pf : Nat) (value : Nat)
  | sigWindowRelease (pf : Nat)
  -- 06_calibration_refresh.md
  | trimRecompute (g : Nat)
  | trimApply (pf arr : Nat)
  | calRunStart (g : Nat)
  | calRunTimeout (g : Nat)
  | calWindowFull (pf arr conv : Nat)
  | shadowWindowStart (pf arr : Nat)
  | calAttemptEnd (pf arr conv : Nat)
  | calStartWrite (g : Nat)
  | calStoreWrite (pf arr conv : Nat)
  | arrayScanEnd (pf arr : Nat) (cells : List (Nat × Nat × Nat))
  | refreshStart (pf arr : Nat)
  | refreshRebind (pf arr : Nat)
  | refreshComplete (pf arr : Nat) (cells : List (Nat × Nat × Nat))
  | rowWriteCycle (pf arr : Nat) (ok same : Bool)
  | writeWindowResume (pf arr : Nat)
  -- 13_weights_epochs.md: the loader
  | loaderJobEnd (idx : Nat)
  -- 12_serving_engine.md, 10_attention_cache.md: requests, steps, pages
  | registerWrite (addr value : Nat)
  | submit (f : Frame) (pick : Nat)
  | cancel (f : Frame)
  | clientBareAck (f : Frame)
  | asmTimeout (e : Nat)
  | tokenizeBlock (hub : Nat)
  | formStep (service : Nat)
  | copyOnWrite (idx : Nat)
  | descriptorArrive (pf : Nat)
  | kvWriteCompletion (service step : Nat)
  | sealImageDone (idx : Nat)
  | sealSwap (idx : Nat)
  | scommitReport (lf step : Nat)
  | stepFailedReport (lf step : Nat)
  | soutLogits (pf e : Nat)
  | tokenCommit (e : Nat)
  | verifySample (e : Nat)
  | commitCopy (idx : Nat)
  | egressTokens (e : Nat)
  | egressEnd (e : Nat)
  | bareAckTimer (ch : Nat)
  | retransmitTimer (ch : Nat)
  | channelEnable (ch : Nat) (cfg : List Byte)
  | swEntryQueue (e : Nat) (bytes : List Byte)
  | swEntryCancel (e : Nat)
  | swEntryRelease (e : Nat)
  | swTreeWrite (e n : Nat)
  | deadlineExpire (e : Nat)
  | pageGrant (e : Nat)
  | pageWaitTimer (e : Nat)
  | resumePreempted (e : Nat)
  | serviceEnable (service : Nat)
  | admissionDone (service : Nat) (cost : Cost)
  | svcReadmit (service : Nat)
  | serviceDisable (service : Nat)
  | svcStop (service : Nat)
  | budCfgWrite (c value : Nat)
  -- 02_levels_time_arbitration.md: clocks and arbiters
  | fclkChange (region : Nat)
  | regionClkWrite (region value : Nat)
  | populationRefresh (arb : Nat) (active : List (Nat × Nat))
  | arbiterGrant (arb : Nat) (pending : List (Nat × Nat × Nat × Bool))
  -- norm watch, page pools, compression ranges
  | nwClear (service : Nat)
  | kvPoolEnable (service : Nat)
  | kvPoolDisable (service : Nat)
  | kvPoolStrideWrite (service value : Nat)
  | codedSectorRead (kind num addr : Nat)
  | prismRangeEnable (stack range value : Nat)
  -- 13_weights_epochs.md: epochs and the LF map
  | epochSwitch (service : Nat)
  | epochSwitchDone (service : Nat) (cost : Cost)
  | epochRetire (service : Nat)
  | lfMapWrite (n value : Nat)
  -- 14_control_cores_events.md: events
  | eventRaise (idx : Nat)
  | coalTimer (src : Nat)
  | interruptDeliver (lc : Nat) (fast asleep : Bool)
  | evClaim (lc : Nat)
  | evClaimf (lc : Nat)
  | vectorAccept (lc : Nat) (fast : Bool)
  | evComplete (lc n : Nat)
  | evRaiseWrite (value : Nat)
  | evSrcWrite (n value : Nat)
  -- 14_control_cores_events.md: boot, cores, firmware
  | bootRomStart (h : Nat) (failed : List Nat)
  | bootSourceRound (h : Nat) (imgs : List (Nat × List Byte))
  | bootRetryTimer (h : Nat)
  | bootJump (h : Nat)
  | coreStart (value : Nat)
  | coreHandover (value : Nat)
  | fwUpdate (value : Nat)
  | coreEccError (p : Nat) (corrected : Bool)
  -- 15_faults_spares.md: fences, mirror runs, injection, records, the vault
  | fltFenceWrite (value : Nat)
  | mrRunStart (g : Nat)
  | mrSnapshotDone (g : Nat)
  | mrMirrorStepEnd (g : Nat) (overflow : Bool) (first diff : Option MOut)
  | mrReplayDone (g : Nat) (before : Bool) (replay : List Byte)
  | fltInjArm (value : Nat)
  | cperResend (value : Nat)
  -- 16_determinism_links.md: link ports, messages, time, barrier
  | linkPortEnable (p value : Nat)
  | linkTrainDone (p : Nat) (good : List Nat) (peer peerPort ident : Nat)
  | laneReplace (p lane : Nat)
  | flitReceive (p : Nat) (b : List Byte) (fec : Nat)
  | linkReplayTimer (p : Nat)
  | timeSendTick (p : Nat)
  | delayMeasure (p rtt : Nat)
  | msgIncompleteTimeout (p vc : Nat)
  | barArm (value : Nat)
  | linkCfgWrite (value : Nat)
  -- 17_security.md
  | pufUnwrap (failed : List Nat)
  | keyCommit (slot : Nat)
  | keyClear (slot : Nat)
  | sensorAlarm (n : Nat) (present : Bool)
  | secAlarmClassWrite (n value : Nat)
  | d2dChallenge (h : Nat) (failing : List Nat)
  -- 18_thermal_power_plant.md, 19_package_interfaces.md: heat, plant, power, reset
  | sensorRound (g : Nat) (codes : List Int)
  | throttleTick (g : Nat)
  | pkgSensorTrip (n : Nat) (t : Int)
  | pkgTripRestart (temps : List Int)
  | hbmTemp (k : Nat) (t : Int) (cat : Bool)
  | plantStep (pred : Int)
  | plantEnWrite (value : Nat)
  | plantSensorRead (tin tout : Option Int)
  | flowWindow (pulses : Nat)
  | railPoll (n : Nat) (rd : Option (Nat × Nat × Bool))
  | vfacSetpointRaise (d : Nat)
  | vfacSettled (d : Nat) (ok : Bool)
  | boostDecision (g : Nat)
  | porstAssert (ns : Nat)
  | railPgRise (n : Nat)
  | railPgTimeout (n : Nat)
  | railPgDrop (n ns : Nat)
  -- 19_package_interfaces.md: ports, PCIe, TAP, loupe; losses
  | timeInEdge (ns : Nat)
  | frameToSoftware (p : Nat) (frame : List Byte) (fcs poison : Bool)
  | netTxSend (k : Nat)
  | sportEnable (q value lanes : Nat)
  | pcieInbound (h addr n : Nat) (data : Option (List Byte)) (ep : Bool)
  | pcieObAccess (h : Nat) (write : Option Nat) (answer : Option Nat)
  | tapSamplePreload (pins load : List Bool)
  | tapExtest (pins load : List Bool)
  | hubLinkLoss (h : Nat)
  | d2dLaneFailure (die hub lane : Nat) (group : Bool)
  | hbmChannelRetrainFail (k c : Nat)
  | mgmtPortEnable (value : Nat) (ok : Bool)
  | pcieEnable (h value speed width : Nat)
  -- without operands, 13_weights_epochs.md: the loader
  | copy
  | mcast
  | awriteDirect
  | awriteRebind
  -- without operands, 02_levels_time_arbitration.md: clocks and arbiters
  | refclkFail
  -- without operands, 14_control_cores_events.md: boot, cores, firmware
  | spiPinTakeover
  | hubBBootTimeout
  | fwUpdateStandby
  -- without operands, 15_faults_spares.md: fences, mirror runs, injection, records, the vault
  | mapAppendTimeout
  | cperExport
  | vaultWrite
  | vaultRebuild
  -- without operands, 16_determinism_links.md: link ports, messages, time, barrier
  | msgWrite
  | msgSend
  | msgResp
  | msgTime
  | msgBarArrive
  | msgBarRelease
  | msgBarFail
  | barLocalRelease
  | barTimer
  -- without operands, 17_security.md
  | nonceDraw
  | attest
  | enroll
  | svnCommit
  | unlock
  | owner
  | secCmdComplete
  | eraseComplete
  -- without operands, 18_thermal_power_plant.md, 19_package_interfaces.md: heat, plant, power, reset
  | plantSensorLost
  | powerForecast
  | porstRelease
  | seqRestartTimer
  -- without operands, 19_package_interfaces.md: ports, PCIe, TAP, loupe; losses
  | tapBypass
  | tapIdcode
  | tapClamp
  | tapHighz
  | tapReset
  | loupeTrigIn
  | loupeSample
  | vddAonLoss
  deriving DecidableEq, Repr

end Sys2Proof
end

