-- ==== Sys2Proof/Decode.lean ====
section
/-! DEFINITION. Words of the table: no row of spec/opcode_table.json gives its command any bits. -/

namespace Sys2Proof

/-- The command that a word spells by the table's bits: none, since no row gives bits. -/
def decodeTableWord (_nbits _w : Nat) : Option Instr := none

end Sys2Proof
end

