-- ==== Sys2Proof/Config.lean ====
section
/-! DEFINITION. What an implementation fixes and what the spec leaves open: opaque constants, of which
no proof can see the value. -/

namespace Sys2Proof.Config

/-- The choice within the 1-ulp bound of R73 for VEXP2 (0), VRCP (1) and VRSQRT (2) on an FP32 operand
(log entry 6): its residue decides between the neighbours of the exact value. -/
opaque ulpChoice : Nat → Nat → Nat

/-- A free value for a point the spec states no value for: the first argument names the point, the second
is the counter `State.free` at the time (log entry 6). -/
opaque freeValue : Nat → Nat → Nat

/-- Entropy drawn by the security block (R510): the n-th 64-byte draw, as a number (log entry 6). -/
opaque entropy : Nat → Nat

/-- ML-DSA-87: the public key of a seed. -/
opaque dsaPublic : List Byte → List Byte

/-- ML-DSA-87: a signature of a message under a seed. -/
opaque dsaSign : List Byte → List Byte → List Byte

/-- ML-DSA-87: verification of a message and signature under a public key. -/
opaque dsaVerify : List Byte → List Byte → List Byte → Bool

/-- The secret that a hub's PUF gives with its helper data (R508). -/
opaque pufSecret : Nat → List Byte → List Byte

/-- The helper data of a hub's n-th enrollment (R508). -/
opaque pufHelper : Nat → Nat → List Byte

/-- The phase, in thousandths of a facet cycle, of a facet clock after its n-th change (R578). -/
opaque clockPhase : Nat → Nat → Nat

end Sys2Proof.Config
end

