-- ==== Sys2Proof/Machine/RegMap.lean ====
section
/-! DEFINITION. The package's registers: one constructor of `Reg` per register name of the spec, its
address (`Reg.key`), and the rows of its register table: field, bits, access code and reset value
(`Reg.fields`).  Where the spec says "from the vault", "from the store", "from the image", the model
starts from zero (log entry 4).  Registers seen through a window (CONV_*, CAL*) have a place of their own
per physical array, above the address space (log entry 5). -/

namespace Sys2Proof.Machine

/-- The two variants of R3. -/
inductive Variant where
  | zlp440
  | zlp240
  deriving DecidableEq, Repr

/-- The access codes of R15. -/
inductive Access where
  | rw | ro | w1c | w1s | rws | wo
  deriving DecidableEq, Repr

/-- A field of a register: its highest and lowest bit. -/
structure Fld where
  hi : Nat
  lo : Nat
  deriving DecidableEq, Repr

/-- One row of a register table. -/
structure FieldRow where
  name : String
  fld : Fld
  acc : Access
  reset : Nat
  deriving DecidableEq, Repr

/-- The registers of the package, named as the spec names them.  Index letters: `pf` physical facet,
`g` global region, `n` number within the block, `a` physical array, `sv` service, `c` logical core or
customer, `p` physical core or link port, `q` service port, `h` hub, `st` memory stack, `k` and `w` words. -/
inductive Reg where
  /-- R3 (00_scope.md). -/
  | PKG_VARIANT
  /-- R443 (14_control_cores_events.md). -/
  | FW_STAT
  /-- R443 (14_control_cores_events.md). -/
  | FW_UPDATE
  /-- R444 (14_control_cores_events.md). -/
  | CORE_MAP (c : Nat)
  /-- R445 (14_control_cores_events.md). -/
  | CORE_STAT (p : Nat)
  /-- R446 (14_control_cores_events.md). -/
  | CORE_HANDOVER
  /-- R576 (19_package_interfaces.md). -/
  | LOUPE_CTL
  /-- R576 (19_package_interfaces.md). -/
  | TIME_IN_STAMP
  /-- R36 (02_levels_time_arbitration.md). -/
  | REGION_CLK (g : Nat)
  /-- R52 (02_levels_time_arbitration.md). -/
  | REGION_ARB_POP (g : Nat)
  /-- R159 (06_calibration_refresh.md). -/
  | CAL_REGION_CTL (g : Nat)
  /-- R160 (06_calibration_refresh.md). -/
  | CAL_REGION_STAT (g : Nat)
  /-- R160 (06_calibration_refresh.md). -/
  | CAL_REGION_TLAST (g : Nat)
  /-- R161 (06_calibration_refresh.md). -/
  | REF_REGION_CTL (g : Nat)
  /-- R548 (18_thermal_power_plant.md). -/
  | REGION_THERM (g : Nat)
  /-- R463 (15_faults_spares.md). -/
  | MR_CTL (g : Nat)
  /-- R463 (15_faults_spares.md). -/
  | MR_STAT (g : Nat)
  /-- R463 (15_faults_spares.md). -/
  | MR_BUF (g : Nat)
  /-- R463 (15_faults_spares.md). -/
  | MR_CONF (g : Nat)
  /-- R101 (04_resident_arrays.md). -/
  | ARR_MAP (pf n : Nat)
  /-- R102 (04_resident_arrays.md). -/
  | ARR_STAT (pf n : Nat)
  /-- R103 (04_resident_arrays.md). -/
  | ARR_CTL (pf : Nat)
  /-- R104 (04_resident_arrays.md). -/
  | ARR_APCNT (pf k : Nat)
  /-- R105 (04_resident_arrays.md). -/
  | ARR_WIN_SEL (pf : Nat)
  /-- R106 (04_resident_arrays.md). -/
  | CONV_MAP (pf a n : Nat)
  /-- R107 (04_resident_arrays.md). -/
  | CONV_STAT (pf a n : Nat)
  /-- R128 (05_side_path.md). -/
  | CHK_WIN_SEL (pf : Nat)
  /-- R132 (05_side_path.md). -/
  | SP_STAT (pf : Nat)
  /-- R133 (05_side_path.md). -/
  | SP_ERR (pf : Nat)
  /-- R131 (05_side_path.md). -/
  | SP_ARR (pf n : Nat)
  /-- R130 (05_side_path.md). -/
  | GOLD_BASE (pf n : Nat)
  /-- R162 (06_calibration_refresh.md). -/
  | CONV_CAL (pf a n : Nat)
  /-- R163 (06_calibration_refresh.md). -/
  | CONV_SETLO (pf a n : Nat)
  /-- R163 (06_calibration_refresh.md). -/
  | CONV_SETHI (pf a n : Nat)
  /-- R164 (06_calibration_refresh.md). -/
  | ARR_CAL (pf n : Nat)
  /-- R164 (06_calibration_refresh.md). -/
  | ARR_CAL_TIME (pf n : Nat)
  /-- R165 (06_calibration_refresh.md). -/
  | ARR_MARGIN (pf n : Nat)
  /-- R165 (06_calibration_refresh.md). -/
  | ARR_WEAR (pf n : Nat)
  /-- R200 (07_facet_machine.md). -/
  | FAC_CTL (pf : Nat)
  /-- R201 (07_facet_machine.md). -/
  | FAC_STAT (pf : Nat)
  /-- R202 (07_facet_machine.md). -/
  | FAC_EXC (pf : Nat)
  /-- R203 (07_facet_machine.md). -/
  | FAC_BIND (pf : Nat)
  /-- R204 (07_facet_machine.md). -/
  | FAC_LOAD_SRC (pf : Nat)
  /-- R204 (07_facet_machine.md). -/
  | FAC_LOAD_CTL (pf : Nat)
  /-- R205 (07_facet_machine.md). -/
  | FAC_STALL (pf : Nat)
  /-- R205 (07_facet_machine.md). -/
  | FAC_ERR (pf : Nat)
  /-- R411 (13_weights_epochs.md). -/
  | FAC_EPOCH (pf : Nat)
  /-- R261 (09_tensor_vector_units.md). -/
  | ACC16_CTL (pf : Nat)
  /-- R262 (09_tensor_vector_units.md). -/
  | TEN_STAT (pf : Nat)
  /-- R263 (09_tensor_vector_units.md). -/
  | TEN_SHADOW (pf : Nat)
  /-- R264 (09_tensor_vector_units.md). -/
  | TEN_SIG_CTL (pf : Nat)
  /-- R286 (10_attention_cache.md). -/
  | ATT_STAT (pf : Nat)
  /-- R332 (11_prism_compression.md). -/
  | PRISM_STAT (pf : Nat)
  /-- R333 (11_prism_compression.md). -/
  | PRISM_ERR (pf : Nat)
  /-- R334 (11_prism_compression.md). -/
  | PRISM_LAST (pf : Nat)
  /-- R335 (11_prism_compression.md). -/
  | PRISM_TBL_VALID (pf k : Nat)
  /-- R74 (03_number_formats.md). -/
  | FMT_STAT (pf : Nat)
  /-- R384 (12_serving_engine.md). -/
  | RT_CTL
  /-- R384 (12_serving_engine.md). -/
  | RT_STAT
  /-- R384 (12_serving_engine.md). -/
  | RT_AREA
  /-- R385 (12_serving_engine.md). -/
  | SMP_STAT
  /-- R386 (12_serving_engine.md). -/
  | SVC_CFG (sv : Nat)
  /-- R386 (12_serving_engine.md). -/
  | SVC_DL (sv : Nat)
  /-- R386 (12_serving_engine.md). -/
  | SVC_LEN (sv : Nat)
  /-- R386 (12_serving_engine.md). -/
  | SVC_COST (sv : Nat)
  /-- R386 (12_serving_engine.md). -/
  | SVC_TOKS (sv : Nat)
  /-- R386 (12_serving_engine.md). -/
  | SVC_MISS (sv : Nat)
  /-- R386 (12_serving_engine.md). -/
  | SVC_CTL (sv : Nat)
  /-- R386 (12_serving_engine.md). -/
  | SVC_STAT (sv : Nat)
  /-- R387 (12_serving_engine.md). -/
  | SVCQ (sv : Nat)
  /-- R388 (12_serving_engine.md). -/
  | BUD_CFG (c : Nat)
  /-- R388 (12_serving_engine.md). -/
  | BUD_STAT (c : Nat)
  /-- R307 (10_attention_cache.md). -/
  | KV_POOL_BASE (sv : Nat)
  /-- R307 (10_attention_cache.md). -/
  | KV_POOL_DESC (sv : Nat)
  /-- R307 (10_attention_cache.md). -/
  | KV_POOL_CFG (sv : Nat)
  /-- R308 (10_attention_cache.md). -/
  | KV_POOL_STAT (sv : Nat)
  /-- R310 (10_attention_cache.md). -/
  | PFX_STAT
  /-- R309 (10_attention_cache.md). -/
  | KV_POOL_STRIDE (sv : Nat)
  /-- R273 (09_tensor_vector_units.md). -/
  | NW_CTL (sv : Nat)
  /-- R274 (09_tensor_vector_units.md). -/
  | NW_STAT (sv : Nat)
  /-- R311 (10_attention_cache.md). -/
  | KV_CODE (st sv w : Nat)
  /-- R336 (11_prism_compression.md). -/
  | PRISM_RANGE_BASE (st k : Nat)
  /-- R336 (11_prism_compression.md). -/
  | PRISM_RANGE_SLOTS (st k : Nat)
  /-- R337 (11_prism_compression.md). -/
  | PRISM_RANGE_STAT (st : Nat)
  /-- R408 (13_weights_epochs.md). -/
  | LD_CTL
  /-- R408 (13_weights_epochs.md). -/
  | LD_RING
  /-- R409 (13_weights_epochs.md). -/
  | LD_STAT
  /-- R410 (13_weights_epochs.md). -/
  | EP_CTL (sv : Nat)
  /-- R410 (13_weights_epochs.md). -/
  | EP_COST (sv : Nat)
  /-- R410 (13_weights_epochs.md). -/
  | EP_STAT (sv : Nat)
  /-- R412 (13_weights_epochs.md). -/
  | LF_MAP (n : Nat)
  /-- R431 (14_control_cores_events.md). -/
  | EV_SRC (n : Nat)
  /-- R431 (14_control_cores_events.md). -/
  | EV_PRIV (c n : Nat)
  /-- R432 (14_control_cores_events.md). -/
  | EV_MODE (c : Nat)
  /-- R432 (14_control_cores_events.md). -/
  | EV_CLAIM (c : Nat)
  /-- R432 (14_control_cores_events.md). -/
  | EV_CLAIMF (c : Nat)
  /-- R432 (14_control_cores_events.md). -/
  | EV_COMPLETE (c : Nat)
  /-- R432 (14_control_cores_events.md). -/
  | EV_RING (c : Nat)
  /-- R432 (14_control_cores_events.md). -/
  | EV_STAT (c : Nat)
  /-- R433 (14_control_cores_events.md). -/
  | EV_RAISE
  /-- R476 (15_faults_spares.md). -/
  | FLT_STAT
  /-- R471 (15_faults_spares.md). -/
  | FLT_INJ_SEL
  /-- R471 (15_faults_spares.md). -/
  | FLT_INJ_CTL
  /-- R476 (15_faults_spares.md). -/
  | FLT_CPER_RING
  /-- R476 (15_faults_spares.md). -/
  | FLT_EXPORT
  /-- R476 (15_faults_spares.md). -/
  | FLT_EXPORT_IP (k : Nat)
  /-- R476 (15_faults_spares.md). -/
  | VAULT_STAT
  /-- R500 (16_determinism_links.md). -/
  | LINK_CFG
  /-- R500 (16_determinism_links.md). -/
  | SYS_TIME
  /-- R500 (16_determinism_links.md). -/
  | TIME_STAT
  /-- R501 (16_determinism_links.md). -/
  | LINK_PORT_CTL (p : Nat)
  /-- R501 (16_determinism_links.md). -/
  | LINK_PORT_STAT (p : Nat)
  /-- R501 (16_determinism_links.md). -/
  | LINK_PORT_ERR (p : Nat)
  /-- R501 (16_determinism_links.md). -/
  | LINK_PORT_DELAY (p : Nat)
  /-- R502 (16_determinism_links.md). -/
  | LINK_ROUTE (n : Nat)
  /-- R503 (16_determinism_links.md). -/
  | BAR_CTL
  /-- R503 (16_determinism_links.md). -/
  | BAR_STAT
  /-- R503 (16_determinism_links.md). -/
  | BAR_T
  /-- R503 (16_determinism_links.md). -/
  | BAR_SVC
  /-- R524 (17_security.md). -/
  | SEC_STAT
  /-- R525 (17_security.md). -/
  | SEC_CMD
  /-- R525 (17_security.md). -/
  | SEC_CMD_SRC
  /-- R525 (17_security.md). -/
  | SEC_CMD_DST
  /-- R525 (17_security.md). -/
  | SEC_ATT_MASK
  /-- R525 (17_security.md). -/
  | SEC_NONCE (k : Nat)
  /-- R526 (17_security.md). -/
  | SEC_KEY_SEL
  /-- R526 (17_security.md). -/
  | SEC_KEY_DATA (k : Nat)
  /-- R527 (17_security.md). -/
  | SEC_ALARM (n : Nat)
  /-- R549 (18_thermal_power_plant.md). -/
  | THERM_CTL
  /-- R549 (18_thermal_power_plant.md). -/
  | PLANT_MODEL
  /-- R549 (18_thermal_power_plant.md). -/
  | PLANT_CTL
  /-- R549 (18_thermal_power_plant.md). -/
  | PLANT_IO
  /-- R549 (18_thermal_power_plant.md). -/
  | PLANT_STAT
  /-- R549 (18_thermal_power_plant.md). -/
  | PLANT_ERR
  /-- R549 (18_thermal_power_plant.md). -/
  | THERM_PKG (n : Nat)
  /-- R550 (18_thermal_power_plant.md). -/
  | PWR_CTL
  /-- R550 (18_thermal_power_plant.md). -/
  | PWR_STAT
  /-- R576 (19_package_interfaces.md). -/
  | PWR_SEQ
  /-- R550 (18_thermal_power_plant.md). -/
  | PWR_RAIL (n : Nat)
  /-- R573 (19_package_interfaces.md). -/
  | SPORT_CTL (q : Nat)
  /-- R573 (19_package_interfaces.md). -/
  | SPORT_STAT (q : Nat)
  /-- R573 (19_package_interfaces.md). -/
  | SPORT_ERR (q : Nat)
  /-- R573 (19_package_interfaces.md). -/
  | SPORT_MAC (q : Nat)
  /-- R573 (19_package_interfaces.md). -/
  | SPORT_GW (q : Nat)
  /-- R573 (19_package_interfaces.md). -/
  | SPORT_IP4 (q : Nat)
  /-- R573 (19_package_interfaces.md). -/
  | SPORT_IP6 (q k : Nat)
  /-- R574 (19_package_interfaces.md). -/
  | MGMT_CTL
  /-- R574 (19_package_interfaces.md). -/
  | MGMT_STAT
  /-- R574 (19_package_interfaces.md). -/
  | MGMT_MAC
  /-- R574 (19_package_interfaces.md). -/
  | NET_RX (k : Nat)
  /-- R574 (19_package_interfaces.md). -/
  | NET_TX (k : Nat)
  /-- R575 (19_package_interfaces.md). -/
  | PCIE_CTL (h : Nat)
  /-- R575 (19_package_interfaces.md). -/
  | PCIE_STAT (h : Nat)
  /-- R575 (19_package_interfaces.md). -/
  | PCIE_WIN (h : Nat)
  /-- R575 (19_package_interfaces.md). -/
  | PCIE_WINSZ (h : Nat)
  /-- R575 (19_package_interfaces.md). -/
  | PCIE_OB_ADDR (h : Nat)
  /-- R575 (19_package_interfaces.md). -/
  | PCIE_OB_CTL (h : Nat)
  /-- R575 (19_package_interfaces.md). -/
  | PCIE_OB_DATA (h : Nat)
  deriving DecidableEq, Repr

/-- The core that holds an LC at reset (R415): cores 0-7 hold LC 0-7, cores 10-17 LC 8-15; the mirror
cores 8, 9, 18 and 19 read 0x1F. -/
def coreResetLc (p : Nat) : Nat := if p ≤ 7 then p else if 10 ≤ p ∧ p ≤ 17 then p - 2 else 0x1F

/-- The arrays of a layer the variant lacks (R102). -/
def arrayAbsent (v : Variant) (n : Nat) : Bool := decide (v = .zlp240) && decide (66 ≤ n)

/-- ARR_STAT_n.state at reset (R102). -/
def arrStateReset (v : Variant) (n : Nat) : Nat :=
  if arrayAbsent v n then 0 else if n % 33 = 32 then 2 else 1

/-- ARR_MAP_n.phys at reset (R101); ARR_MAP_64 to ARR_MAP_127 read zero on ZLP-240. -/
def arrMapReset (v : Variant) (n : Nat) : Nat :=
  if v = .zlp240 ∧ 64 ≤ n then 0 else n / 32 * 33 + n % 32

/-- FAC_BIND.lf at reset (R6, R203): g * 16 + slot, and 0x3FF for the mirror slot. -/
def facLfReset (pf : Nat) : Nat :=
  if pf % 17 = 16 then 0x3FF else pf / 17 * 16 + pf % 17

/-- The default class of a security sensor (R519): A2 for sensors 0-8, 9 and 11, A1 for 10, A3 for 12. -/
def alarmClassReset (n : Nat) : Nat := if n = 10 then 1 else if n = 12 then 3 else 2

/-- The nominal voltage in mV and the current limit in A of a rail (R543): its set-point and limit at reset. -/
def railNominal (n : Nat) : Nat := [700, 700, 700, 700, 800, 1800, 750, 800, 1200, 1050, 700, 750].getD n 0
def railLimit (n : Nat) : Nat := [400, 400, 400, 400, 760, 100, 130, 260, 85, 190, 285, 4].getD n 0

/-- The address of a register; a windowed register's place lies above 2 ^ 60. -/
def Reg.key : Reg → Nat
  | .PKG_VARIANT => 0x700000000008
  | .FW_STAT => 0x700000000010
  | .FW_UPDATE => 0x700000000018
  | .CORE_MAP c => 0x700000000100 + 8 * c
  | .CORE_STAT p => 0x700000000200 + 8 * p
  | .CORE_HANDOVER => 0x700000000300
  | .LOUPE_CTL => 0x700000000400
  | .TIME_IN_STAMP => 0x700000000408
  | .REGION_CLK g => 0x700020000000 + g * 0x1000 + 0x000
  | .REGION_ARB_POP g => 0x700020000000 + g * 0x1000 + 0x008
  | .CAL_REGION_CTL g => 0x700020000000 + g * 0x1000 + 0x010
  | .CAL_REGION_STAT g => 0x700020000000 + g * 0x1000 + 0x018
  | .CAL_REGION_TLAST g => 0x700020000000 + g * 0x1000 + 0x020
  | .REF_REGION_CTL g => 0x700020000000 + g * 0x1000 + 0x028
  | .REGION_THERM g => 0x700020000000 + g * 0x1000 + 0x030
  | .MR_CTL g => 0x700020000000 + g * 0x1000 + 0x040
  | .MR_STAT g => 0x700020000000 + g * 0x1000 + 0x048
  | .MR_BUF g => 0x700020000000 + g * 0x1000 + 0x050
  | .MR_CONF g => 0x700020000000 + g * 0x1000 + 0x058
  | .ARR_MAP pf n => 0x700010000000 + pf * 0x10000 + 0x0000 + 8 * n
  | .ARR_STAT pf n => 0x700010000000 + pf * 0x10000 + 0x0800 + 8 * n
  | .ARR_CTL pf => 0x700010000000 + pf * 0x10000 + 0x1000
  | .ARR_APCNT pf k => 0x700010000000 + pf * 0x10000 + 0x1008 + 8 * k
  | .ARR_WIN_SEL pf => 0x700010000000 + pf * 0x10000 + 0x1040
  | .CONV_MAP pf a n => 2 ^ 60 + (pf * 256 + a) * 0x10000 + 0x2000 + 8 * n
  | .CONV_STAT pf a n => 2 ^ 60 + (pf * 256 + a) * 0x10000 + 0x2800 + 8 * n
  | .CHK_WIN_SEL pf => 0x700010000000 + pf * 0x10000 + 0x4008
  | .SP_STAT pf => 0x700010000000 + pf * 0x10000 + 0x4010
  | .SP_ERR pf => 0x700010000000 + pf * 0x10000 + 0x4018
  | .SP_ARR pf n => 0x700010000000 + pf * 0x10000 + 0x4400 + 8 * n
  | .GOLD_BASE pf n => 0x700010000000 + pf * 0x10000 + 0x4C00 + 8 * n
  | .CONV_CAL pf a n => 2 ^ 60 + (pf * 256 + a) * 0x10000 + 0x6000 + 8 * n
  | .CONV_SETLO pf a n => 2 ^ 60 + (pf * 256 + a) * 0x10000 + 0x7000 + 8 * n
  | .CONV_SETHI pf a n => 2 ^ 60 + (pf * 256 + a) * 0x10000 + 0x8000 + 8 * n
  | .ARR_CAL pf n => 0x700010000000 + pf * 0x10000 + 0xB000 + 8 * n
  | .ARR_CAL_TIME pf n => 0x700010000000 + pf * 0x10000 + 0xB800 + 8 * n
  | .ARR_MARGIN pf n => 0x700010000000 + pf * 0x10000 + 0xC000 + 8 * n
  | .ARR_WEAR pf n => 0x700010000000 + pf * 0x10000 + 0xC800 + 8 * n
  | .FAC_CTL pf => 0x700010000000 + pf * 0x10000 + 0xD000
  | .FAC_STAT pf => 0x700010000000 + pf * 0x10000 + 0xD008
  | .FAC_EXC pf => 0x700010000000 + pf * 0x10000 + 0xD010
  | .FAC_BIND pf => 0x700010000000 + pf * 0x10000 + 0xD018
  | .FAC_LOAD_SRC pf => 0x700010000000 + pf * 0x10000 + 0xD020
  | .FAC_LOAD_CTL pf => 0x700010000000 + pf * 0x10000 + 0xD028
  | .FAC_STALL pf => 0x700010000000 + pf * 0x10000 + 0xD030
  | .FAC_ERR pf => 0x700010000000 + pf * 0x10000 + 0xD038
  | .FAC_EPOCH pf => 0x700010000000 + pf * 0x10000 + 0xD040
  | .ACC16_CTL pf => 0x700010000000 + pf * 0x10000 + 0xE000
  | .TEN_STAT pf => 0x700010000000 + pf * 0x10000 + 0xE008
  | .TEN_SHADOW pf => 0x700010000000 + pf * 0x10000 + 0xE010
  | .TEN_SIG_CTL pf => 0x700010000000 + pf * 0x10000 + 0xE018
  | .ATT_STAT pf => 0x700010000000 + pf * 0x10000 + 0xE100
  | .PRISM_STAT pf => 0x700010000000 + pf * 0x10000 + 0xE200
  | .PRISM_ERR pf => 0x700010000000 + pf * 0x10000 + 0xE208
  | .PRISM_LAST pf => 0x700010000000 + pf * 0x10000 + 0xE210
  | .PRISM_TBL_VALID pf k => 0x700010000000 + pf * 0x10000 + 0xE220 + 8 * k
  | .FMT_STAT pf => 0x700010000000 + pf * 0x10000 + 0xF800
  | .RT_CTL => 0x700000200000 + 0x0000
  | .RT_STAT => 0x700000200000 + 0x0008
  | .RT_AREA => 0x700000200000 + 0x0010
  | .SMP_STAT => 0x700000300000
  | .SVC_CFG sv => 0x700000200000 + 0x1000 + 0x40 * sv + 0x00
  | .SVC_DL sv => 0x700000200000 + 0x1000 + 0x40 * sv + 0x08
  | .SVC_LEN sv => 0x700000200000 + 0x1000 + 0x40 * sv + 0x10
  | .SVC_COST sv => 0x700000200000 + 0x1000 + 0x40 * sv + 0x18
  | .SVC_TOKS sv => 0x700000200000 + 0x1000 + 0x40 * sv + 0x20
  | .SVC_MISS sv => 0x700000200000 + 0x1000 + 0x40 * sv + 0x28
  | .SVC_CTL sv => 0x700000200000 + 0x1000 + 0x40 * sv + 0x30
  | .SVC_STAT sv => 0x700000200000 + 0x1000 + 0x40 * sv + 0x38
  | .SVCQ sv => 0x700000200000 + 0x2000 + 8 * sv
  | .BUD_CFG c => 0x700000200000 + 0x4000 + 16 * c
  | .BUD_STAT c => 0x700000200000 + 0x4008 + 16 * c
  | .KV_POOL_BASE sv => 0x700000200000 + 0xE000 + 0x20 * sv
  | .KV_POOL_DESC sv => 0x700000200000 + 0xE008 + 0x20 * sv
  | .KV_POOL_CFG sv => 0x700000200000 + 0xE010 + 0x20 * sv
  | .KV_POOL_STAT sv => 0x700000200000 + 0xE018 + 0x20 * sv
  | .PFX_STAT => 0x700000200000 + 0xE800
  | .KV_POOL_STRIDE sv => 0x700000200000 + 0xE900 + 8 * sv
  | .NW_CTL sv => 0x700000200000 + 0xF000 + 8 * sv
  | .NW_STAT sv => 0x700000200000 + 0xF200 + 8 * sv
  | .KV_CODE st sv w => 0x700000D00000 + st * 0x10000 + 0x8000 + 0x80 * sv + 8 * w
  | .PRISM_RANGE_BASE st k => 0x700000D00000 + st * 0x10000 + 0xA000 + 16 * k
  | .PRISM_RANGE_SLOTS st k => 0x700000D00000 + st * 0x10000 + 0xA008 + 16 * k
  | .PRISM_RANGE_STAT st => 0x700000D00000 + st * 0x10000 + 0xA080
  | .LD_CTL => 0x700000400000 + 0x0000
  | .LD_RING => 0x700000400000 + 0x0008
  | .LD_STAT => 0x700000400000 + 0x0010
  | .EP_CTL sv => 0x700000400000 + 0x1000 + 0x18 * sv
  | .EP_COST sv => 0x700000400000 + 0x1008 + 0x18 * sv
  | .EP_STAT sv => 0x700000400000 + 0x1010 + 0x18 * sv
  | .LF_MAP n => 0x700000400000 + 0x2000 + 8 * n
  | .EV_SRC n => 0x700000100000 + 8 * n
  | .EV_PRIV c n => 0x700000100000 + 0x8000 + 0x200 * c + 8 * n
  | .EV_MODE c => 0x700000100000 + 0xA000 + 0x40 * c + 0x00
  | .EV_CLAIM c => 0x700000100000 + 0xA000 + 0x40 * c + 0x08
  | .EV_CLAIMF c => 0x700000100000 + 0xA000 + 0x40 * c + 0x10
  | .EV_COMPLETE c => 0x700000100000 + 0xA000 + 0x40 * c + 0x18
  | .EV_RING c => 0x700000100000 + 0xA000 + 0x40 * c + 0x20
  | .EV_STAT c => 0x700000100000 + 0xA000 + 0x40 * c + 0x28
  | .EV_RAISE => 0x700000100000 + 0xB000
  | .FLT_STAT => 0x700000800000 + 0x08
  | .FLT_INJ_SEL => 0x700000800000 + 0x10
  | .FLT_INJ_CTL => 0x700000800000 + 0x18
  | .FLT_CPER_RING => 0x700000800000 + 0x20
  | .FLT_EXPORT => 0x700000800000 + 0x28
  | .FLT_EXPORT_IP k => 0x700000800000 + 0x30 + 8 * k
  | .VAULT_STAT => 0x700000800000 + 0x40
  | .LINK_CFG => 0x700000900000 + 0x0000
  | .SYS_TIME => 0x700000900000 + 0x0008
  | .TIME_STAT => 0x700000900000 + 0x0010
  | .LINK_PORT_CTL p => 0x700000900000 + 0x1000 + 0x40 * p + 0x00
  | .LINK_PORT_STAT p => 0x700000900000 + 0x1000 + 0x40 * p + 0x08
  | .LINK_PORT_ERR p => 0x700000900000 + 0x1000 + 0x40 * p + 0x10
  | .LINK_PORT_DELAY p => 0x700000900000 + 0x1000 + 0x40 * p + 0x18
  | .LINK_ROUTE n => 0x700000900000 + 0x2000 + 8 * n
  | .BAR_CTL => 0x700000900000 + 0x3000
  | .BAR_STAT => 0x700000900000 + 0x3008
  | .BAR_T => 0x700000900000 + 0x3010
  | .BAR_SVC => 0x700000900000 + 0x3018
  | .SEC_STAT => 0x700000700000 + 0x000
  | .SEC_CMD => 0x700000700000 + 0x008
  | .SEC_CMD_SRC => 0x700000700000 + 0x010
  | .SEC_CMD_DST => 0x700000700000 + 0x018
  | .SEC_ATT_MASK => 0x700000700000 + 0x020
  | .SEC_NONCE k => 0x700000700000 + 0x040 + 8 * k
  | .SEC_KEY_SEL => 0x700000700000 + 0x100
  | .SEC_KEY_DATA k => 0x700000700000 + 0x108 + 8 * k
  | .SEC_ALARM n => 0x700000700000 + 0x200 + 8 * n
  | .THERM_CTL => 0x700000500000 + 0x00
  | .PLANT_MODEL => 0x700000500000 + 0x08
  | .PLANT_CTL => 0x700000500000 + 0x10
  | .PLANT_IO => 0x700000500000 + 0x18
  | .PLANT_STAT => 0x700000500000 + 0x20
  | .PLANT_ERR => 0x700000500000 + 0x28
  | .THERM_PKG n => 0x700000500000 + 0x100 + 8 * n
  | .PWR_CTL => 0x700000600000 + 0x00
  | .PWR_STAT => 0x700000600000 + 0x08
  | .PWR_SEQ => 0x700000600000 + 0x10
  | .PWR_RAIL n => 0x700000600000 + 0x100 + 8 * n
  | .SPORT_CTL q => 0x700000A00000 + 0x40 * q + 0x00
  | .SPORT_STAT q => 0x700000A00000 + 0x40 * q + 0x08
  | .SPORT_ERR q => 0x700000A00000 + 0x40 * q + 0x10
  | .SPORT_MAC q => 0x700000A00000 + 0x40 * q + 0x18
  | .SPORT_GW q => 0x700000A00000 + 0x40 * q + 0x20
  | .SPORT_IP4 q => 0x700000A00000 + 0x40 * q + 0x28
  | .SPORT_IP6 q k => 0x700000A00000 + 0x40 * q + 0x30 + 8 * k
  | .MGMT_CTL => 0x700000B00000 + 0x00
  | .MGMT_STAT => 0x700000B00000 + 0x08
  | .MGMT_MAC => 0x700000B00000 + 0x10
  | .NET_RX k => 0x700000B00000 + 0x100 + 0x20 * k
  | .NET_TX k => 0x700000B00000 + 0x108 + 0x20 * k
  | .PCIE_CTL h => 0x700000C00000 + 0x100 * h + 0x00
  | .PCIE_STAT h => 0x700000C00000 + 0x100 * h + 0x08
  | .PCIE_WIN h => 0x700000C00000 + 0x100 * h + 0x10
  | .PCIE_WINSZ h => 0x700000C00000 + 0x100 * h + 0x18
  | .PCIE_OB_ADDR h => 0x700000C00000 + 0x100 * h + 0x20
  | .PCIE_OB_CTL h => 0x700000C00000 + 0x100 * h + 0x28
  | .PCIE_OB_DATA h => 0x700000C00000 + 0x100 * h + 0x30

namespace F.PKG_VARIANT
def array_layers : Fld := ⟨23, 20⟩
def compute_stacks : Fld := ⟨19, 16⟩
def part : Fld := ⟨15, 0⟩
end F.PKG_VARIANT
namespace F.FW_STAT
def version : Fld := ⟨63, 32⟩
def svn : Fld := ⟨31, 16⟩
def source : Fld := ⟨15, 14⟩
def rom_err : Fld := ⟨7, 0⟩
end F.FW_STAT
namespace F.FW_UPDATE
def go : Fld := ⟨63, 63⟩
def busy : Fld := ⟨62, 62⟩
def err : Fld := ⟨61, 59⟩
def addr : Fld := ⟨39, 6⟩
end F.FW_UPDATE
namespace F.CORE_MAP
def valid : Fld := ⟨63, 63⟩
def phys : Fld := ⟨4, 0⟩
end F.CORE_MAP
namespace F.CORE_STAT
def fw_version : Fld := ⟨63, 32⟩
def lc : Fld := ⟨20, 16⟩
def state : Fld := ⟨2, 0⟩
end F.CORE_STAT
namespace F.CORE_HANDOVER
def go : Fld := ⟨63, 63⟩
def busy : Fld := ⟨62, 62⟩
def err : Fld := ⟨61, 59⟩
def to_ : Fld := ⟨20, 16⟩
def lc : Fld := ⟨3, 0⟩
end F.CORE_HANDOVER
namespace F.LOUPE_CTL
def dropped : Fld := ⟨63, 32⟩
def pf : Fld := ⟨31, 22⟩
def flits : Fld := ⟨6, 6⟩
def samples : Fld := ⟨5, 5⟩
def events : Fld := ⟨4, 4⟩
def trig_mode : Fld := ⟨1, 1⟩
def enable : Fld := ⟨0, 0⟩
end F.LOUPE_CTL
namespace F.TIME_IN_STAMP
def time : Fld := ⟨63, 0⟩
end F.TIME_IN_STAMP
namespace F.REGION_CLK
def throttled : Fld := ⟨31, 31⟩
def fclk_cur : Fld := ⟨26, 16⟩
def fclk_design : Fld := ⟨10, 0⟩
end F.REGION_CLK
namespace F.REGION_ARB_POP
def pop_barrier : Fld := ⟨39, 30⟩
def pop_bulk : Fld := ⟨29, 20⟩
def pop_response : Fld := ⟨19, 10⟩
def pop_request : Fld := ⟨9, 0⟩
end F.REGION_ARB_POP
namespace F.CAL_REGION_CTL
def min_gap : Fld := ⟨63, 48⟩
def dt_cal : Fld := ⟨47, 32⟩
def kappa : Fld := ⟨23, 16⟩
def par : Fld := ⟨5, 4⟩
def hold : Fld := ⟨2, 2⟩
def start : Fld := ⟨1, 1⟩
def enable : Fld := ⟨0, 0⟩
end F.CAL_REGION_CTL
namespace F.CAL_REGION_STAT
def running : Fld := ⟨63, 63⟩
def t_ref : Fld := ⟨47, 32⟩
def t_now : Fld := ⟨31, 16⟩
def runs : Fld := ⟨15, 0⟩
end F.CAL_REGION_STAT
namespace F.CAL_REGION_TLAST
def time : Fld := ⟨63, 0⟩
end F.CAL_REGION_TLAST
namespace F.REF_REGION_CTL
def weak_limit : Fld := ⟨63, 48⟩
def scan_s : Fld := ⟨47, 32⟩
def max_ref : Fld := ⟨3, 1⟩
def enable : Fld := ⟨0, 0⟩
end F.REF_REGION_CTL
namespace F.REGION_THERM
def temp : Fld := ⟨63, 48⟩
def state : Fld := ⟨42, 40⟩
def in_window : Fld := ⟨39, 39⟩
def in_use : Fld := ⟨34, 30⟩
def broken : Fld := ⟨29, 25⟩
def trips : Fld := ⟨15, 0⟩
end F.REGION_THERM
namespace F.MR_CTL
def focus_clean : Fld := ⟨15, 8⟩
def pause : Fld := ⟨1, 1⟩
def enable : Fld := ⟨0, 0⟩
end F.MR_CTL
namespace F.MR_STAT
def runs : Fld := ⟨63, 40⟩
def void : Fld := ⟨39, 24⟩
def confirmations : Fld := ⟨23, 16⟩
def mirror_faults : Fld := ⟨15, 8⟩
def unresolved : Fld := ⟨7, 0⟩
end F.MR_STAT
namespace F.MR_BUF
def addr : Fld := ⟨39, 24⟩
def valid : Fld := ⟨0, 0⟩
end F.MR_BUF
namespace F.MR_CONF
def conf : Fld := ⟨33, 0⟩
end F.MR_CONF
namespace F.ARR_MAP
def pending : Fld := ⟨8, 8⟩
def phys : Fld := ⟨7, 0⟩
end F.ARR_MAP
namespace F.ARR_STAT
def esc_count : Fld := ⟨63, 48⟩
def conv_fenced : Fld := ⟨39, 32⟩
def mirror_free : Fld := ⟨27, 24⟩
def inflight : Fld := ⟨5, 4⟩
def state : Fld := ⟨2, 0⟩
end F.ARR_STAT
namespace F.ARR_CTL
def map_reject : Fld := ⟨7, 7⟩
def ap_ceiling : Fld := ⟨1, 0⟩
end F.ARR_CTL
namespace F.ARR_APCNT
def planes : Fld := ⟨47, 0⟩
end F.ARR_APCNT
namespace F.ARR_WIN_SEL
def phys : Fld := ⟨7, 0⟩
end F.ARR_WIN_SEL
namespace F.CONV_MAP
def pending : Fld := ⟨9, 9⟩
def srv : Fld := ⟨8, 0⟩
end F.CONV_MAP
namespace F.CONV_STAT
def ovr_count : Fld := ⟨63, 32⟩
def serves : Fld := ⟨24, 16⟩
def fence : Fld := ⟨3, 3⟩
def role : Fld := ⟨2, 0⟩
end F.CONV_STAT
namespace F.CHK_WIN_SEL
def logical : Fld := ⟨6, 0⟩
end F.CHK_WIN_SEL
namespace F.SP_STAT
def flags : Fld := ⟨63, 48⟩
def replays : Fld := ⟨47, 32⟩
def replay_pass : Fld := ⟨31, 16⟩
def fallbacks : Fld := ⟨15, 0⟩
end F.SP_STAT
namespace F.SP_ERR
def reread : Fld := ⟨63, 48⟩
def row_gold : Fld := ⟨47, 32⟩
def outlier_bad : Fld := ⟨31, 16⟩
def store_mismatch : Fld := ⟨15, 8⟩
def gold_fail : Fld := ⟨7, 0⟩
end F.SP_ERR
namespace F.SP_ARR
def fb_total : Fld := ⟨63, 48⟩
def fb_window : Fld := ⟨33, 32⟩
def takeover_req : Fld := ⟨2, 2⟩
def marked : Fld := ⟨1, 1⟩
end F.SP_ARR
namespace F.GOLD_BASE
def addr : Fld := ⟨39, 6⟩
def valid : Fld := ⟨0, 0⟩
end F.GOLD_BASE
namespace F.CONV_CAL
def o_now : Fld := ⟨63, 56⟩
def g_now : Fld := ⟨55, 48⟩
def o_fact : Fld := ⟨47, 40⟩
def g_fact : Fld := ⟨39, 32⟩
def fail_count : Fld := ⟨31, 16⟩
def fail_consec : Fld := ⟨5, 4⟩
def last : Fld := ⟨2, 0⟩
end F.CONV_CAL
namespace F.CONV_SETLO
def g3 : Fld := ⟨63, 56⟩
def o3 : Fld := ⟨55, 48⟩
def g2 : Fld := ⟨47, 40⟩
def o2 : Fld := ⟨39, 32⟩
def g1 : Fld := ⟨31, 24⟩
def o1 : Fld := ⟨23, 16⟩
def g0 : Fld := ⟨15, 8⟩
def o0 : Fld := ⟨7, 0⟩
end F.CONV_SETLO
namespace F.CONV_SETHI
def g4 : Fld := ⟨15, 8⟩
def g5 : Fld := ⟨31, 24⟩
def g6 : Fld := ⟨47, 40⟩
def g7 : Fld := ⟨63, 56⟩
def o4 : Fld := ⟨7, 0⟩
def o5 : Fld := ⟨23, 16⟩
def o6 : Fld := ⟨39, 32⟩
def o7 : Fld := ⟨55, 48⟩
end F.CONV_SETHI
namespace F.ARR_CAL
def runs : Fld := ⟨63, 32⟩
def fails : Fld := ⟨31, 16⟩
def deferrals : Fld := ⟨15, 0⟩
end F.ARR_CAL
namespace F.ARR_CAL_TIME
def time : Fld := ⟨63, 0⟩
end F.ARR_CAL_TIME
namespace F.ARR_MARGIN
def scans : Fld := ⟨63, 48⟩
def flipped_rows : Fld := ⟨42, 32⟩
def weak_rows : Fld := ⟨26, 16⟩
def weak_cells : Fld := ⟨15, 0⟩
end F.ARR_MARGIN
namespace F.ARR_WEAR
def writes : Fld := ⟨63, 32⟩
def rows : Fld := ⟨31, 0⟩
end F.ARR_WEAR
namespace F.FAC_CTL
def entry : Fld := ⟨28, 16⟩
def exc_restart : Fld := ⟨7, 7⟩
def stop : Fld := ⟨2, 2⟩
def run : Fld := ⟨1, 1⟩
def reset : Fld := ⟨0, 0⟩
end F.FAC_CTL
namespace F.FAC_STAT
def steps : Fld := ⟨63, 32⟩
def pc : Fld := ⟨28, 16⟩
def bind_reject : Fld := ⟨8, 8⟩
def dq_depth : Fld := ⟨5, 3⟩
def state : Fld := ⟨2, 0⟩
end F.FAC_STAT
namespace F.FAC_EXC
def count : Fld := ⟨63, 48⟩
def pc : Fld := ⟨28, 16⟩
def valid : Fld := ⟨11, 11⟩
def slot : Fld := ⟨10, 8⟩
def cause : Fld := ⟨7, 0⟩
end F.FAC_EXC
namespace F.FAC_BIND
def lf : Fld := ⟨41, 32⟩
def prog_id : Fld := ⟨31, 16⟩
def bound : Fld := ⟨7, 7⟩
def service : Fld := ⟨5, 0⟩
end F.FAC_BIND
namespace F.FAC_LOAD_SRC
def addr : Fld := ⟨39, 6⟩
end F.FAC_LOAD_SRC
namespace F.FAC_LOAD_CTL
def error : Fld := ⟨11, 8⟩
def busy : Fld := ⟨1, 1⟩
def go : Fld := ⟨0, 0⟩
end F.FAC_LOAD_CTL
namespace F.FAC_STALL
def array : Fld := ⟨31, 24⟩
def tensor : Fld := ⟨23, 16⟩
def movement : Fld := ⟨15, 8⟩
def sync : Fld := ⟨7, 4⟩
def register : Fld := ⟨3, 0⟩
end F.FAC_STALL
namespace F.FAC_ERR
def sram_ce : Fld := ⟨63, 32⟩
def sram_ue : Fld := ⟨31, 16⟩
def imem_ue : Fld := ⟨15, 0⟩
end F.FAC_ERR
namespace F.FAC_EPOCH
def ep_a : Fld := ⟨63, 48⟩
def ep_b : Fld := ⟨47, 32⟩
def staged : Fld := ⟨31, 24⟩
def staged_epoch : Fld := ⟨15, 0⟩
end F.FAC_EPOCH
namespace F.ACC16_CTL
def chunk : Fld := ⟨1, 0⟩
end F.ACC16_CTL
namespace F.TEN_STAT
def tmm : Fld := ⟨63, 40⟩
def reuse : Fld := ⟨39, 24⟩
def stall : Fld := ⟨23, 0⟩
end F.TEN_STAT
namespace F.TEN_SHADOW
def enable : Fld := ⟨63, 63⟩
def rot : Fld := ⟨53, 48⟩
def checks : Fld := ⟨47, 32⟩
def unresolved : Fld := ⟨31, 24⟩
def shadow_faults : Fld := ⟨23, 16⟩
def confirmations : Fld := ⟨15, 8⟩
def sfaults : Fld := ⟨3, 2⟩
def confirmed : Fld := ⟨1, 0⟩
end F.TEN_SHADOW
namespace F.TEN_SIG_CTL
def truncated : Fld := ⟨1, 1⟩
def full : Fld := ⟨0, 0⟩
end F.TEN_SIG_CTL
namespace F.ATT_STAT
def empty_rows : Fld := ⟨63, 32⟩
def sessions : Fld := ⟨31, 16⟩
def bad_desc : Fld := ⟨15, 0⟩
end F.ATT_STAT
namespace F.PRISM_STAT
def coded : Fld := ⟨63, 40⟩
def raw : Fld := ⟨39, 16⟩
def stall : Fld := ⟨15, 0⟩
end F.PRISM_STAT
namespace F.PRISM_ERR
def poison_in : Fld := ⟨55, 48⟩
def crc : Fld := ⟨47, 40⟩
def overrun : Fld := ⟨39, 32⟩
def underrun : Fld := ⟨31, 24⟩
def code : Fld := ⟨23, 16⟩
def table : Fld := ⟨15, 8⟩
def header : Fld := ⟨7, 0⟩
end F.PRISM_ERR
namespace F.PRISM_LAST
def valid : Fld := ⟨31, 31⟩
def cls : Fld := ⟨30, 28⟩
def reader : Fld := ⟨27, 27⟩
def stream : Fld := ⟨26, 23⟩
def slot : Fld := ⟨22, 12⟩
end F.PRISM_LAST
namespace F.PRISM_TBL_VALID
def valid : Fld := ⟨63, 0⟩
end F.PRISM_TBL_VALID
namespace F.FMT_STAT
def drive_sat : Fld := ⟨63, 48⟩
def int_sat : Fld := ⟨47, 32⟩
def nan_lost : Fld := ⟨31, 24⟩
def acc16_fallback : Fld := ⟨23, 16⟩
def t5_invalid : Fld := ⟨15, 8⟩
def scale_invalid : Fld := ⟨7, 0⟩
end F.FMT_STAT
namespace F.RT_CTL
def udp_port : Fld := ⟨63, 48⟩
def sw_entries : Fld := ⟨43, 32⟩
def asm_ms : Fld := ⟨31, 16⟩
def enable : Fld := ⟨0, 0⟩
end F.RT_CTL
namespace F.RT_STAT
def dropped : Fld := ⟨63, 48⟩
def auth_fail : Fld := ⟨47, 32⟩
def busy : Fld := ⟨31, 16⟩
def sw_reject : Fld := ⟨15, 0⟩
end F.RT_STAT
namespace F.RT_AREA
def addr : Fld := ⟨39, 22⟩
end F.RT_AREA
namespace F.SMP_STAT
def samples : Fld := ⟨63, 32⟩
def nan : Fld := ⟨31, 16⟩
def failed : Fld := ⟨15, 0⟩
end F.SMP_STAT
namespace F.SVC_CFG
def deadline : Fld := ⟨63, 63⟩
def epoch_pol : Fld := ⟨62, 62⟩
def hub : Fld := ⟨61, 61⟩
def outlier_kc : Fld := ⟨57, 56⟩
def spec_limit : Fld := ⟨55, 48⟩
def vocab : Fld := ⟨46, 44⟩
def prefill_chunk : Fld := ⟨43, 32⟩
def replays : Fld := ⟨26, 24⟩
def pw_limit : Fld := ⟨23, 8⟩
def max_batch : Fld := ⟨4, 0⟩
end F.SVC_CFG
namespace F.SVC_DL
def first_us : Fld := ⟨63, 32⟩
def token_us : Fld := ⟨31, 0⟩
end F.SVC_DL
namespace F.SVC_LEN
def max_len : Fld := ⟨55, 32⟩
def max_prompt_bytes : Fld := ⟨20, 0⟩
end F.SVC_LEN
namespace F.SVC_COST
def addr : Fld := ⟨39, 6⟩
end F.SVC_COST
namespace F.SVC_TOKS
def bos_en : Fld := ⟨63, 63⟩
def stop1_en : Fld := ⟨62, 62⟩
def stop0_en : Fld := ⟨61, 61⟩
def bos : Fld := ⟨53, 36⟩
def stop1 : Fld := ⟨35, 18⟩
def stop0 : Fld := ⟨17, 0⟩
end F.SVC_TOKS
namespace F.SVC_MISS
def misses : Fld := ⟨63, 48⟩
def misses_budget : Fld := ⟨47, 32⟩
def refused : Fld := ⟨31, 16⟩
def preempted : Fld := ⟨15, 0⟩
end F.SVC_MISS
namespace F.SVC_CTL
def readmit : Fld := ⟨2, 2⟩
def stop : Fld := ⟨1, 1⟩
def enable : Fld := ⟨0, 0⟩
end F.SVC_CTL
namespace F.SVC_STAT
def first_bound : Fld := ⟨63, 40⟩
def step_bound : Fld := ⟨39, 16⟩
def reason : Fld := ⟨10, 8⟩
def void : Fld := ⟨2, 2⟩
def busy : Fld := ⟨1, 1⟩
def admitted : Fld := ⟨0, 0⟩
end F.SVC_STAT
namespace F.SVCQ
def dropped : Fld := ⟨23, 16⟩
def tail : Fld := ⟨15, 8⟩
def head : Fld := ⟨7, 0⟩
end F.SVCQ
namespace F.BUD_CFG
def rate : Fld := ⟨63, 32⟩
def burst : Fld := ⟨22, 0⟩
end F.BUD_CFG
namespace F.BUD_STAT
def level : Fld := ⟨63, 24⟩
def charged : Fld := ⟨23, 0⟩
end F.BUD_STAT
namespace F.KV_POOL_BASE
def addr : Fld := ⟨39, 16⟩
end F.KV_POOL_BASE
namespace F.KV_POOL_DESC
def addr : Fld := ⟨39, 6⟩
end F.KV_POOL_DESC
namespace F.KV_POOL_CFG
def pages : Fld := ⟨63, 32⟩
def pg_units : Fld := ⟨31, 12⟩
def pt_log2 : Fld := ⟨11, 8⟩
def share_en : Fld := ⟨3, 3⟩
def seal_en : Fld := ⟨2, 2⟩
def enable : Fld := ⟨0, 0⟩
end F.KV_POOL_CFG
namespace F.KV_POOL_STAT
def free : Fld := ⟨63, 32⟩
def bad_write : Fld := ⟨31, 24⟩
def cow : Fld := ⟨23, 12⟩
def seal_skip : Fld := ⟨11, 2⟩
def cfg_err : Fld := ⟨1, 1⟩
def ready : Fld := ⟨0, 0⟩
end F.KV_POOL_STAT
namespace F.PFX_STAT
def hits : Fld := ⟨63, 48⟩
def misses : Fld := ⟨47, 32⟩
def evictions : Fld := ⟨31, 16⟩
def entries : Fld := ⟨14, 0⟩
end F.PFX_STAT
namespace F.KV_POOL_STRIDE
def pos_stride : Fld := ⟨19, 0⟩
end F.KV_POOL_STRIDE
namespace F.NW_CTL
def warmup : Fld := ⟨23, 16⟩
def alpha : Fld := ⟨14, 12⟩
def down : Fld := ⟨10, 8⟩
def up : Fld := ⟨6, 4⟩
def clear : Fld := ⟨2, 2⟩
def grad_en : Fld := ⟨1, 1⟩
def enable : Fld := ⟨0, 0⟩
end F.NW_CTL
namespace F.NW_STAT
def jumps : Fld := ⟨63, 48⟩
def grad_skips : Fld := ⟨47, 32⟩
def reseeds : Fld := ⟨31, 16⟩
def dropped : Fld := ⟨15, 0⟩
end F.NW_STAT
namespace F.KV_CODE
def word : Fld := ⟨63, 0⟩
end F.KV_CODE
namespace F.PRISM_RANGE_BASE
def enable : Fld := ⟨63, 63⟩
def addr : Fld := ⟨39, 12⟩
end F.PRISM_RANGE_BASE
namespace F.PRISM_RANGE_SLOTS
def slots : Fld := ⟨23, 0⟩
end F.PRISM_RANGE_SLOTS
namespace F.PRISM_RANGE_STAT
def skipped : Fld := ⟨63, 16⟩
def cfg_err : Fld := ⟨0, 0⟩
end F.PRISM_RANGE_STAT
namespace F.LD_CTL
def net_port : Fld := ⟨63, 48⟩
def max_wr : Fld := ⟨47, 32⟩
def enable : Fld := ⟨0, 0⟩
end F.LD_CTL
namespace F.LD_RING
def tail : Fld := ⟨63, 52⟩
def head : Fld := ⟨51, 40⟩
def size_log2 : Fld := ⟨39, 36⟩
def addr : Fld := ⟨25, 6⟩
end F.LD_RING
namespace F.LD_STAT
def arrays : Fld := ⟨63, 40⟩
def errors : Fld := ⟨39, 24⟩
def last_pkg : Fld := ⟨23, 16⟩
def last_err : Fld := ⟨15, 0⟩
end F.LD_STAT
namespace F.EP_CTL
def target : Fld := ⟨63, 48⟩
def nw_clear : Fld := ⟨2, 2⟩
def switch : Fld := ⟨0, 0⟩
end F.EP_CTL
namespace F.EP_COST
def addr : Fld := ⟨39, 6⟩
end F.EP_COST
namespace F.EP_STAT
def cur : Fld := ⟨63, 48⟩
def old : Fld := ⟨47, 32⟩
def live_old : Fld := ⟨31, 16⟩
def err : Fld := ⟨10, 8⟩
def draining : Fld := ⟨1, 1⟩
def busy : Fld := ⟨0, 0⟩
end F.EP_STAT
namespace F.LF_MAP
def valid : Fld := ⟨63, 63⟩
def refused : Fld := ⟨62, 62⟩
def pf : Fld := ⟨9, 0⟩
end F.LF_MAP
namespace F.EV_SRC
def coal_time : Fld := ⟨63, 48⟩
def coal_count : Fld := ⟨47, 40⟩
def pend_count : Fld := ⟨39, 32⟩
def target : Fld := ⟨19, 16⟩
def cls : Fld := ⟨11, 11⟩
def in_service : Fld := ⟨9, 9⟩
def pending : Fld := ⟨8, 8⟩
def enable : Fld := ⟨0, 0⟩
end F.EV_SRC
namespace F.EV_PRIV
def coal_time : Fld := ⟨63, 48⟩
def coal_count : Fld := ⟨47, 40⟩
def pend_count : Fld := ⟨39, 32⟩
def cls : Fld := ⟨11, 11⟩
def in_service : Fld := ⟨9, 9⟩
def pending : Fld := ⟨8, 8⟩
def enable : Fld := ⟨0, 0⟩
end F.EV_PRIV
namespace F.EV_MODE
def vbase : Fld := ⟨47, 12⟩
def vec_fast : Fld := ⟨1, 1⟩
def vec_normal : Fld := ⟨0, 0⟩
end F.EV_MODE
namespace F.EV_CLAIM
def number : Fld := ⟨12, 0⟩
end F.EV_CLAIM
namespace F.EV_CLAIMF
def number : Fld := ⟨12, 0⟩
end F.EV_CLAIMF
namespace F.EV_COMPLETE
def number : Fld := ⟨12, 0⟩
end F.EV_COMPLETE
namespace F.EV_RING
def lost : Fld := ⟨63, 48⟩
def tail : Fld := ⟨25, 16⟩
def head : Fld := ⟨9, 0⟩
end F.EV_RING
namespace F.EV_STAT
def claims : Fld := ⟨63, 32⟩
def spurious : Fld := ⟨31, 16⟩
def wakes : Fld := ⟨15, 0⟩
end F.EV_STAT
namespace F.EV_RAISE
def priv : Fld := ⟨63, 63⟩
def lc : Fld := ⟨51, 48⟩
def number : Fld := ⟨12, 0⟩
end F.EV_RAISE
namespace F.FLT_STAT
def fences : Fld := ⟨63, 48⟩
def hub_repair : Fld := ⟨47, 32⟩
def hbm_ce : Fld := ⟨31, 8⟩
def map_full : Fld := ⟨1, 1⟩
def fence_err : Fld := ⟨0, 0⟩
end F.FLT_STAT
namespace F.FLT_INJ_SEL
def sel : Fld := ⟨63, 0⟩
end F.FLT_INJ_SEL
namespace F.FLT_INJ_CTL
def arg : Fld := ⟨63, 24⟩
def kind : Fld := ⟨23, 16⟩
def allowed : Fld := ⟨4, 4⟩
def refused : Fld := ⟨3, 3⟩
def done : Fld := ⟨2, 2⟩
def dry : Fld := ⟨1, 1⟩
def arm : Fld := ⟨0, 0⟩
end F.FLT_INJ_CTL
namespace F.FLT_CPER_RING
def tail : Fld := ⟨63, 56⟩
def head : Fld := ⟨55, 48⟩
def lost : Fld := ⟨47, 40⟩
def addr : Fld := ⟨39, 21⟩
end F.FLT_CPER_RING
namespace F.FLT_EXPORT
def enable : Fld := ⟨63, 63⟩
def auto_release : Fld := ⟨62, 62⟩
def port : Fld := ⟨47, 32⟩
def resend_idx : Fld := ⟨15, 8⟩
def resend : Fld := ⟨0, 0⟩
end F.FLT_EXPORT
namespace F.FLT_EXPORT_IP
def addr : Fld := ⟨63, 0⟩
end F.FLT_EXPORT_IP
namespace F.VAULT_STAT
def gen : Fld := ⟨63, 32⟩
def copy_dies : Fld := ⟨7, 4⟩
def degraded : Fld := ⟨2, 2⟩
def busy : Fld := ⟨1, 1⟩
def waiting : Fld := ⟨0, 0⟩
end F.VAULT_STAT
namespace F.LINK_CFG
def parent : Fld := ⟨27, 24⟩
def root : Fld := ⟨23, 16⟩
def pkg : Fld := ⟨7, 0⟩
end F.LINK_CFG
namespace F.SYS_TIME
def time : Fld := ⟨63, 0⟩
end F.SYS_TIME
namespace F.TIME_STAT
def ofs : Fld := ⟨63, 32⟩
def hops : Fld := ⟨31, 24⟩
def locked : Fld := ⟨0, 0⟩
end F.TIME_STAT
namespace F.LINK_PORT_CTL
def replay_hc : Fld := ⟨63, 48⟩
def replay_max : Fld := ⟨47, 40⟩
def lane_err_max : Fld := ⟨39, 32⟩
def spare_en : Fld := ⟨2, 2⟩
def time_tx : Fld := ⟨1, 1⟩
def enable : Fld := ⟨0, 0⟩
end F.LINK_PORT_CTL
namespace F.LINK_PORT_STAT
def peer_pkg : Fld := ⟨63, 56⟩
def peer_port : Fld := ⟨55, 52⟩
def lanes : Fld := ⟨51, 43⟩
def width : Fld := ⟨42, 39⟩
def state : Fld := ⟨2, 0⟩
end F.LINK_PORT_STAT
namespace F.LINK_PORT_ERR
def fec_corrected : Fld := ⟨63, 40⟩
def fec_uncorr : Fld := ⟨39, 28⟩
def crc : Fld := ⟨27, 16⟩
def replays : Fld := ⟨15, 0⟩
end F.LINK_PORT_ERR
namespace F.LINK_PORT_DELAY
def delay : Fld := ⟨31, 0⟩
end F.LINK_PORT_DELAY
namespace F.LINK_ROUTE
def valid : Fld := ⟨4, 4⟩
def port : Fld := ⟨3, 0⟩
end F.LINK_ROUTE
namespace F.BAR_CTL
def lead : Fld := ⟨63, 40⟩
def timeout : Fld := ⟨39, 16⟩
def count : Fld := ⟨15, 7⟩
def align : Fld := ⟨3, 3⟩
def hold : Fld := ⟨2, 2⟩
def arm : Fld := ⟨0, 0⟩
end F.BAR_CTL
namespace F.BAR_STAT
def arrivals : Fld := ⟨56, 48⟩
def align_refused : Fld := ⟨3, 3⟩
def late : Fld := ⟨2, 2⟩
def state : Fld := ⟨1, 0⟩
end F.BAR_STAT
namespace F.BAR_T
def t : Fld := ⟨63, 0⟩
end F.BAR_T
namespace F.BAR_SVC
def mask : Fld := ⟨63, 0⟩
end F.BAR_SVC
namespace F.SEC_STAT
def last_sensor : Fld := ⟨23, 16⟩
def last_class : Fld := ⟨11, 10⟩
def erase_pending : Fld := ⟨9, 9⟩
def locked : Fld := ⟨8, 8⟩
def hub_keys : Fld := ⟨5, 4⟩
def id_state : Fld := ⟨2, 0⟩
end F.SEC_STAT
namespace F.SEC_CMD
def go : Fld := ⟨63, 63⟩
def busy : Fld := ⟨62, 62⟩
def status : Fld := ⟨55, 48⟩
def op : Fld := ⟨7, 0⟩
end F.SEC_CMD
namespace F.SEC_CMD_SRC
def addr : Fld := ⟨39, 6⟩
end F.SEC_CMD_SRC
namespace F.SEC_CMD_DST
def addr : Fld := ⟨39, 6⟩
end F.SEC_CMD_DST
namespace F.SEC_ATT_MASK
def mask : Fld := ⟨63, 0⟩
end F.SEC_ATT_MASK
namespace F.SEC_NONCE
def nonce : Fld := ⟨63, 0⟩
end F.SEC_NONCE
namespace F.SEC_KEY_SEL
def commit : Fld := ⟨63, 63⟩
def clear : Fld := ⟨62, 62⟩
def refused : Fld := ⟨61, 61⟩
def valid : Fld := ⟨60, 60⟩
def slot : Fld := ⟨12, 0⟩
end F.SEC_KEY_SEL
namespace F.SEC_KEY_DATA
def data : Fld := ⟨63, 0⟩
end F.SEC_KEY_DATA
namespace F.SEC_ALARM
def count : Fld := ⟨63, 48⟩
def active : Fld := ⟨7, 7⟩
def cls : Fld := ⟨3, 2⟩
end F.SEC_ALARM
namespace F.THERM_CTL
def t_set : Fld := ⟨63, 48⟩
def t_outmax : Fld := ⟨47, 32⟩
def boost_max : Fld := ⟨31, 16⟩
def boost_en : Fld := ⟨1, 1⟩
def plant_en : Fld := ⟨0, 0⟩
end F.THERM_CTL
namespace F.PLANT_MODEL
def gain_k : Fld := ⟨63, 48⟩
def tau : Fld := ⟨47, 32⟩
def theta : Fld := ⟨31, 16⟩
def g_ff : Fld := ⟨15, 0⟩
end F.PLANT_MODEL
namespace F.PLANT_CTL
def kp : Fld := ⟨63, 52⟩
def ki : Fld := ⟨51, 40⟩
def slew : Fld := ⟨39, 30⟩
def u_min : Fld := ⟨29, 20⟩
def u_max : Fld := ⟨19, 10⟩
def pump_min : Fld := ⟨9, 0⟩
end F.PLANT_CTL
namespace F.PLANT_IO
def in_addr : Fld := ⟨63, 56⟩
def out_addr : Fld := ⟨55, 48⟩
def act_addr : Fld := ⟨47, 40⟩
def k_factor : Fld := ⟨39, 24⟩
def valve_man : Fld := ⟨19, 10⟩
def pump_man : Fld := ⟨9, 0⟩
end F.PLANT_IO
namespace F.PLANT_STAT
def t_in : Fld := ⟨63, 48⟩
def t_out : Fld := ⟨47, 32⟩
def flow : Fld := ⟨31, 20⟩
def valve : Fld := ⟨19, 10⟩
def pump : Fld := ⟨9, 0⟩
end F.PLANT_STAT
namespace F.PLANT_ERR
def model_dev : Fld := ⟨2, 2⟩
def flow_low : Fld := ⟨1, 1⟩
def sensor_lost : Fld := ⟨0, 0⟩
end F.PLANT_ERR
namespace F.THERM_PKG
def temp : Fld := ⟨15, 0⟩
end F.THERM_PKG
namespace F.PWR_CTL
def p_limit : Fld := ⟨63, 48⟩
def vf_margin : Fld := ⟨31, 24⟩
def avs_en : Fld := ⟨0, 0⟩
end F.PWR_CTL
namespace F.PWR_STAT
def p_in : Fld := ⟨63, 48⟩
def p_sched : Fld := ⟨47, 32⟩
def limit_events : Fld := ⟨31, 16⟩
def bus_err : Fld := ⟨15, 0⟩
end F.PWR_STAT
namespace F.PWR_SEQ
def attempts : Fld := ⟨15, 8⟩
def rail : Fld := ⟨7, 4⟩
def fail : Fld := ⟨0, 0⟩
end F.PWR_SEQ
namespace F.PWR_RAIL
def vset : Fld := ⟨63, 48⟩
def vout : Fld := ⟨47, 32⟩
def iout : Fld := ⟨31, 16⟩
def ilimit : Fld := ⟨15, 4⟩
def over_warn : Fld := ⟨3, 3⟩
def comm_err : Fld := ⟨2, 2⟩
def on : Fld := ⟨0, 0⟩
end F.PWR_RAIL
namespace F.SPORT_CTL
def to_sw : Fld := ⟨3, 3⟩
def an_en : Fld := ⟨2, 2⟩
def enable : Fld := ⟨0, 0⟩
end F.SPORT_CTL
namespace F.SPORT_STAT
def hub : Fld := ⟨8, 8⟩
def lanes_ok : Fld := ⟨7, 4⟩
def state : Fld := ⟨1, 0⟩
end F.SPORT_STAT
namespace F.SPORT_ERR
def fec_corrected : Fld := ⟨63, 40⟩
def fec_uncorr : Fld := ⟨39, 24⟩
def fcs : Fld := ⟨23, 8⟩
def sw_drop : Fld := ⟨7, 0⟩
end F.SPORT_ERR
namespace F.SPORT_MAC
def mac : Fld := ⟨47, 0⟩
end F.SPORT_MAC
namespace F.SPORT_GW
def mac : Fld := ⟨47, 0⟩
end F.SPORT_GW
namespace F.SPORT_IP4
def ip4 : Fld := ⟨31, 0⟩
end F.SPORT_IP4
namespace F.SPORT_IP6
def ip6 : Fld := ⟨63, 0⟩
end F.SPORT_IP6
namespace F.MGMT_CTL
def hub : Fld := ⟨4, 4⟩
def fec : Fld := ⟨3, 2⟩
def an_en : Fld := ⟨1, 1⟩
def enable : Fld := ⟨0, 0⟩
end F.MGMT_CTL
namespace F.MGMT_STAT
def hub_active : Fld := ⟨8, 8⟩
def state : Fld := ⟨1, 0⟩
end F.MGMT_STAT
namespace F.MGMT_MAC
def mac : Fld := ⟨47, 0⟩
end F.MGMT_MAC
namespace F.NET_RX
def tail : Fld := ⟨63, 52⟩
def head : Fld := ⟨51, 40⟩
def size_log2 : Fld := ⟨39, 36⟩
def addr : Fld := ⟨33, 0⟩
end F.NET_RX
namespace F.NET_TX
def tail : Fld := ⟨63, 52⟩
def head : Fld := ⟨51, 40⟩
def size_log2 : Fld := ⟨39, 36⟩
def addr : Fld := ⟨33, 0⟩
end F.NET_TX
namespace F.PCIE_CTL
def max_speed : Fld := ⟨7, 4⟩
def perst : Fld := ⟨1, 1⟩
def enable : Fld := ⟨0, 0⟩
end F.PCIE_CTL
namespace F.PCIE_STAT
def ur : Fld := ⟨15, 8⟩
def width : Fld := ⟨7, 5⟩
def speed : Fld := ⟨3, 1⟩
def up : Fld := ⟨0, 0⟩
end F.PCIE_STAT
namespace F.PCIE_WIN
def base : Fld := ⟨39, 20⟩
end F.PCIE_WIN
namespace F.PCIE_WINSZ
def mib : Fld := ⟨20, 0⟩
end F.PCIE_WINSZ
namespace F.PCIE_OB_ADDR
def addr : Fld := ⟨63, 0⟩
end F.PCIE_OB_ADDR
namespace F.PCIE_OB_CTL
def err : Fld := ⟨2, 2⟩
def cfg : Fld := ⟨1, 1⟩
end F.PCIE_OB_CTL
namespace F.PCIE_OB_DATA
def data : Fld := ⟨63, 0⟩
end F.PCIE_OB_DATA

/-- The register tables: field, bits, access, reset. Reserved fields have no row and read zero (R16). -/
def Reg.fields (v : Variant) : Reg → List FieldRow
  | .PKG_VARIANT => [⟨"array_layers", F.PKG_VARIANT.array_layers, .ro, (if v = .zlp440 then 4 else 2)⟩, ⟨"compute_stacks", F.PKG_VARIANT.compute_stacks, .ro, 4⟩, ⟨"part", F.PKG_VARIANT.part, .ro, (if v = .zlp440 then 0x0440 else 0x0240)⟩]
  | .FW_STAT => [⟨"version", F.FW_STAT.version, .ro, 0⟩, ⟨"svn", F.FW_STAT.svn, .ro, 0⟩, ⟨"source", F.FW_STAT.source, .ro, 0⟩, ⟨"rom_err", F.FW_STAT.rom_err, .ro, 0⟩]
  | .FW_UPDATE => [⟨"go", F.FW_UPDATE.go, .w1s, 0⟩, ⟨"busy", F.FW_UPDATE.busy, .ro, 0⟩, ⟨"err", F.FW_UPDATE.err, .ro, 0⟩, ⟨"addr", F.FW_UPDATE.addr, .rw, 0⟩]
  | .CORE_MAP c => [⟨"valid", F.CORE_MAP.valid, .ro, 1⟩, ⟨"phys", F.CORE_MAP.phys, .ro, (if c ≤ 7 then c else c + 2)⟩]
  | .CORE_STAT p => [⟨"fw_version", F.CORE_STAT.fw_version, .ro, 0⟩, ⟨"lc", F.CORE_STAT.lc, .ro, (coreResetLc p)⟩, ⟨"state", F.CORE_STAT.state, .ro, 0⟩]
  | .CORE_HANDOVER => [⟨"go", F.CORE_HANDOVER.go, .w1s, 0⟩, ⟨"busy", F.CORE_HANDOVER.busy, .ro, 0⟩, ⟨"err", F.CORE_HANDOVER.err, .ro, 0⟩, ⟨"to", F.CORE_HANDOVER.to_, .rw, 0⟩, ⟨"lc", F.CORE_HANDOVER.lc, .rw, 0⟩]
  | .LOUPE_CTL => [⟨"dropped", F.LOUPE_CTL.dropped, .rw, 0⟩, ⟨"pf", F.LOUPE_CTL.pf, .rw, 0⟩, ⟨"flits", F.LOUPE_CTL.flits, .rw, 0⟩, ⟨"samples", F.LOUPE_CTL.samples, .rw, 0⟩, ⟨"events", F.LOUPE_CTL.events, .rw, 0⟩, ⟨"trig_mode", F.LOUPE_CTL.trig_mode, .rw, 0⟩, ⟨"enable", F.LOUPE_CTL.enable, .rw, 0⟩]
  | .TIME_IN_STAMP => [⟨"time", F.TIME_IN_STAMP.time, .ro, 0⟩]
  | .REGION_CLK _ => [⟨"throttled", F.REGION_CLK.throttled, .ro, 0⟩, ⟨"fclk_cur", F.REGION_CLK.fclk_cur, .ro, 0x190⟩, ⟨"fclk_design", F.REGION_CLK.fclk_design, .rw, 0x640⟩]
  | .REGION_ARB_POP _ => [⟨"pop_barrier", F.REGION_ARB_POP.pop_barrier, .ro, 0⟩, ⟨"pop_bulk", F.REGION_ARB_POP.pop_bulk, .ro, 0⟩, ⟨"pop_response", F.REGION_ARB_POP.pop_response, .ro, 0⟩, ⟨"pop_request", F.REGION_ARB_POP.pop_request, .ro, 0⟩]
  | .CAL_REGION_CTL _ => [⟨"min_gap", F.CAL_REGION_CTL.min_gap, .rw, 0xE10⟩, ⟨"dt_cal", F.CAL_REGION_CTL.dt_cal, .rw, 0x40⟩, ⟨"kappa", F.CAL_REGION_CTL.kappa, .ro, 0⟩, ⟨"par", F.CAL_REGION_CTL.par, .rw, 1⟩, ⟨"hold", F.CAL_REGION_CTL.hold, .rw, 0⟩, ⟨"start", F.CAL_REGION_CTL.start, .w1s, 0⟩, ⟨"enable", F.CAL_REGION_CTL.enable, .rw, 1⟩]
  | .CAL_REGION_STAT _ => [⟨"running", F.CAL_REGION_STAT.running, .ro, 0⟩, ⟨"t_ref", F.CAL_REGION_STAT.t_ref, .ro, 0⟩, ⟨"t_now", F.CAL_REGION_STAT.t_now, .ro, 0⟩, ⟨"runs", F.CAL_REGION_STAT.runs, .ro, 0⟩]
  | .CAL_REGION_TLAST _ => [⟨"time", F.CAL_REGION_TLAST.time, .ro, 0⟩]
  | .REF_REGION_CTL _ => [⟨"weak_limit", F.REF_REGION_CTL.weak_limit, .rw, 0x20⟩, ⟨"scan_s", F.REF_REGION_CTL.scan_s, .rw, 0x40⟩, ⟨"max_ref", F.REF_REGION_CTL.max_ref, .rw, 2⟩, ⟨"enable", F.REF_REGION_CTL.enable, .rw, 1⟩]
  | .REGION_THERM _ => [⟨"temp", F.REGION_THERM.temp, .ro, 0⟩, ⟨"state", F.REGION_THERM.state, .ro, 1⟩, ⟨"in_window", F.REGION_THERM.in_window, .ro, 0⟩, ⟨"in_use", F.REGION_THERM.in_use, .ro, 0xF⟩, ⟨"broken", F.REGION_THERM.broken, .ro, 0⟩, ⟨"trips", F.REGION_THERM.trips, .rw, 0⟩]
  | .MR_CTL _ => [⟨"focus_clean", F.MR_CTL.focus_clean, .rw, 0x40⟩, ⟨"pause", F.MR_CTL.pause, .rw, 0⟩, ⟨"enable", F.MR_CTL.enable, .rw, 1⟩]
  | .MR_STAT _ => [⟨"runs", F.MR_STAT.runs, .rw, 0⟩, ⟨"void", F.MR_STAT.void, .rw, 0⟩, ⟨"confirmations", F.MR_STAT.confirmations, .rw, 0⟩, ⟨"mirror_faults", F.MR_STAT.mirror_faults, .rw, 0⟩, ⟨"unresolved", F.MR_STAT.unresolved, .rw, 0⟩]
  | .MR_BUF _ => [⟨"addr", F.MR_BUF.addr, .rw, 0⟩, ⟨"valid", F.MR_BUF.valid, .rw, 0⟩]
  | .MR_CONF _ => [⟨"conf", F.MR_CONF.conf, .ro, 0⟩]
  | .ARR_MAP _ n => [⟨"pending", F.ARR_MAP.pending, .ro, 0⟩, ⟨"phys", F.ARR_MAP.phys, .rw, (arrMapReset v n)⟩]
  | .ARR_STAT _ n => [⟨"esc_count", F.ARR_STAT.esc_count, .rw, 0⟩, ⟨"conv_fenced", F.ARR_STAT.conv_fenced, .ro, 0⟩, ⟨"mirror_free", F.ARR_STAT.mirror_free, .ro, (if arrayAbsent v n then 0 else 8)⟩, ⟨"inflight", F.ARR_STAT.inflight, .ro, 0⟩, ⟨"state", F.ARR_STAT.state, .ro, (arrStateReset v n)⟩]
  | .ARR_CTL _ => [⟨"map_reject", F.ARR_CTL.map_reject, .w1c, 0⟩, ⟨"ap_ceiling", F.ARR_CTL.ap_ceiling, .rw, 0⟩]
  | .ARR_APCNT _ _ => [⟨"planes", F.ARR_APCNT.planes, .rw, 0⟩]
  | .ARR_WIN_SEL _ => [⟨"phys", F.ARR_WIN_SEL.phys, .rw, 0⟩]
  | .CONV_MAP _ _ n => [⟨"pending", F.CONV_MAP.pending, .ro, 0⟩, ⟨"srv", F.CONV_MAP.srv, .rw, n⟩]
  | .CONV_STAT _ _ n => [⟨"ovr_count", F.CONV_STAT.ovr_count, .rw, 0⟩, ⟨"serves", F.CONV_STAT.serves, .ro, (if n ≤ 255 then n else 0x1FF)⟩, ⟨"fence", F.CONV_STAT.fence, .w1s, 0⟩, ⟨"role", F.CONV_STAT.role, .ro, (if n ≤ 255 then 0 else 1)⟩]
  | .CHK_WIN_SEL _ => [⟨"logical", F.CHK_WIN_SEL.logical, .rw, 0⟩]
  | .SP_STAT _ => [⟨"flags", F.SP_STAT.flags, .rw, 0⟩, ⟨"replays", F.SP_STAT.replays, .rw, 0⟩, ⟨"replay_pass", F.SP_STAT.replay_pass, .rw, 0⟩, ⟨"fallbacks", F.SP_STAT.fallbacks, .rw, 0⟩]
  | .SP_ERR _ => [⟨"reread", F.SP_ERR.reread, .rw, 0⟩, ⟨"row_gold", F.SP_ERR.row_gold, .rw, 0⟩, ⟨"outlier_bad", F.SP_ERR.outlier_bad, .rw, 0⟩, ⟨"store_mismatch", F.SP_ERR.store_mismatch, .rw, 0⟩, ⟨"gold_fail", F.SP_ERR.gold_fail, .rw, 0⟩]
  | .SP_ARR _ _ => [⟨"fb_total", F.SP_ARR.fb_total, .rw, 0⟩, ⟨"fb_window", F.SP_ARR.fb_window, .ro, 0⟩, ⟨"takeover_req", F.SP_ARR.takeover_req, .ro, 0⟩, ⟨"marked", F.SP_ARR.marked, .ro, 0⟩]
  | .GOLD_BASE _ _ => [⟨"addr", F.GOLD_BASE.addr, .rw, 0⟩, ⟨"valid", F.GOLD_BASE.valid, .rw, 0⟩]
  | .CONV_CAL _ _ _ => [⟨"o_now", F.CONV_CAL.o_now, .ro, 0⟩, ⟨"g_now", F.CONV_CAL.g_now, .ro, 0⟩, ⟨"o_fact", F.CONV_CAL.o_fact, .ro, 0⟩, ⟨"g_fact", F.CONV_CAL.g_fact, .ro, 0⟩, ⟨"fail_count", F.CONV_CAL.fail_count, .ro, 0⟩, ⟨"fail_consec", F.CONV_CAL.fail_consec, .ro, 0⟩, ⟨"last", F.CONV_CAL.last, .ro, 0⟩]
  | .CONV_SETLO _ _ _ => [⟨"g3", F.CONV_SETLO.g3, .ro, 0⟩, ⟨"o3", F.CONV_SETLO.o3, .ro, 0⟩, ⟨"g2", F.CONV_SETLO.g2, .ro, 0⟩, ⟨"o2", F.CONV_SETLO.o2, .ro, 0⟩, ⟨"g1", F.CONV_SETLO.g1, .ro, 0⟩, ⟨"o1", F.CONV_SETLO.o1, .ro, 0⟩, ⟨"g0", F.CONV_SETLO.g0, .ro, 0⟩, ⟨"o0", F.CONV_SETLO.o0, .ro, 0⟩]
  | .CONV_SETHI _ _ _ => [⟨"g4", F.CONV_SETHI.g4, .ro, 0⟩, ⟨"g5", F.CONV_SETHI.g5, .ro, 0⟩, ⟨"g6", F.CONV_SETHI.g6, .ro, 0⟩, ⟨"g7", F.CONV_SETHI.g7, .ro, 0⟩, ⟨"o4", F.CONV_SETHI.o4, .ro, 0⟩, ⟨"o5", F.CONV_SETHI.o5, .ro, 0⟩, ⟨"o6", F.CONV_SETHI.o6, .ro, 0⟩, ⟨"o7", F.CONV_SETHI.o7, .ro, 0⟩]
  | .ARR_CAL _ _ => [⟨"runs", F.ARR_CAL.runs, .ro, 0⟩, ⟨"fails", F.ARR_CAL.fails, .ro, 0⟩, ⟨"deferrals", F.ARR_CAL.deferrals, .ro, 0⟩]
  | .ARR_CAL_TIME _ _ => [⟨"time", F.ARR_CAL_TIME.time, .ro, 0⟩]
  | .ARR_MARGIN _ _ => [⟨"scans", F.ARR_MARGIN.scans, .ro, 0⟩, ⟨"flipped_rows", F.ARR_MARGIN.flipped_rows, .ro, 0⟩, ⟨"weak_rows", F.ARR_MARGIN.weak_rows, .ro, 0⟩, ⟨"weak_cells", F.ARR_MARGIN.weak_cells, .ro, 0⟩]
  | .ARR_WEAR _ _ => [⟨"writes", F.ARR_WEAR.writes, .ro, 0⟩, ⟨"rows", F.ARR_WEAR.rows, .ro, 0⟩]
  | .FAC_CTL _ => [⟨"entry", F.FAC_CTL.entry, .rw, 0⟩, ⟨"exc_restart", F.FAC_CTL.exc_restart, .rw, 1⟩, ⟨"stop", F.FAC_CTL.stop, .w1s, 0⟩, ⟨"run", F.FAC_CTL.run, .w1s, 0⟩, ⟨"reset", F.FAC_CTL.reset, .w1s, 0⟩]
  | .FAC_STAT _ => [⟨"steps", F.FAC_STAT.steps, .rw, 0⟩, ⟨"pc", F.FAC_STAT.pc, .ro, 0⟩, ⟨"bind_reject", F.FAC_STAT.bind_reject, .w1c, 0⟩, ⟨"dq_depth", F.FAC_STAT.dq_depth, .ro, 0⟩, ⟨"state", F.FAC_STAT.state, .ro, 0⟩]
  | .FAC_EXC _ => [⟨"count", F.FAC_EXC.count, .rw, 0⟩, ⟨"pc", F.FAC_EXC.pc, .ro, 0⟩, ⟨"valid", F.FAC_EXC.valid, .w1c, 0⟩, ⟨"slot", F.FAC_EXC.slot, .ro, 0⟩, ⟨"cause", F.FAC_EXC.cause, .ro, 0⟩]
  | .FAC_BIND pf => [⟨"lf", F.FAC_BIND.lf, .ro, (facLfReset pf)⟩, ⟨"prog_id", F.FAC_BIND.prog_id, .ro, 0⟩, ⟨"bound", F.FAC_BIND.bound, .rw, 0⟩, ⟨"service", F.FAC_BIND.service, .rw, 0⟩]
  | .FAC_LOAD_SRC _ => [⟨"addr", F.FAC_LOAD_SRC.addr, .rw, 0⟩]
  | .FAC_LOAD_CTL _ => [⟨"error", F.FAC_LOAD_CTL.error, .ro, 0⟩, ⟨"busy", F.FAC_LOAD_CTL.busy, .ro, 0⟩, ⟨"go", F.FAC_LOAD_CTL.go, .w1s, 0⟩]
  | .FAC_STALL _ => [⟨"array", F.FAC_STALL.array, .rw, 0⟩, ⟨"tensor", F.FAC_STALL.tensor, .rw, 0⟩, ⟨"movement", F.FAC_STALL.movement, .rw, 0⟩, ⟨"sync", F.FAC_STALL.sync, .rw, 0⟩, ⟨"register", F.FAC_STALL.register, .rw, 0⟩]
  | .FAC_ERR _ => [⟨"sram_ce", F.FAC_ERR.sram_ce, .rw, 0⟩, ⟨"sram_ue", F.FAC_ERR.sram_ue, .rw, 0⟩, ⟨"imem_ue", F.FAC_ERR.imem_ue, .rw, 0⟩]
  | .FAC_EPOCH _ => [⟨"ep_a", F.FAC_EPOCH.ep_a, .rw, 0⟩, ⟨"ep_b", F.FAC_EPOCH.ep_b, .rw, 0⟩, ⟨"staged", F.FAC_EPOCH.staged, .ro, 0⟩, ⟨"staged_epoch", F.FAC_EPOCH.staged_epoch, .ro, 0⟩]
  | .ACC16_CTL _ => [⟨"chunk", F.ACC16_CTL.chunk, .rw, 1⟩]
  | .TEN_STAT _ => [⟨"tmm", F.TEN_STAT.tmm, .rw, 0⟩, ⟨"reuse", F.TEN_STAT.reuse, .rw, 0⟩, ⟨"stall", F.TEN_STAT.stall, .rw, 0⟩]
  | .TEN_SHADOW _ => [⟨"enable", F.TEN_SHADOW.enable, .rw, 1⟩, ⟨"rot", F.TEN_SHADOW.rot, .ro, 0⟩, ⟨"checks", F.TEN_SHADOW.checks, .rw, 0⟩, ⟨"unresolved", F.TEN_SHADOW.unresolved, .rw, 0⟩, ⟨"shadow_faults", F.TEN_SHADOW.shadow_faults, .rw, 0⟩, ⟨"confirmations", F.TEN_SHADOW.confirmations, .rw, 0⟩, ⟨"sfaults", F.TEN_SHADOW.sfaults, .ro, 0⟩, ⟨"confirmed", F.TEN_SHADOW.confirmed, .ro, 0⟩]
  | .TEN_SIG_CTL _ => [⟨"truncated", F.TEN_SIG_CTL.truncated, .ro, 0⟩, ⟨"full", F.TEN_SIG_CTL.full, .w1c, 0⟩]
  | .ATT_STAT _ => [⟨"empty_rows", F.ATT_STAT.empty_rows, .rw, 0⟩, ⟨"sessions", F.ATT_STAT.sessions, .rw, 0⟩, ⟨"bad_desc", F.ATT_STAT.bad_desc, .rw, 0⟩]
  | .PRISM_STAT _ => [⟨"coded", F.PRISM_STAT.coded, .rw, 0⟩, ⟨"raw", F.PRISM_STAT.raw, .rw, 0⟩, ⟨"stall", F.PRISM_STAT.stall, .rw, 0⟩]
  | .PRISM_ERR _ => [⟨"poison_in", F.PRISM_ERR.poison_in, .rw, 0⟩, ⟨"crc", F.PRISM_ERR.crc, .rw, 0⟩, ⟨"overrun", F.PRISM_ERR.overrun, .rw, 0⟩, ⟨"underrun", F.PRISM_ERR.underrun, .rw, 0⟩, ⟨"code", F.PRISM_ERR.code, .rw, 0⟩, ⟨"table", F.PRISM_ERR.table, .rw, 0⟩, ⟨"header", F.PRISM_ERR.header, .rw, 0⟩]
  | .PRISM_LAST _ => [⟨"valid", F.PRISM_LAST.valid, .w1c, 0⟩, ⟨"class", F.PRISM_LAST.cls, .ro, 0⟩, ⟨"reader", F.PRISM_LAST.reader, .ro, 0⟩, ⟨"stream", F.PRISM_LAST.stream, .ro, 0⟩, ⟨"slot", F.PRISM_LAST.slot, .ro, 0⟩]
  | .PRISM_TBL_VALID _ _ => [⟨"valid", F.PRISM_TBL_VALID.valid, .ro, 0⟩]
  | .FMT_STAT _ => [⟨"drive_sat", F.FMT_STAT.drive_sat, .rw, 0⟩, ⟨"int_sat", F.FMT_STAT.int_sat, .rw, 0⟩, ⟨"nan_lost", F.FMT_STAT.nan_lost, .rw, 0⟩, ⟨"acc16_fallback", F.FMT_STAT.acc16_fallback, .rw, 0⟩, ⟨"t5_invalid", F.FMT_STAT.t5_invalid, .rw, 0⟩, ⟨"scale_invalid", F.FMT_STAT.scale_invalid, .rw, 0⟩]
  | .RT_CTL => [⟨"udp_port", F.RT_CTL.udp_port, .rw, 0xB7FC⟩, ⟨"sw_entries", F.RT_CTL.sw_entries, .rw, 0⟩, ⟨"asm_ms", F.RT_CTL.asm_ms, .rw, 0x64⟩, ⟨"enable", F.RT_CTL.enable, .rw, 0⟩]
  | .RT_STAT => [⟨"dropped", F.RT_STAT.dropped, .rw, 0⟩, ⟨"auth_fail", F.RT_STAT.auth_fail, .rw, 0⟩, ⟨"busy", F.RT_STAT.busy, .rw, 0⟩, ⟨"sw_reject", F.RT_STAT.sw_reject, .rw, 0⟩]
  | .RT_AREA => [⟨"addr", F.RT_AREA.addr, .rw, 0⟩]
  | .SMP_STAT => [⟨"samples", F.SMP_STAT.samples, .rw, 0⟩, ⟨"nan", F.SMP_STAT.nan, .rw, 0⟩, ⟨"failed", F.SMP_STAT.failed, .rw, 0⟩]
  | .SVC_CFG _ => [⟨"deadline", F.SVC_CFG.deadline, .rw, 0⟩, ⟨"epoch_pol", F.SVC_CFG.epoch_pol, .rw, 0⟩, ⟨"hub", F.SVC_CFG.hub, .rw, 0⟩, ⟨"outlier_kc", F.SVC_CFG.outlier_kc, .rw, 0⟩, ⟨"spec_limit", F.SVC_CFG.spec_limit, .rw, 0⟩, ⟨"vocab", F.SVC_CFG.vocab, .rw, 0⟩, ⟨"prefill_chunk", F.SVC_CFG.prefill_chunk, .rw, 1⟩, ⟨"replays", F.SVC_CFG.replays, .rw, 2⟩, ⟨"pw_limit", F.SVC_CFG.pw_limit, .rw, 0x100⟩, ⟨"max_batch", F.SVC_CFG.max_batch, .rw, 1⟩]
  | .SVC_DL _ => [⟨"first_us", F.SVC_DL.first_us, .rw, 0⟩, ⟨"token_us", F.SVC_DL.token_us, .rw, 0⟩]
  | .SVC_LEN _ => [⟨"max_len", F.SVC_LEN.max_len, .rw, 0x800⟩, ⟨"max_prompt_bytes", F.SVC_LEN.max_prompt_bytes, .rw, 0x1000⟩]
  | .SVC_COST _ => [⟨"addr", F.SVC_COST.addr, .rw, 0⟩]
  | .SVC_TOKS _ => [⟨"bos_en", F.SVC_TOKS.bos_en, .rw, 0⟩, ⟨"stop1_en", F.SVC_TOKS.stop1_en, .rw, 0⟩, ⟨"stop0_en", F.SVC_TOKS.stop0_en, .rw, 0⟩, ⟨"bos", F.SVC_TOKS.bos, .rw, 0⟩, ⟨"stop1", F.SVC_TOKS.stop1, .rw, 0⟩, ⟨"stop0", F.SVC_TOKS.stop0, .rw, 0⟩]
  | .SVC_MISS _ => [⟨"misses", F.SVC_MISS.misses, .rw, 0⟩, ⟨"misses_budget", F.SVC_MISS.misses_budget, .rw, 0⟩, ⟨"refused", F.SVC_MISS.refused, .rw, 0⟩, ⟨"preempted", F.SVC_MISS.preempted, .rw, 0⟩]
  | .SVC_CTL _ => [⟨"readmit", F.SVC_CTL.readmit, .w1s, 0⟩, ⟨"stop", F.SVC_CTL.stop, .rw, 0⟩, ⟨"enable", F.SVC_CTL.enable, .rw, 0⟩]
  | .SVC_STAT _ => [⟨"first_bound", F.SVC_STAT.first_bound, .ro, 0⟩, ⟨"step_bound", F.SVC_STAT.step_bound, .ro, 0⟩, ⟨"reason", F.SVC_STAT.reason, .ro, 0⟩, ⟨"void", F.SVC_STAT.void, .ro, 0⟩, ⟨"busy", F.SVC_STAT.busy, .ro, 0⟩, ⟨"admitted", F.SVC_STAT.admitted, .ro, 0⟩]
  | .SVCQ _ => [⟨"dropped", F.SVCQ.dropped, .rw, 0⟩, ⟨"tail", F.SVCQ.tail, .ro, 0⟩, ⟨"head", F.SVCQ.head, .rw, 0⟩]
  | .BUD_CFG _ => [⟨"rate", F.BUD_CFG.rate, .rw, 0xFFFFFFFF⟩, ⟨"burst", F.BUD_CFG.burst, .rw, 0x1000⟩]
  | .BUD_STAT _ => [⟨"level", F.BUD_STAT.level, .ro, 0x100000⟩, ⟨"charged", F.BUD_STAT.charged, .rw, 0⟩]
  | .KV_POOL_BASE _ => [⟨"addr", F.KV_POOL_BASE.addr, .rw, 0⟩]
  | .KV_POOL_DESC _ => [⟨"addr", F.KV_POOL_DESC.addr, .rw, 0⟩]
  | .KV_POOL_CFG _ => [⟨"pages", F.KV_POOL_CFG.pages, .rw, 0⟩, ⟨"pg_units", F.KV_POOL_CFG.pg_units, .rw, 0⟩, ⟨"pt_log2", F.KV_POOL_CFG.pt_log2, .rw, 4⟩, ⟨"share_en", F.KV_POOL_CFG.share_en, .rw, 0⟩, ⟨"seal_en", F.KV_POOL_CFG.seal_en, .rw, 0⟩, ⟨"enable", F.KV_POOL_CFG.enable, .rw, 0⟩]
  | .KV_POOL_STAT _ => [⟨"free", F.KV_POOL_STAT.free, .ro, 0⟩, ⟨"bad_write", F.KV_POOL_STAT.bad_write, .rw, 0⟩, ⟨"cow", F.KV_POOL_STAT.cow, .rw, 0⟩, ⟨"seal_skip", F.KV_POOL_STAT.seal_skip, .rw, 0⟩, ⟨"cfg_err", F.KV_POOL_STAT.cfg_err, .w1c, 0⟩, ⟨"ready", F.KV_POOL_STAT.ready, .ro, 0⟩]
  | .PFX_STAT => [⟨"hits", F.PFX_STAT.hits, .rw, 0⟩, ⟨"misses", F.PFX_STAT.misses, .rw, 0⟩, ⟨"evictions", F.PFX_STAT.evictions, .rw, 0⟩, ⟨"entries", F.PFX_STAT.entries, .ro, 0⟩]
  | .KV_POOL_STRIDE _ => [⟨"pos_stride", F.KV_POOL_STRIDE.pos_stride, .rw, 0⟩]
  | .NW_CTL _ => [⟨"warmup", F.NW_CTL.warmup, .rw, 0x10⟩, ⟨"alpha", F.NW_CTL.alpha, .rw, 3⟩, ⟨"down", F.NW_CTL.down, .rw, 2⟩, ⟨"up", F.NW_CTL.up, .rw, 2⟩, ⟨"clear", F.NW_CTL.clear, .w1s, 0⟩, ⟨"grad_en", F.NW_CTL.grad_en, .rw, 1⟩, ⟨"enable", F.NW_CTL.enable, .rw, 1⟩]
  | .NW_STAT _ => [⟨"jumps", F.NW_STAT.jumps, .rw, 0⟩, ⟨"grad_skips", F.NW_STAT.grad_skips, .rw, 0⟩, ⟨"reseeds", F.NW_STAT.reseeds, .rw, 0⟩, ⟨"dropped", F.NW_STAT.dropped, .rw, 0⟩]
  | .KV_CODE _ _ _ => [⟨"word", F.KV_CODE.word, .rw, 0⟩]
  | .PRISM_RANGE_BASE _ _ => [⟨"enable", F.PRISM_RANGE_BASE.enable, .rw, 0⟩, ⟨"addr", F.PRISM_RANGE_BASE.addr, .rw, 0⟩]
  | .PRISM_RANGE_SLOTS _ _ => [⟨"slots", F.PRISM_RANGE_SLOTS.slots, .rw, 0⟩]
  | .PRISM_RANGE_STAT _ => [⟨"skipped", F.PRISM_RANGE_STAT.skipped, .rw, 0⟩, ⟨"cfg_err", F.PRISM_RANGE_STAT.cfg_err, .w1c, 0⟩]
  | .LD_CTL => [⟨"net_port", F.LD_CTL.net_port, .rw, 0xB7FD⟩, ⟨"max_wr", F.LD_CTL.max_wr, .rw, 0x2710⟩, ⟨"enable", F.LD_CTL.enable, .rw, 0⟩]
  | .LD_RING => [⟨"tail", F.LD_RING.tail, .rw, 0⟩, ⟨"head", F.LD_RING.head, .ro, 0⟩, ⟨"size_log2", F.LD_RING.size_log2, .rw, 0⟩, ⟨"addr", F.LD_RING.addr, .rw, 0⟩]
  | .LD_STAT => [⟨"arrays", F.LD_STAT.arrays, .rw, 0⟩, ⟨"errors", F.LD_STAT.errors, .rw, 0⟩, ⟨"last_pkg", F.LD_STAT.last_pkg, .ro, 0⟩, ⟨"last_err", F.LD_STAT.last_err, .ro, 0⟩]
  | .EP_CTL _ => [⟨"target", F.EP_CTL.target, .rw, 0⟩, ⟨"nw_clear", F.EP_CTL.nw_clear, .rw, 0⟩, ⟨"switch", F.EP_CTL.switch, .w1s, 0⟩]
  | .EP_COST _ => [⟨"addr", F.EP_COST.addr, .rw, 0⟩]
  | .EP_STAT _ => [⟨"cur", F.EP_STAT.cur, .ro, 0⟩, ⟨"old", F.EP_STAT.old, .ro, 0⟩, ⟨"live_old", F.EP_STAT.live_old, .ro, 0⟩, ⟨"err", F.EP_STAT.err, .ro, 0⟩, ⟨"draining", F.EP_STAT.draining, .ro, 0⟩, ⟨"busy", F.EP_STAT.busy, .ro, 0⟩]
  | .LF_MAP n => [⟨"valid", F.LF_MAP.valid, .rw, 1⟩, ⟨"refused", F.LF_MAP.refused, .w1c, 0⟩, ⟨"pf", F.LF_MAP.pf, .rw, (n / 16 / 12 * 204 + n / 16 % 12 * 17 + n % 16)⟩]
  | .EV_SRC _ => [⟨"coal_time", F.EV_SRC.coal_time, .rw, 0⟩, ⟨"coal_count", F.EV_SRC.coal_count, .rw, 1⟩, ⟨"pend_count", F.EV_SRC.pend_count, .ro, 0⟩, ⟨"target", F.EV_SRC.target, .rw, 0⟩, ⟨"class", F.EV_SRC.cls, .rw, 0⟩, ⟨"in_service", F.EV_SRC.in_service, .ro, 0⟩, ⟨"pending", F.EV_SRC.pending, .ro, 0⟩, ⟨"enable", F.EV_SRC.enable, .rw, 0⟩]
  | .EV_PRIV _ _ => [⟨"coal_time", F.EV_PRIV.coal_time, .rw, 0⟩, ⟨"coal_count", F.EV_PRIV.coal_count, .rw, 1⟩, ⟨"pend_count", F.EV_PRIV.pend_count, .ro, 0⟩, ⟨"class", F.EV_PRIV.cls, .rw, 0⟩, ⟨"in_service", F.EV_PRIV.in_service, .ro, 0⟩, ⟨"pending", F.EV_PRIV.pending, .ro, 0⟩, ⟨"enable", F.EV_PRIV.enable, .rw, 0⟩]
  | .EV_MODE _ => [⟨"vbase", F.EV_MODE.vbase, .rw, 0⟩, ⟨"vec_fast", F.EV_MODE.vec_fast, .rw, 0⟩, ⟨"vec_normal", F.EV_MODE.vec_normal, .rw, 0⟩]
  | .EV_CLAIM _ => [⟨"number", F.EV_CLAIM.number, .ro, 0x1FFF⟩]
  | .EV_CLAIMF _ => [⟨"number", F.EV_CLAIMF.number, .ro, 0x1FFF⟩]
  | .EV_COMPLETE _ => [⟨"number", F.EV_COMPLETE.number, .wo, 0⟩]
  | .EV_RING _ => [⟨"lost", F.EV_RING.lost, .rw, 0⟩, ⟨"tail", F.EV_RING.tail, .ro, 0⟩, ⟨"head", F.EV_RING.head, .rw, 0⟩]
  | .EV_STAT _ => [⟨"claims", F.EV_STAT.claims, .rw, 0⟩, ⟨"spurious", F.EV_STAT.spurious, .rw, 0⟩, ⟨"wakes", F.EV_STAT.wakes, .rw, 0⟩]
  | .EV_RAISE => [⟨"priv", F.EV_RAISE.priv, .wo, 0⟩, ⟨"lc", F.EV_RAISE.lc, .wo, 0⟩, ⟨"number", F.EV_RAISE.number, .wo, 0⟩]
  | .FLT_STAT => [⟨"fences", F.FLT_STAT.fences, .rw, 0⟩, ⟨"hub_repair", F.FLT_STAT.hub_repair, .rw, 0⟩, ⟨"hbm_ce", F.FLT_STAT.hbm_ce, .rw, 0⟩, ⟨"map_full", F.FLT_STAT.map_full, .ro, 0⟩, ⟨"fence_err", F.FLT_STAT.fence_err, .w1c, 0⟩]
  | .FLT_INJ_SEL => [⟨"sel", F.FLT_INJ_SEL.sel, .rw, 0⟩]
  | .FLT_INJ_CTL => [⟨"arg", F.FLT_INJ_CTL.arg, .rw, 0⟩, ⟨"kind", F.FLT_INJ_CTL.kind, .rw, 0⟩, ⟨"allowed", F.FLT_INJ_CTL.allowed, .ro, 0⟩, ⟨"refused", F.FLT_INJ_CTL.refused, .w1c, 0⟩, ⟨"done", F.FLT_INJ_CTL.done, .w1c, 0⟩, ⟨"dry", F.FLT_INJ_CTL.dry, .rw, 1⟩, ⟨"arm", F.FLT_INJ_CTL.arm, .w1s, 0⟩]
  | .FLT_CPER_RING => [⟨"tail", F.FLT_CPER_RING.tail, .ro, 0⟩, ⟨"head", F.FLT_CPER_RING.head, .rw, 0⟩, ⟨"lost", F.FLT_CPER_RING.lost, .rw, 0⟩, ⟨"addr", F.FLT_CPER_RING.addr, .rw, 0⟩]
  | .FLT_EXPORT => [⟨"enable", F.FLT_EXPORT.enable, .rw, 0⟩, ⟨"auto_release", F.FLT_EXPORT.auto_release, .rw, 1⟩, ⟨"port", F.FLT_EXPORT.port, .rw, 0⟩, ⟨"resend_idx", F.FLT_EXPORT.resend_idx, .rw, 0⟩, ⟨"resend", F.FLT_EXPORT.resend, .w1s, 0⟩]
  | .FLT_EXPORT_IP _ => [⟨"addr", F.FLT_EXPORT_IP.addr, .rw, 0⟩]
  | .VAULT_STAT => [⟨"gen", F.VAULT_STAT.gen, .ro, 0⟩, ⟨"copy_dies", F.VAULT_STAT.copy_dies, .ro, 0b0111⟩, ⟨"degraded", F.VAULT_STAT.degraded, .ro, 0⟩, ⟨"busy", F.VAULT_STAT.busy, .ro, 0⟩, ⟨"waiting", F.VAULT_STAT.waiting, .ro, 0⟩]
  | .LINK_CFG => [⟨"parent", F.LINK_CFG.parent, .rw, 0xF⟩, ⟨"root", F.LINK_CFG.root, .rw, 0⟩, ⟨"pkg", F.LINK_CFG.pkg, .rw, 0⟩]
  | .SYS_TIME => [⟨"time", F.SYS_TIME.time, .ro, 0⟩]
  | .TIME_STAT => [⟨"ofs", F.TIME_STAT.ofs, .ro, 0⟩, ⟨"hops", F.TIME_STAT.hops, .ro, 0⟩, ⟨"locked", F.TIME_STAT.locked, .ro, 0⟩]
  | .LINK_PORT_CTL _ => [⟨"replay_hc", F.LINK_PORT_CTL.replay_hc, .rw, 0x400⟩, ⟨"replay_max", F.LINK_PORT_CTL.replay_max, .rw, 8⟩, ⟨"lane_err_max", F.LINK_PORT_CTL.lane_err_max, .rw, 0x40⟩, ⟨"spare_en", F.LINK_PORT_CTL.spare_en, .rw, 1⟩, ⟨"time_tx", F.LINK_PORT_CTL.time_tx, .rw, 1⟩, ⟨"enable", F.LINK_PORT_CTL.enable, .rw, 0⟩]
  | .LINK_PORT_STAT _ => [⟨"peer_pkg", F.LINK_PORT_STAT.peer_pkg, .ro, 0⟩, ⟨"peer_port", F.LINK_PORT_STAT.peer_port, .ro, 0⟩, ⟨"lanes", F.LINK_PORT_STAT.lanes, .ro, 0⟩, ⟨"width", F.LINK_PORT_STAT.width, .ro, 0⟩, ⟨"state", F.LINK_PORT_STAT.state, .ro, 0⟩]
  | .LINK_PORT_ERR _ => [⟨"fec_corrected", F.LINK_PORT_ERR.fec_corrected, .rw, 0⟩, ⟨"fec_uncorr", F.LINK_PORT_ERR.fec_uncorr, .rw, 0⟩, ⟨"crc", F.LINK_PORT_ERR.crc, .rw, 0⟩, ⟨"replays", F.LINK_PORT_ERR.replays, .rw, 0⟩]
  | .LINK_PORT_DELAY _ => [⟨"delay", F.LINK_PORT_DELAY.delay, .ro, 0⟩]
  | .LINK_ROUTE _ => [⟨"valid", F.LINK_ROUTE.valid, .rw, 0⟩, ⟨"port", F.LINK_ROUTE.port, .rw, 0⟩]
  | .BAR_CTL => [⟨"lead", F.BAR_CTL.lead, .rw, 0x2710⟩, ⟨"timeout", F.BAR_CTL.timeout, .rw, 0xF4240⟩, ⟨"count", F.BAR_CTL.count, .rw, 0⟩, ⟨"align", F.BAR_CTL.align, .rw, 0⟩, ⟨"hold", F.BAR_CTL.hold, .rw, 0⟩, ⟨"arm", F.BAR_CTL.arm, .w1s, 0⟩]
  | .BAR_STAT => [⟨"arrivals", F.BAR_STAT.arrivals, .ro, 0⟩, ⟨"align_refused", F.BAR_STAT.align_refused, .w1c, 0⟩, ⟨"late", F.BAR_STAT.late, .w1c, 0⟩, ⟨"state", F.BAR_STAT.state, .ro, 0⟩]
  | .BAR_T => [⟨"t", F.BAR_T.t, .ro, 0⟩]
  | .BAR_SVC => [⟨"mask", F.BAR_SVC.mask, .rw, 0⟩]
  | .SEC_STAT => [⟨"last_sensor", F.SEC_STAT.last_sensor, .ro, 0xFF⟩, ⟨"last_class", F.SEC_STAT.last_class, .ro, 0⟩, ⟨"erase_pending", F.SEC_STAT.erase_pending, .ro, 0⟩, ⟨"locked", F.SEC_STAT.locked, .ro, 0⟩, ⟨"hub_keys", F.SEC_STAT.hub_keys, .ro, 0⟩, ⟨"id_state", F.SEC_STAT.id_state, .ro, 0⟩]
  | .SEC_CMD => [⟨"go", F.SEC_CMD.go, .w1s, 0⟩, ⟨"busy", F.SEC_CMD.busy, .ro, 0⟩, ⟨"status", F.SEC_CMD.status, .ro, 0⟩, ⟨"op", F.SEC_CMD.op, .rw, 0⟩]
  | .SEC_CMD_SRC => [⟨"addr", F.SEC_CMD_SRC.addr, .rw, 0⟩]
  | .SEC_CMD_DST => [⟨"addr", F.SEC_CMD_DST.addr, .rw, 0⟩]
  | .SEC_ATT_MASK => [⟨"mask", F.SEC_ATT_MASK.mask, .rw, 0⟩]
  | .SEC_NONCE _ => [⟨"nonce", F.SEC_NONCE.nonce, .ro, 0⟩]
  | .SEC_KEY_SEL => [⟨"commit", F.SEC_KEY_SEL.commit, .w1s, 0⟩, ⟨"clear", F.SEC_KEY_SEL.clear, .w1s, 0⟩, ⟨"refused", F.SEC_KEY_SEL.refused, .w1c, 0⟩, ⟨"valid", F.SEC_KEY_SEL.valid, .ro, 0⟩, ⟨"slot", F.SEC_KEY_SEL.slot, .rw, 0⟩]
  | .SEC_KEY_DATA _ => [⟨"data", F.SEC_KEY_DATA.data, .wo, 0⟩]
  | .SEC_ALARM n => [⟨"count", F.SEC_ALARM.count, .rw, 0⟩, ⟨"active", F.SEC_ALARM.active, .ro, 0⟩, ⟨"class", F.SEC_ALARM.cls, .rws, (alarmClassReset n)⟩]
  | .THERM_CTL => [⟨"t_set", F.THERM_CTL.t_set, .rw, 0x460⟩, ⟨"t_outmax", F.THERM_CTL.t_outmax, .rw, 0x2D0⟩, ⟨"boost_max", F.THERM_CTL.boost_max, .rw, 0x5A0⟩, ⟨"boost_en", F.THERM_CTL.boost_en, .rw, 1⟩, ⟨"plant_en", F.THERM_CTL.plant_en, .rw, 0⟩]
  | .PLANT_MODEL => [⟨"gain_k", F.PLANT_MODEL.gain_k, .rw, 0⟩, ⟨"tau", F.PLANT_MODEL.tau, .rw, 0⟩, ⟨"theta", F.PLANT_MODEL.theta, .rw, 0⟩, ⟨"g_ff", F.PLANT_MODEL.g_ff, .rw, 0⟩]
  | .PLANT_CTL => [⟨"kp", F.PLANT_CTL.kp, .rw, 0x66⟩, ⟨"ki", F.PLANT_CTL.ki, .rw, 0xCD⟩, ⟨"slew", F.PLANT_CTL.slew, .rw, 0x200⟩, ⟨"u_min", F.PLANT_CTL.u_min, .rw, 0x66⟩, ⟨"u_max", F.PLANT_CTL.u_max, .rw, 0x3FF⟩, ⟨"pump_min", F.PLANT_CTL.pump_min, .rw, 0x200⟩]
  | .PLANT_IO => [⟨"in_addr", F.PLANT_IO.in_addr, .rw, 0⟩, ⟨"out_addr", F.PLANT_IO.out_addr, .rw, 0⟩, ⟨"act_addr", F.PLANT_IO.act_addr, .rw, 0⟩, ⟨"k_factor", F.PLANT_IO.k_factor, .rw, 0⟩, ⟨"valve_man", F.PLANT_IO.valve_man, .rw, 0x3FF⟩, ⟨"pump_man", F.PLANT_IO.pump_man, .rw, 0x3FF⟩]
  | .PLANT_STAT => [⟨"t_in", F.PLANT_STAT.t_in, .ro, 0⟩, ⟨"t_out", F.PLANT_STAT.t_out, .ro, 0⟩, ⟨"flow", F.PLANT_STAT.flow, .ro, 0⟩, ⟨"valve", F.PLANT_STAT.valve, .ro, 0x3FF⟩, ⟨"pump", F.PLANT_STAT.pump, .ro, 0x3FF⟩]
  | .PLANT_ERR => [⟨"model_dev", F.PLANT_ERR.model_dev, .w1c, 0⟩, ⟨"flow_low", F.PLANT_ERR.flow_low, .w1c, 0⟩, ⟨"sensor_lost", F.PLANT_ERR.sensor_lost, .w1c, 0⟩]
  | .THERM_PKG _ => [⟨"temp", F.THERM_PKG.temp, .ro, 0⟩]
  | .PWR_CTL => [⟨"p_limit", F.PWR_CTL.p_limit, .rw, (if v = .zlp440 then 0x0898 else 0x076C)⟩, ⟨"vf_margin", F.PWR_CTL.vf_margin, .rw, 0⟩, ⟨"avs_en", F.PWR_CTL.avs_en, .rw, 1⟩]
  | .PWR_STAT => [⟨"p_in", F.PWR_STAT.p_in, .ro, 0⟩, ⟨"p_sched", F.PWR_STAT.p_sched, .ro, 0⟩, ⟨"limit_events", F.PWR_STAT.limit_events, .rw, 0⟩, ⟨"bus_err", F.PWR_STAT.bus_err, .rw, 0⟩]
  | .PWR_SEQ => [⟨"attempts", F.PWR_SEQ.attempts, .ro, 0⟩, ⟨"rail", F.PWR_SEQ.rail, .ro, 0xF⟩, ⟨"fail", F.PWR_SEQ.fail, .w1c, 0⟩]
  | .PWR_RAIL n => [⟨"vset", F.PWR_RAIL.vset, .ro, (railNominal n)⟩, ⟨"vout", F.PWR_RAIL.vout, .ro, 0⟩, ⟨"iout", F.PWR_RAIL.iout, .ro, 0⟩, ⟨"ilimit", F.PWR_RAIL.ilimit, .ro, (railLimit n)⟩, ⟨"over_warn", F.PWR_RAIL.over_warn, .ro, 0⟩, ⟨"comm_err", F.PWR_RAIL.comm_err, .ro, 0⟩, ⟨"on", F.PWR_RAIL.on, .ro, 0⟩]
  | .SPORT_CTL _ => [⟨"to_sw", F.SPORT_CTL.to_sw, .rw, 1⟩, ⟨"an_en", F.SPORT_CTL.an_en, .rw, 1⟩, ⟨"enable", F.SPORT_CTL.enable, .rw, 0⟩]
  | .SPORT_STAT q => [⟨"hub", F.SPORT_STAT.hub, .ro, q⟩, ⟨"lanes_ok", F.SPORT_STAT.lanes_ok, .ro, 0⟩, ⟨"state", F.SPORT_STAT.state, .ro, 0⟩]
  | .SPORT_ERR _ => [⟨"fec_corrected", F.SPORT_ERR.fec_corrected, .rw, 0⟩, ⟨"fec_uncorr", F.SPORT_ERR.fec_uncorr, .rw, 0⟩, ⟨"fcs", F.SPORT_ERR.fcs, .rw, 0⟩, ⟨"sw_drop", F.SPORT_ERR.sw_drop, .rw, 0⟩]
  | .SPORT_MAC _ => [⟨"mac", F.SPORT_MAC.mac, .rw, 0⟩]
  | .SPORT_GW _ => [⟨"mac", F.SPORT_GW.mac, .rw, 0⟩]
  | .SPORT_IP4 _ => [⟨"ip4", F.SPORT_IP4.ip4, .rw, 0⟩]
  | .SPORT_IP6 _ _ => [⟨"ip6", F.SPORT_IP6.ip6, .rw, 0⟩]
  | .MGMT_CTL => [⟨"hub", F.MGMT_CTL.hub, .rw, 0⟩, ⟨"fec", F.MGMT_CTL.fec, .rw, 2⟩, ⟨"an_en", F.MGMT_CTL.an_en, .rw, 1⟩, ⟨"enable", F.MGMT_CTL.enable, .rw, 0⟩]
  | .MGMT_STAT => [⟨"hub_active", F.MGMT_STAT.hub_active, .ro, 0⟩, ⟨"state", F.MGMT_STAT.state, .ro, 0⟩]
  | .MGMT_MAC => [⟨"mac", F.MGMT_MAC.mac, .rw, 0⟩]
  | .NET_RX _ => [⟨"tail", F.NET_RX.tail, .ro, 0⟩, ⟨"head", F.NET_RX.head, .rw, 0⟩, ⟨"size_log2", F.NET_RX.size_log2, .rw, 0⟩, ⟨"addr", F.NET_RX.addr, .rw, 0⟩]
  | .NET_TX _ => [⟨"tail", F.NET_TX.tail, .rw, 0⟩, ⟨"head", F.NET_TX.head, .ro, 0⟩, ⟨"size_log2", F.NET_TX.size_log2, .rw, 0⟩, ⟨"addr", F.NET_TX.addr, .rw, 0⟩]
  | .PCIE_CTL _ => [⟨"max_speed", F.PCIE_CTL.max_speed, .rw, 6⟩, ⟨"perst", F.PCIE_CTL.perst, .rw, 1⟩, ⟨"enable", F.PCIE_CTL.enable, .rw, 0⟩]
  | .PCIE_STAT _ => [⟨"ur", F.PCIE_STAT.ur, .rw, 0⟩, ⟨"width", F.PCIE_STAT.width, .ro, 0⟩, ⟨"speed", F.PCIE_STAT.speed, .ro, 0⟩, ⟨"up", F.PCIE_STAT.up, .ro, 0⟩]
  | .PCIE_WIN _ => [⟨"base", F.PCIE_WIN.base, .rw, 0⟩]
  | .PCIE_WINSZ _ => [⟨"mib", F.PCIE_WINSZ.mib, .rw, 0⟩]
  | .PCIE_OB_ADDR _ => [⟨"addr", F.PCIE_OB_ADDR.addr, .rw, 0⟩]
  | .PCIE_OB_CTL _ => [⟨"err", F.PCIE_OB_CTL.err, .w1c, 0⟩, ⟨"cfg", F.PCIE_OB_CTL.cfg, .rw, 0⟩]
  | .PCIE_OB_DATA _ => [⟨"data", F.PCIE_OB_DATA.data, .rw, 0⟩]

end Sys2Proof.Machine
end

