-- ==== Sys2Proof/Machine/Tab.lean ====
section
/-! DEFINITION. Operations on sparse tables, byte memories and bit fields of numbers. -/

namespace Sys2Proof.Machine

/-- The entry of a key, if the table lists one. -/
def Tab.find? {α : Type} : Tab α → Nat → Option α
  | [], _ => none
  | (k, v) :: t, n => if k = n then some v else Tab.find? t n

/-- The value of a key, `d` where the table lists none. -/
def Tab.getD {α : Type} (t : Tab α) (n : Nat) (d : α) : α := (Tab.find? t n).getD d

/-- The table without the key. -/
def Tab.erase {α : Type} : Tab α → Nat → Tab α
  | [], _ => []
  | (k, v) :: t, n => if k = n then Tab.erase t n else (k, v) :: Tab.erase t n

/-- An entry put at its place in the order of keys. -/
def Tab.insert {α : Type} : Tab α → Nat → α → Tab α
  | [], n, x => [(n, x)]
  | (k, v) :: t, n, x => if n < k then (n, x) :: (k, v) :: t else (k, v) :: Tab.insert t n x

/-- The table with the key bound to `x`. -/
def Tab.set {α : Type} (t : Tab α) (n : Nat) (x : α) : Tab α := Tab.insert (Tab.erase t n) n x

/-- The table with the key bound to `x`, and no entry where `x` is the default. -/
def Tab.put {α : Type} [DecidableEq α] (t : Tab α) (n : Nat) (d x : α) : Tab α :=
  if x = d then Tab.erase t n else Tab.insert (Tab.erase t n) n x

/-- The keys are strictly rising. -/
def Tab.sorted {α : Type} : Tab α → Bool
  | [] => true
  | [_] => true
  | (k, _) :: (m, w) :: t => decide (k < m) && Tab.sorted ((m, w) :: t)

/-- Bits `hi` down to `lo` of a number. -/
def bits (x hi lo : Nat) : Nat := x / 2 ^ lo % 2 ^ (hi + 1 - lo)

/-- `x` with bits `hi` down to `lo` replaced by the low bits of `v`. -/
def setBits (x hi lo v : Nat) : Nat :=
  x / 2 ^ (hi + 1) * 2 ^ (hi + 1) + v % 2 ^ (hi + 1 - lo) * 2 ^ lo + x % 2 ^ lo

/-- One bit of a number. -/
def bitAt (x i : Nat) : Bool := x / 2 ^ i % 2 = 1

/-- 0 or 1. -/
def b2n (b : Bool) : Nat := if b then 1 else 0

/-- The value of an `n`-bit two's complement code. -/
def sext (n x : Nat) : Int := if x % 2 ^ n < 2 ^ (n - 1) then (x % 2 ^ n : Nat) else (x % 2 ^ n : Nat) - (2 ^ n : Nat)

/-- The `n`-bit two's complement code of an integer. -/
def toCode (n : Nat) (i : Int) : Nat := (i % (2 ^ n : Nat)).toNat

/-- Number of bits set. -/
def popcount (w x : Nat) : Nat := (List.range w).countP (bitAt x)

/-- The numbers of the bits set, rising. -/
def bitsSet (w x : Nat) : List Nat := (List.range w).filter (bitAt x)

/-- `n` bytes of a number, least significant first (R54). -/
def toBytes : Nat → Nat → List Byte
  | 0, _ => []
  | n + 1, x => BitVec.ofNat 8 x :: toBytes n (x / 256)

/-- The number of a little-endian byte string (R54). -/
def ofBytes : List Byte → Nat
  | [] => 0
  | b :: t => b.toNat + 256 * ofBytes t

/-- Bytes `i` to `i + n - 1` of a byte string as a little-endian number; bytes beyond its end count 0. -/
def field (bs : List Byte) (i n : Nat) : Nat := ofBytes ((bs.drop i).take n)

/-- The first power-of-two multiple: `x` rounded up to a multiple of `m`. -/
def roundUp (x m : Nat) : Nat := (x + m - 1) / m * m

/-- A list with its `i`-th element replaced. -/
def setNth {α : Type} : List α → Nat → α → List α
  | [], _, _ => []
  | _ :: t, 0, x => x :: t
  | a :: t, i + 1, x => a :: setNth t i x

/-- A byte memory: bytes listed by address, an unlisted byte reading 0x00 (log entry 2), and the numbers of
the poisoned units (R454), rising, and the ranges of units lost with a fenced channel or die, which read poison and discard writes
(R451). -/
structure Mem where
  bytes : List Host.Cell
  poison : List Nat
  lost : List (Nat × Nat)
  deriving DecidableEq, Repr

/-- Memory with nothing listed and nothing poisoned. -/
def Mem.empty : Mem := ⟨[], [], []⟩

/-- Does a unit lie in a lost range? -/
def Mem.isLost (m : Mem) (u : Nat) : Bool := m.lost.any (fun r => decide (r.1 ≤ u) && decide (u < r.2))

/-- One byte read. -/
def Mem.byte (m : Mem) (a : Nat) : Byte := Tab.getD m.bytes a 0

/-- One byte written; a byte of a lost range, whose units are sectors of HBM, is discarded. -/
def Mem.setByte (m : Mem) (a : Nat) (b : Byte) : Mem :=
  if m.isLost (a / 64) then m else { m with bytes := Tab.put m.bytes a 0 b }

/-- `n` bytes from an address. -/
def Mem.read (m : Mem) (a : Nat) : Nat → List Byte
  | 0 => []
  | n + 1 => m.byte a :: m.read (a + 1) n

/-- A byte string stored from an address. -/
def Mem.write (m : Mem) (a : Nat) : List Byte → Mem
  | [] => m
  | b :: t => Mem.write (m.setByte a b) (a + 1) t

/-- A little-endian number of `n` bytes. -/
def Mem.readNat (m : Mem) (a n : Nat) : Nat := ofBytes (m.read a n)

/-- A little-endian number stored in `n` bytes. -/
def Mem.writeNat (m : Mem) (a n x : Nat) : Mem := m.write a (toBytes n x)

/-- A number put into a rising list without repeats. -/
def insertNat : List Nat → Nat → List Nat
  | [], n => [n]
  | k :: t, n => if n < k then n :: k :: t else if n = k then k :: t else k :: insertNat t n

/-- Is the unit poisoned? -/
def Mem.isPoison (m : Mem) (u : Nat) : Bool := m.poison.contains u || m.isLost u

/-- A unit's poison set or cleared. -/
def Mem.setPoison (m : Mem) (u : Nat) (p : Bool) : Mem :=
  { m with poison := if p then insertNat m.poison u else m.poison.filter (fun k => decide (k ≠ u)) }

/-- Is any unit of `sz` bytes that the range touches poisoned? -/
def Mem.rangePoison (m : Mem) (sz a n : Nat) : Bool :=
  m.poison.any (fun u => decide (a < (u + 1) * sz) && decide (u * sz < a + n))
    || m.lost.any (fun r => decide (a < r.2 * sz) && decide (r.1 * sz < a + n))

/-- The poison of every unit of `sz` bytes that the range touches set or cleared. -/
def Mem.setRangePoison (m : Mem) (sz a n : Nat) (p : Bool) : Mem :=
  (List.range ((a + n + sz - 1) / sz - a / sz)).foldl (fun m i => m.setPoison (a / sz + i) p) m

/-- The canonical form of R11's memory: addresses strictly rising, no byte 0x00 listed, poisoned units
rising. -/
def risingNat : List Nat → Bool
  | [] => true
  | [_] => true
  | k :: m :: t => decide (k < m) && risingNat (m :: t)

def Mem.wf (m : Mem) : Bool :=
  Tab.sorted m.bytes && m.bytes.all (fun c => decide (c.2 ≠ 0)) && risingNat m.poison

end Sys2Proof.Machine
end

