-- ==== Sys2Proof/Machine/FacetState.lean ====
section
/-! DEFINITION. The state of a facet (R167) and of the units behind its slots: queues, drains, tensor unit,
retention, shadow column, movement, sync. -/

namespace Sys2Proof.Machine

/-- A 64-bit register with its poison bit (R167). -/
structure SReg where
  v : Word64
  p : Bool
  deriving DecidableEq, Repr

/-- A predicate with its poison bit (R167). -/
structure PReg where
  v : Bool
  p : Bool
  deriving DecidableEq, Repr

/-- An active loop level (R184): iterations left, first and last bundle of the body. -/
structure Loop where
  count : Nat
  first : Nat
  last : Nat
  deriving DecidableEq, Repr

/-- An event raise on its way to the event controller (R423, R579). -/
structure Raise where
  src : Nat
  code : Nat
  unit : Nat
  lf : Nat
  fields : List Nat
  deriving DecidableEq, Repr

/-- An issue in a row buffer (R78): the driven row tile, with what the issue carries. -/
structure Issue where
  seq : Nat
  logical : Nat
  bank : Nat
  acc : Bool
  spec : Bool
  planes : Nat
  policy : Nat
  /-- The driven value of each row (R63). -/
  xs : List Int
  /-- A poisoned element or scale byte, or a scale byte of 0xFF (R80). -/
  bad : Bool
  /-- A broken outlier list or a poisoned entry value: every column of the bank is poisoned (R122). -/
  outPoison : Bool
  /-- The check-store entry as it stands at the issue (R111, R129). -/
  entry : Mem
  scale : Nat
  scalePoison : Bool
  /-- Attached outlier terms (R122): row and BF16 code. -/
  outliers : List (Nat × Nat)
  slices : Nat
  sliceNo : Nat
  step : Nat
  deriving DecidableEq, Repr

/-- A pending array drain (R186, R231). -/
structure ADrain where
  seq : Nat
  handle : Nat
  toMem : Bool
  /-- First vector register, or local address. -/
  dst : Nat
  tile : Nat
  bank : Nat
  dq : Bool
  sd : Nat
  /-- Request latched in the array island (R95). -/
  latched : Bool
  /-- Launched back toward the facet (R95). -/
  launched : Bool
  deriving DecidableEq, Repr

/-- A TMM with the registers it read in R (R233, R234). -/
structure TmmOp where
  td : Nat
  fa : Nat
  fb : Nat
  acc16 : Bool
  clr : Bool
  da : Nat
  db : Nat
  k : Nat
  m : Nat
  n : Nat
  mask : Bool
  rk : Nat
  word : Nat
  seq : Nat
  deriving DecidableEq, Repr

/-- A tile drain (R237). -/
structure TDrain where
  td : Nat
  df : Nat
  rows : Nat
  clr : Bool
  toMem : Bool
  dst : Nat
  seq : Nat
  deriving DecidableEq, Repr

/-- An operation of the tensor queue (R235). -/
inductive TOp where
  | tmm (o : TmmOp)
  | tclr (td : Nat)
  | drain (d : TDrain)
  | tmsk (desc : List Byte) (poison : Bool)
  deriving DecidableEq, Repr

/-- A block of a coded operand still to be decoded (R328): operand B?, index, slot and header address. -/
structure Blk where
  isB : Bool
  idx : Nat
  slot : Nat
  hdr : Nat
  deriving DecidableEq, Repr

/-- A staged operand (R249): descriptor, format, K, m or n, its packed image with poison per byte (element
bytes from 0, scale bytes from 2^24), and the source ranges in data SRAM. -/
structure Staged where
  desc : Nat
  fmt : Nat
  k : Nat
  mn : Nat
  img : Mem
  ranges : List (Nat × Nat)
  valid : Bool
  deriving DecidableEq, Repr

/-- The TMM in occupancy or held for a shadow replay (R251, R256, R257). -/
structure TExec where
  op : TmmOp
  a : Staged
  b : Staged
  todo : List Blk
  /-- Chunk length in force when the occupancy began (R252). -/
  chunk : Nat
  /-- Shadowed column (R256), none when the shadow column is off. -/
  col : Option Nat
  /-- Start values of the shadowed column's cells: value and poison. -/
  start : List (Nat × Bool)
  /-- Completion held for a replay: the shadow column's cells (R257). -/
  held : Option (List (Nat × Bool))
  /-- System time copy at the compare (R264). -/
  time : Nat
  /-- Credit-stall fc of the occupancy so far (R251, R325). -/
  stall : Nat
  /-- An injection of kind 0x06 or 0x07 was performed on it, and whether a dry one (R470). -/
  inj : Option Bool
  deriving DecidableEq, Repr

/-- What a movement operation does (R239, R240, R241). -/
inductive MKind where
  | copy (dir rl rr rn : Nat)
  | page (dir rl : Nat) (desc : List Byte)
  | dec (rs rd rn : Nat)
  deriving DecidableEq, Repr

/-- A movement operation in its queue (R186, R238); `blk` is the next block of an MDEC. -/
structure MOp where
  tag : Nat
  posted : Bool
  step : Option Nat
  kind : MKind
  blk : Nat
  seq : Nat
  deriving DecidableEq, Repr

/-- A sync message (R244): source and destination system facet (R484), channel, sender's step, data, poisoned words. -/
structure SyncMsg where
  src : Nat
  dst : Nat
  chan : Nat
  step : Option Nat
  data : List Byte
  poison : List Nat
  deriving DecidableEq, Repr

/-- A SEND or SOUT whose credit has not returned (R244); `left`: its data has left and arrived.  A SOUT has the
destination 2^32 plus its entry. -/
structure SendOp where
  dst : Nat
  chan : Nat
  left : Bool
  deriving DecidableEq, Repr

/-- A RECV waiting for its message (R244). -/
structure RecvOp where
  pd : Nat
  addr : Nat
  len : Nat
  src : Nat
  chan : Nat
  deriving DecidableEq, Repr

/-- A dispatch descriptor (R193, R361): service, step, epoch and the 512 bytes of the vector register. -/
structure Desc where
  service : Nat
  step : Nat
  epoch : Nat
  bytes : List Byte
  deriving DecidableEq, Repr

/-- A norm-watch update held in the hub until its request commits (R270, R271). -/
structure Watch where
  service : Nat
  step : Nat
  lf : Nat
  layer : Nat
  slot : Nat
  spec : Bool
  grad : Bool
  value : Nat
  deriving DecidableEq, Repr

/-- Logits on their way to a sampler (R245), from a facet and its service. -/
structure Logits where
  entry : Nat
  offset : Nat
  step : Option Nat
  service : Nat
  pf : Nat
  vals : List (Nat × Bool)
  deriving DecidableEq, Repr

/-- What a bundle launches outside the facet core; it takes effect when the bundle leaves R. -/
inductive Eff where
  | bump (r : Reg) (f : Fld) (n : Nat)
  | wr (r : Reg) (f : Fld) (v : Nat)
  | barDone
  | raise (r : Raise)
  | issue (base count : Nat) (i : Issue) (hn : Nat) (listBad : Bool)
  | send (m : SyncMsg)
  | logits (l : Logits)
  | watch (w : Watch)
  | report (lf step : Nat)
  | failed (lf step : Nat)
  | rebind (epoch : Nat)
  | setState (st : Nat)
  deriving DecidableEq, Repr

/-- The mask session of R285: open, row bits, largest m, masked TMMs run. -/
structure Session where
  isOpen : Bool
  rows : Nat
  maxM : Nat
  runs : Nat
  deriving DecidableEq, Repr

/-- The state that a bundle's slots change, all or none of it (R181, R191). -/
structure FCore where
  s : Tab SReg
  p : Tab PReg
  /-- V0-V31: byte i of Vv at v * 512 + i, poison per byte. -/
  v : Mem
  /-- T0-T3: cell (i, j) of tile t at ((t * 32 + i) * 64 + j) * 4, poison per cell. -/
  t : Mem
  /-- Kind of each tile in program order: 0 none, 1 FP32, 2 INT32 (R234). -/
  kinds : List Nat
  /-- The same, as the tensor queue has come to run (R255). -/
  tint : List Nat
  h : Tab SReg
  pc : Nat
  /-- Active loop levels, innermost first (R184). -/
  loops : List Loop
  /-- Data SRAM, poison per 8-byte word (R175). -/
  sram : Mem
  /-- Words of data SRAM with a latent single-bit or uncorrectable error (R175). -/
  latentCe : List Nat
  latentUe : List Nat
  /-- Bundles of instruction memory, and how many are loaded (R197). -/
  imem : Tab (BitVec 512)
  /-- Bundles of instruction memory with an uncorrectable error (R175, R470). -/
  imemUe : List Nat
  nBundles : Nat
  /-- Prism table memory (R321), activation tables included (R266). -/
  prism : Mem
  seq : Nat
  drains : List ADrain
  tq : List TOp
  exec : Option TExec
  /-- Tile drains whose data moves on the drain path (R255). -/
  moving : List TDrain
  retA : Option Staged
  retB : Option Staged
  mask : List Byte
  maskPoison : Bool
  session : Session
  mq : List MOp
  /-- Tags with a failed movement operation not yet raised (R188). -/
  mfault : List Nat
  sends : List SendOp
  recvs : List RecvOp
  rxq : List SyncMsg
  /-- Predicates whose RECV met an oversize message (R244). -/
  recvBad : List Nat
  dq : List Desc
  /-- Step in progress (R194). -/
  step : Option Desc
  /-- VWATCH count per layer in the step (R270). -/
  vwCount : Tab Nat
  /-- Highest step number whose messages are discarded, and the steps discarded by a facet reset (R581). -/
  dropStep : Option Nat
  dropList : List Nat
  eff : List Eff
  /-- Bundle after this one, set by a taken branch or a skipped body, with the levels it leaves (R183, R184). -/
  next : Option Nat
  haltReq : Bool
  deriving DecidableEq, Repr

/-- Why a facet has stopped issue and waits for older operations (R192, R213, R200). -/
inductive Stop where
  | exc (cause : Nat)
  | halt
  | reset
  deriving DecidableEq, Repr

/-- The bundle being presented: its working core, causes met (code, slot), stall cause, destinations. -/
structure Bundle where
  work : FCore
  excs : List (Nat × Nat)
  stall : Option Nat
  dests : List (Nat × Nat)
  slots : Nat
  deriving DecidableEq, Repr

/-- A failure signature (R258, R264). -/
structure Signature where
  header : List Byte
  operands : List Byte
  deriving DecidableEq, Repr

/-- A physical facet. -/
structure Facet where
  core : FCore
  bun : Option Bundle
  stop : Option Stop
  /-- Barrier the facet waits in: id, rn; and its release (R246): 0 waiting, 1 released, 2 SYNC. -/
  bar : Option (Nat × Nat × Nat)
  /-- Stall fc not yet shown in FAC_STAT's units: array, tensor, movement, sync, register (R205). -/
  stallFc : List Nat
  /-- Credit-stall and prism-stall fc below their unit of 2^8 (R262, R332). -/
  tenFc : Nat
  prismFc : Nat
  /-- Shadowed TMMs below the unit of 2^20 (R263). -/
  checkLow : Nat
  shadowFenced : Bool
  sig : Option Signature
  /-- Facet power-gated after a fence (R449). -/
  fenced : Bool
  /-- Cycle counter account: facet reset at region cycle count (R170, log entry 8). -/
  fcBase : Nat
  deriving DecidableEq, Repr

/-- The facet core after reset (R169). -/
def FCore.reset : FCore where
  s := []
  p := []
  v := Mem.empty
  t := Mem.empty
  kinds := [0, 0, 0, 0]
  tint := [0, 0, 0, 0]
  h := []
  pc := 0
  loops := []
  sram := Mem.empty
  latentCe := []
  latentUe := []
  imem := []
  imemUe := []
  nBundles := 0
  prism := Mem.empty
  seq := 0
  drains := []
  tq := []
  exec := none
  moving := []
  retA := none
  retB := none
  mask := []
  maskPoison := false
  session := ⟨false, 0, 0, 0⟩
  mq := []
  mfault := []
  sends := []
  recvs := []
  rxq := []
  recvBad := []
  dq := []
  step := none
  vwCount := []
  dropStep := none
  dropList := []
  eff := []
  next := none
  haltReq := false

/-- A facet after reset. -/
def Facet.reset : Facet where
  core := FCore.reset
  bun := none
  stop := none
  bar := none
  stallFc := [0, 0, 0, 0, 0]
  tenFc := 0
  prismFc := 0
  checkLow := 0
  shadowFenced := false
  sig := none
  fenced := false
  fcBase := 0

end Sys2Proof.Machine
end

