-- ==== Sys2Proof/Machine/ArrayState.lean ====
section
/-! DEFINITION. The state of the array islands (R75-R100), of the side path (R109-R126), and of calibration
and refresh (R135-R158). -/

namespace Sys2Proof.Machine

/-- How a flagged plane-group is being settled (R114, R118, R119). -/
inductive Settle where
  /-- Replay of group `g`, with the lent mirror converter. -/
  | replay (g mirror : Nat)
  /-- Exact fallback of group `g` waiting for its place: counted toward takeover (R121)?, forced (R91)? -/
  | waiting (g : Nat) (counted forced : Bool)
  /-- Exact fallback of group `g`, reading the golden copy at an address (none when it reads nothing, R120). -/
  | reading (g : Nat) (counted forced : Bool) (src : Option Nat)
  deriving DecidableEq, Repr

/-- The product in progress in an array (R84, R93). -/
structure Product where
  issue : Issue
  plane : Nat
  /-- 0 when the plane has no active row, else the aperture in force (R81). -/
  aperture : Nat
  /-- The groups of the plane still to be settled, ascending (R116). -/
  flags : List Nat
  settle : Option Settle
  cleared : Bool
  finished : Bool
  deriving DecidableEq, Repr

/-- A converter's estimation window and attempt (R135, R136, R148). -/
structure ConvStat where
  a0 : Int
  a1 : Int
  m0 : Nat
  m2 : Nat
  count : Nat
  /-- The attempt of the run has a result (R142). -/
  done : Bool
  deriving DecidableEq, Repr

/-- A shadow window (R145-R147): the calibrating converter, its partner, the position, comparisons counted, a
counted disagreement, the new sets, and whether the converter is a mirror calibrating by itself (R147). -/
structure Shadow where
  conv : Nat
  mate : Nat
  pos : Nat
  compared : Nat
  differs : Bool
  newLo : Nat
  newHi : Nat
  isMirror : Bool
  oldRole : Nat
  deriving DecidableEq, Repr

/-- A physical array (R8). -/
structure PArr where
  /-- Trit of row r and column j at r * 1024 + j; an unlisted cell pair holds 0. -/
  w : Tab Int
  queue : List Issue
  run : Option Product
  /-- Products since the last weight write or refresh (R121). -/
  prods : Nat
  /-- Product numbers of the counted fallbacks (R121). -/
  fbs : List Nat
  /-- Software writes of CONV_MAP waiting for a plane boundary (R106): position and converter. -/
  pendMap : List (Nat × Nat)
  /-- Converter fences waiting for a plane boundary (R107). -/
  pendFence : List Nat
  /-- The region's recomputation of trims last applied (R139). -/
  trimSeq : Nat
  conv : Tab ConvStat
  shadows : List Shadow
  /-- Attempts waiting for a lent mirror (R145): converter and new sets. -/
  wantShadow : List (Nat × Nat × Nat)
  /-- Weak and flipped rows of the last scan (R150, R151). -/
  weakRows : List Nat
  flipped : Bool
  /-- Left a position without a converter (R91): the array ends FENCED. -/
  lost : Bool
  /-- A fence waits until its logical array has moved (R451, log entry 57). -/
  fenceReq : Bool
  deriving DecidableEq, Repr

/-- A column accumulator bank of a logical array (R94, R124). -/
structure Bank where
  /-- Column j at 4 * j, poison per column. -/
  cells : Mem
  scale : Nat
  scaleP : Bool
  /-- FP32 outlier accumulators by column (R124). -/
  outl : Tab Nat
  entered : Bool
  /-- A bad outlier list or golden row poisoned every column (R122, R123). -/
  outBad : Bool
  deriving DecidableEq, Repr

/-- A logical array's banks, check store entry and pending binding (R94, R96, R109). -/
structure LArr where
  bank0 : Bank
  bank1 : Bank
  chk : Mem
  /-- A binding waiting for the product in flight (R96): the array and whether refresh asked for it. -/
  bind : Option (Nat × Bool)
  /-- Check-window words waiting for the product in flight (R129). -/
  chkPend : List (Nat × Nat)
  deriving DecidableEq, Repr

/-- An outlier list being added (R123-R125): handle geometry, issue, rows left, and the arrays of the
handle whose row in front waits for the golden copy. -/
structure OutJob where
  base : Nat
  count : Nat
  issue : Issue
  rows : List (Nat × Nat)
  started : Bool
  gold : List Nat
  deriving DecidableEq, Repr

/-- A refresh in progress (R153): facet, old array, new array, logical array, step 2 to 5. -/
structure Refresh where
  pf : Nat
  old : Nat
  new : Nat
  logical : Nat
  phase : Nat
  /-- Rows still to be written, the program-verify cycle of the row in progress, 0 with none (R156), the golden copy,
  every row of the old array rewritten?, rows rewritten in step 4. -/
  rows : List Nat
  cycle : Nat
  src : Nat
  all : Bool
  done : Nat
  deriving DecidableEq, Repr

/-- An array staged by a REBIND (R397): logical and physical array, golden copy, check entry, its epoch. -/
structure StagedArr where
  logical : Nat
  phys : Nat
  src : Nat
  chk : Nat
  epoch : Nat
  deriving DecidableEq, Repr

/-- A loader job under way (R393-R398): its descriptor's slot in the ring and fields, the packages whose answer it awaits
(R395), its status once known, and for an AWRITE the arrays, the rows still to be written, the program-verify cycle of
the row in progress (0 with none), whether the row is being written a second time, and a mismatch with the check entry. -/
structure LdJob where
  slot : Nat
  kind : Nat
  rebind : Bool
  evt : Bool
  tag : Nat
  epoch : Nat
  src : Nat
  dst : Nat
  len : Nat
  pkgs : List Nat
  status : Option Nat
  pf : Nat
  logical : Nat
  phys : Nat
  rows : List Nat
  cycle : Nat
  second : Bool
  chkBad : Bool
  deriving DecidableEq, Repr

/-- The loader: jobs in ring order, failed AWRITEs (epoch, facet, logical array) not yet corrected (R402), arrays left in
WRITE by a REBIND with a bad check entry (facet, logical, physical; R398). -/
structure Loader where
  jobs : List LdJob
  failed : List (Nat × Nat × Nat)
  left : List (Nat × Nat × Nat)
  deriving DecidableEq, Repr

def Loader.reset : Loader := ⟨[], [], []⟩

/-- A calibration run (R142): its start, the arrays covered and not yet ended, the attempts accepted, rejected and
deferred. -/
structure CalRun where
  start : Nat
  covered : List (Nat × Nat)
  accepted : Nat
  rejected : Nat
  deferred : Nat
  deriving DecidableEq, Repr

/-- The first output that differs in a mirror run (R462): its kind and order number, its bundle, the original's and the mirror's
64 bytes; an injection performed on it and whether a dry one (R470). -/
structure MDiff where
  kind : Nat
  order : Nat
  bundle : Nat
  orig : List Byte
  mirror : List Byte
  inj : Option Bool
  deriving DecidableEq, Repr

/-- A mirror run (R457-R462): the slot of the chosen facet, its phase (0 snapshot, 1 the step being logged,
2 the mirror facet running, 3 its replay), the step and its descriptor, the difference found. -/
structure MRun where
  slot : Nat
  phase : Nat
  step : Nat
  desc : List Byte
  diff : Option MDiff
  deriving DecidableEq, Repr

/-- A region's clock account, calibration, refresh and thermal internals. -/
structure Region where
  /-- Thousandths of facet cycles up to `clkFrom`, and the time since which the clock in force runs. -/
  clkAcc : Nat
  clkFrom : Nat
  clkChanges : Nat
  /-- A clock change latched and not yet in effect (R34). -/
  clkPend : Option Nat
  stopped : Bool
  /-- Recomputations of the trims so far, and the temperature of the last, in 1/16 °C (R139). -/
  trimSeq : Nat
  trimTemp : Int
  cal : Option CalRun
  firstRun : Bool
  refs : List Refresh
  /-- Calibration-store writes waiting: facet, array, converter (R158). -/
  storePend : List (Nat × Nat × Nat)
  /-- A raise waiting for its rail (R544). -/
  clkWait : Option Nat
  /-- Facet clock and array drive removed by a trip (R534), and the facets to start again after it (R535). -/
  tripped : Bool
  resume : List Nat
  /-- Sensors (R529, R530): last codes, consecutive rounds away from the median, rounds without a change, the range of every sensor
  over those rounds, sensors found broken in the last round. -/
  sens : List Int
  sensBad : List Nat
  sensSame : List Nat
  sensRange : List (List (Int × Int))
  sensNew : List Nat
  mr : Option MRun
  /-- Slot after the one last taken for a mirror run (R457). -/
  mrNext : Nat
  /-- Facets in focus (R462): slot and the passing runs still to come. -/
  focus : List (Nat × Nat)
  deriving DecidableEq, Repr

def PArr.reset : PArr where
  w := []
  queue := []
  run := none
  prods := 0
  fbs := []
  pendMap := []
  pendFence := []
  trimSeq := 0
  conv := []
  shadows := []
  wantShadow := []
  weakRows := []
  flipped := false
  lost := false
  fenceReq := false

def Bank.reset : Bank := ⟨Mem.empty, 0, false, [], false, false⟩

def LArr.reset : LArr := ⟨Bank.reset, Bank.reset, Mem.empty, none, []⟩

def ConvStat.zero : ConvStat := ⟨0, 0, 0, 0, 0, false⟩

def Region.reset : Region where
  clkAcc := 0
  clkFrom := 0
  clkChanges := 0
  clkPend := none
  stopped := false
  trimSeq := 0
  trimTemp := 0
  cal := none
  firstRun := true
  refs := []
  storePend := []
  clkWait := none
  tripped := false
  resume := []
  sens := [0, 0, 0, 0, 0]
  sensBad := [0, 0, 0, 0, 0]
  sensSame := [0, 0, 0, 0, 0]
  sensRange := [[], [], [], [], []]
  sensNew := []
  mr := none
  mrNext := 0
  focus := []

end Sys2Proof.Machine
end

