-- ==== Sys2Proof/Machine/CtlState.lean ====
section
/-! DEFINITION. The state of the clock selection (R37), the arbiters (R45-R49), the event controller (R421-R430), the loupe
(R566). -/

namespace Sys2Proof.Machine

/-- An arbiter: populations and deficits by class * 2^16 + input, the input whose turn it is by class, the place in the
rotation, the grants since the last of class barrier/time, the last grant (class, input). -/
structure Arb where
  pops : Tab Nat
  defs : Tab Nat
  cur : Tab Nat
  rot : Nat
  since : Nat
  last : Option (Nat × Nat)
  deriving DecidableEq, Repr

def Arb.reset : Arb := ⟨[], [], [], 0, 15, none⟩

structure Ctl where
  /-- The active reference clock and those that have failed (R37); the package stopped, both failed (R447's table). -/
  refclk : Nat
  refFailed : List Nat
  stopped : Bool
  /-- Arbiters by kind * 2^16 + number: 0 facet router, 1 region router, 2 die bridge, 3 hub, 4 link port. -/
  arbs : Tab Arb
  /-- Populations reported to a parent: (arbiter * 2^16 + input) * 4 + class. -/
  arbRep : Tab Nat
  /-- Time of a source's first raise after its last release, and the LC that claimed it; sources by number, private ones at
  2^16 + LC * 64 + number. -/
  evFirst : Tab Nat
  evClaim : Tab Nat
  /-- Interrupt inputs asserted, by core * 2 + class. -/
  irq : Tab Nat
  /-- The loupe's capture has started (R566). -/
  loupe : Bool
  deriving DecidableEq, Repr

def Ctl.reset : Ctl := ⟨0, [], false, [], [], [], [], [], false⟩

end Sys2Proof.Machine
end

