-- ==== Sys2Proof/Machine/PackState.lean ====
section
/-! DEFINITION. The state of the vault (R466-R469), boot and the cores' images (R434-R442), the security block (R505-R527),
link ports and barrier (R483-R499), plant, power and power sequence (R536-R546, R570-R572), TAP (R565). -/

namespace Sys2Proof.Machine

/-- The boot record (R434): source order (0 SPI NOR, 1 management port, 2 PCIe), second SPI NOR offset, TFTP server and file,
firmware key digests, security-version counter. -/
structure BootRec where
  order : List Nat
  spi2 : Nat
  server : Option (List Byte × List Byte)
  keys : List (List Byte)
  svn : Nat
  deriving DecidableEq, Repr

/-- What a vault record holds. -/
inductive VData where
  | boot (r : BootRec)
  | bytes (l : List Byte)
  | count (n : Nat)
  deriving DecidableEq, Repr

/-- A copy of a vault record (R467): its generation, whether its CRC passes, its contents. -/
structure VRec where
  gen : Nat
  ok : Bool
  data : VData
  deriving DecidableEq, Repr

/-- A vault write (R467): record, contents, generation, copies written so far. -/
structure VWrite where
  rec_ : Nat
  data : VData
  gen : Nat
  done : Nat
  deriving DecidableEq, Repr

/-- The vault (R466): the die of each copy, the records' copies at record * 4 + copy, writes waiting in order, the copy being
rebuilt and its new die (R469).  A record is section * 2^16 + number. -/
structure Vault where
  dies : List Nat
  recs : Tab VRec
  writes : List VWrite
  rebuild : Option (Nat × Nat)
  deriving DecidableEq, Repr

def Vault.reset : Vault := ⟨[0, 1, 2], [], [], none⟩

/-- The boot of a hub (R434-R438): its boot core, the image it has accepted and that image's source, the time before which no
round runs, whether hub B may fetch on its own, whether it has jumped. -/
structure HubBoot where
  core : Option Nat
  image : Option (List Byte)
  source : Nat
  retryAt : Option Nat
  own : Bool
  jumped : Bool
  deriving DecidableEq, Repr

def HubBoot.reset : HubBoot := ⟨none, none, 0, none, false, false⟩

/-- Boot and firmware: the hubs, the hub driving the SPI NOR pins, the release of PORST_N, the current firmware slot, the slot
whose image each core holds, whether firmware has started the other LCs, the image being brought in (R441). -/
structure Boot where
  a : HubBoot
  b : HubBoot
  spiHub : Nat
  released : Nat
  slot : Nat
  coreSlot : Tab Nat
  started : Bool
  update : Option (List Byte)
  /-- The image FW_STAT names (R513). -/
  running : List Byte
  deriving DecidableEq, Repr

def Boot.reset : Boot := ⟨HubBoot.reset, HubBoot.reset, 0, 0, 0, [], false, none, []⟩

/-- A security command in progress (R512): its operation and how far its vault writes have gone (ENROLL, OWNER, SVN_COMMIT):
the records that must be held by two copies. -/
structure SecCmd where
  op : Nat
  waits : List (Nat × Nat)
  status : Option Nat
  fields : List Nat
  deriving DecidableEq, Repr

/-- The security block's state: identity digest (R507), key store (R517), the seed (R508), enrollments of each hub's PUF, the
latched nonce and the number of draws (R510), the command in progress, an A2 lock since PORST_N (R514), erase records still
to be held by two copies (R521). -/
structure Sec where
  digest : List Byte
  keys : Tab (List Byte)
  seed : Option (List Byte)
  puf : List Nat
  nonce : Option (List Byte)
  draws : Nat
  cmd : Option SecCmd
  a2 : Bool
  erase : List (Nat × Nat)
  deriving DecidableEq, Repr

def Sec.reset : Sec := ⟨List.replicate 64 0, [], none, [0, 0], none, 0, none, false, []⟩

/-- A message between packages (R489): header fields, destination set of a multicast WRITE, virtual channel, source package,
data with the poison of their 8-byte words. -/
structure LMsg where
  kind : Nat
  vc : Nat
  src : Nat
  dst : Nat
  set : List Nat
  mcast : Bool
  addr : Nat
  chan : Nat
  tag : Nat
  data : List Byte
  poison : List Nat
  deriving DecidableEq, Repr

/-- A flit (R488) before its link fields are filled in: kind, channel, multicast, destination, source, payload, poison; `own` names
what fails with it at this package (R494): 0 nothing, 1 a SEND of a facet (LF, step), 2 a loader job (tag). -/
structure Flit where
  kind : Nat
  vc : Nat
  mcast : Bool
  dst : Nat
  src : Nat
  payload : List Byte
  poison : Nat
  own : Nat × Nat × Nat
  deriving DecidableEq, Repr

/-- A message being received on a virtual channel (R489, R494): payload, poisoned words, start, multicast, source, destination. -/
structure Partial where
  payload : List Byte
  poison : List Nat
  since : Nat
  mcast : Bool
  src : Nat
  dst : Nat
  deriving DecidableEq, Repr

/-- A link port (R486-R496): lanes that trained, the spare, next sequence number to send, flits sent and not acknowledged, flits
waiting by arrival, credits by channel, credits to return, next number expected, whether a NAK is out, replays without
progress, replay timer, partial messages by channel, peer's identity, times of the last TIME message and delay measurement. -/
structure LPort where
  good : List Nat
  spare : Option Nat
  txNext : Nat
  sent : List (Nat × Flit)
  waiting : List Flit
  credits : List Nat
  owed : List Nat
  rxNext : Nat
  nak : Bool
  replays : Nat
  timer : Option Nat
  part : Tab Partial
  /-- Identity the peer reported at training (R483); corrected codewords below the unit of 2^8 (R501). -/
  ident : Nat
  fecLow : Nat
  deriving DecidableEq, Repr

def LPort.reset : LPort := ⟨[], none, 0, [], [], [128, 128, 384, 16], [0, 0, 0, 0], 0, false, 0, none, [], 0, 0⟩

/-- The link block: ports, messages received and not yet taken, multicasts of the loader's jobs not yet acknowledged, by tag: the
packages still awaited; the time estimate: last offset in 1/16 st and its time, rate as offset change and span, consecutive
predictions met; the barrier's timer, the packages that armed, and its release time in own time. -/
structure Link where
  ports : Tab LPort
  inbox : List (Nat × LMsg)
  est : Option (Int × Nat)
  rate : Int × Nat
  met : Nat
  barTimer : Option Nat
  barFrom : List Nat
  barAt : Option Nat
  deriving DecidableEq, Repr

def Link.reset : Link := ⟨[], [], none, (0, 1), 0, none, [], none⟩

/-- The coolant plant (R538-R542): valve opening and integrator, last valid sensor read, sensor lost, since when the flow is low,
low flow in force, since when the model deviates, duty ordered by a fault. -/
structure Plant where
  u : Rat
  i : Rat
  lastRead : Nat
  lost : Bool
  lowSince : Option Nat
  low : Bool
  devSince : Option Nat
  /-- Memory stacks refreshed at the doubled rate (1) and at half bandwidth (2) (R537). -/
  hot : Tab Nat
  deriving DecidableEq, Repr

def Plant.reset : Plant := ⟨0, 0, 0, false, none, false, none, []⟩

/-- The power sequencer and power control: phase (0 out of reset, 1 PORST_N asserted, 2 sequencing, 3 failed and waiting, 4 package
trip, 5 rails off until PORST_N), the group being enabled, rails enabled and in regulation, the time of the last change,
consecutive failures, a failure to report after boot, records to write after boot (R536, R521); voltage table of the
vault (clock, mV); set-point raises waiting: die, clock, acknowledgement time. -/
structure Power where
  phase : Nat
  group : Nat
  enabled : List Nat
  good : List Nat
  since : Nat
  fails : Nat
  report : Bool
  owed : List Nat
  volt : Tab Nat
  vwait : Tab Nat
  /-- Rails that could not be acknowledged (R546), by die. -/
  noAck : List Nat
  /-- PKG_READY, PKG_TRIP_N asserted, VALVE_PWM and PUMP_PWM released (R568, R570, R572). -/
  ready : Bool
  trip : Bool
  released : Bool
  /-- The package exceeds p_limit (R545). -/
  beyond : Bool
  deriving DecidableEq, Repr

/-- The rails in the order of their groups (R570). -/
def railOrder : List Nat := [6, 0, 1, 2, 3, 4, 9, 10, 7, 8, 5]

def Power.reset : Power := ⟨0, 8, railOrder, railOrder, 0, 0, false, [], [], [], [], false, false, true, false⟩

/-- The TAP (R565): instruction in effect, boundary register. -/
structure Tap where
  ir : Nat
  boundary : List Bool
  deriving DecidableEq, Repr

def Tap.reset : Tap := ⟨0x02, []⟩

end Sys2Proof.Machine
end

