-- ==== Sys2Proof/Machine/ServeState.lean ====
section
/-! DEFINITION. The state of the serving engine: channels (R341), request table entries (R353), steps in flight (R361),
samplers (R364), vocabulary sets (R350), and of the page pools (R288-R306). -/

namespace Sys2Proof.Machine

/-- A message the Parazar has sent on a channel and the client has not acknowledged (R344). -/
structure SentMsg where
  seq : Nat
  typ : Nat
  reqId : Nat
  body : List Byte
  deriving DecidableEq, Repr

/-- A channel table entry (R341), with the messages sent and not acknowledged, the retransmit timer's expiry and the
consecutive expiries (R344), and the arrival of the oldest message not acknowledged (R343). -/
structure Chan where
  customer : Nat
  prot : Bool
  enabled : Bool
  keySlot : Nat
  family : Nat
  retryLimit : Nat
  peerPort : Nat
  peerAddr : Nat
  rto : Nat
  rxNext : Nat
  txNext : Nat
  txAcked : Nat
  state : Nat
  sent : List SentMsg
  retries : Nat
  timer : Option Nat
  ackDue : Option Nat
  /-- Messages that wait for room (R344): type, req_id, body. -/
  waiting : List (Nat × Nat × List Byte)
  deriving DecidableEq, Repr

/-- A request table entry (R353): its fields, then what the engine keeps beside them: the first 32 bytes of the SUBMIT
(R345), the prompt bytes received, the first fragment's arrival, the blocks tokenized, the state before the step in
flight (R362), the step whose condition of R24 is open, the commits not yet sent (first index and count), the text held
(R352), the sequence number of END, the start of PAGE_WAIT (R379), whether the deadline timer has expired (R375). -/
structure Entry where
  state : Nat
  priority : Nat
  customer : Nat
  service : Nat
  epoch : Nat
  flags : Nat
  promptLen : Nat
  genLen : Nat
  maxLen : Nat
  pageCount : Nat
  pageList : Nat
  firstDl : Nat
  tokenDl : Nat
  arrival : Nat
  seed : Nat
  reqId : Nat
  channel : Nat
  topK : Nat
  temperature : Nat
  topP : Nat
  repPenalty : Nat
  endReason : Nat
  endCause : Nat
  prefillPos : Nat
  misses : Nat
  treeNodes : Nat
  head : List Byte
  received : Nat
  asmFrom : Nat
  tokBlocks : Nat
  tokReady : Bool
  prev : Nat
  step : Option Nat
  outq : List (Nat × Nat)
  text : List Byte
  endSeq : Option Nat
  waitFrom : Nat
  missed : Bool
  deriving DecidableEq, Repr

/-- A record of a dispatch descriptor (R361). -/
structure Rec where
  entry : Nat
  spec : Bool
  sample : Bool
  prefill : Bool
  count : Nat
  pos0 : Nat
  token : Nat
  list : Nat
  deriving DecidableEq, Repr

/-- A step in flight (R359-R363): the LFs it was sent to, those that have not yet reported, the entries that have not yet
committed, the scratch slots accepted by each entry's verify (R368). -/
structure StepRun where
  service : Nat
  step : Nat
  epoch : Nat
  kind : Nat
  recs : List Rec
  lfs : List Nat
  wait : List Nat
  uncommitted : List Nat
  failed : Bool
  paths : Tab (List Nat)
  /-- Batch slot of each verify (R305): entry and slot. -/
  places : List (Nat × Nat)
  deriving DecidableEq, Repr

/-- A dispatch descriptor on its way to a facet (R193). -/
structure Sending where
  pf : Nat
  desc : Desc
  deriving DecidableEq, Repr

/-- The logits a sampler has latched for an entry (R28), by row * 2^20 + index, and a verify's progress (R368): the
current node (none for the ordinary row), the accepted path, the tokens drawn, the last token once found. -/
structure Sampler where
  step : Nat
  logits : Tab (Nat × Bool)
  cur : Option Nat
  path : List Nat
  tokens : List Nat
  done : Bool
  failCause : Nat
  deriving DecidableEq, Repr

/-- A vocabulary set (R350), loaded from outside the block, whose layout in hub SRAM the spec does not give (log entry 40): byte strings by token,
merges (left, right, result) in rank order, byte classes. -/
structure Vocab where
  size : Nat
  strings : Tab (List Byte)
  merges : List (Nat × Nat × Nat)
  classes : Tab Nat
  deriving DecidableEq, Repr

/-- A prefix table entry (R300): chain value, the chain value before it, service, epoch, page, fill, partial?, and the
moment of its last hit or registration. -/
structure Pfx where
  chain : Nat
  before : Nat
  service : Nat
  epoch : Nat
  page : Nat
  fill : Nat
  part : Bool
  used : Nat
  deriving DecidableEq, Repr

/-- A sealing in progress (R295-R298): service, entry and its list index, source and target page, image complete?,
the owner ended?. -/
structure Sealing where
  service : Nat
  entry : Nat
  idx : Nat
  source : Nat
  target : Nat
  ready : Bool
  deriving DecidableEq, Repr

/-- A page copy in progress (R302): service, entry, list index, old and new page. -/
structure PageCopy where
  service : Nat
  entry : Nat
  idx : Nat
  old : Nat
  new : Nat
  deriving DecidableEq, Repr

/-- A commit copy in progress (R306): service, entry, first position, accepted scratch slots in order. -/
structure CommitCopy where
  service : Nat
  entry : Nat
  step : Nat
  pos : Nat
  slots : List Nat
  deriving DecidableEq, Repr

/-- The pool manager (R291): the free list of each pool in link order, reservations in pages, scratch pages by service
and batch slot, the prefix table, the sealings, the headers of sealed blocks by block address, the copies in progress,
a count of prefix uses. -/
structure Kv where
  free : Tab (List Nat)
  reserved : Tab Nat
  scratch : Tab (List Nat)
  pfx : List Pfx
  seals : List Sealing
  hdrs : Tab (List Byte)
  copies : List PageCopy
  commits : List CommitCopy
  uses : Nat
  deriving DecidableEq, Repr

/-- The serving engine. -/
structure Serve where
  chans : Tab Chan
  entries : Tab Entry
  steps : List StepRun
  sending : List Sending
  samplers : Tab Sampler
  vocabs : Tab Vocab
  /-- Next step number of each service (R359). -/
  nextStep : Tab Nat
  /-- Time of the last update of each customer's level (R376). -/
  budAt : Tab Nat
  /-- Services whose disable waits for their steps in flight (R381). -/
  disabling : List Nat
  /-- Services whose next update step is withheld (R272). -/
  withheld : List Nat
  /-- Completion reports of posted KV writes on their way: service and step (R24). -/
  kvReports : List (Nat × Nat)
  /-- The prompt each hub's tokenizer works on (R350). -/
  tok : Tab Nat
  /-- Cost records under which services were admitted, and epochs switched to (R371, R402). -/
  costs : Tab Cost
  deriving DecidableEq, Repr

def Chan.reset : Chan := ⟨0, false, false, 0, 0, 0, 0, 0, 0, 0, 0, 0, 0, [], 0, none, none, []⟩

def Entry.reset : Entry := ⟨0, 0, 0, 0, 0, 0, 0, 0, 0, 0, 0, 0, 0, 0, 0, 0, 0, 0, 0, 0, 0, 0, 0, 0, 0, 0, [], 0, 0, 0, false, 0, none,
  [], [], none, 0, false⟩

def Sampler.reset : Sampler := ⟨0, [], none, [], [], false, 0⟩

def Vocab.empty : Vocab := ⟨0, [], [], []⟩

def Kv.reset : Kv := ⟨[], [], [], [], [], [], [], [], 0⟩

def Serve.reset : Serve := ⟨[], [], [], [], [], [], [], [], [], [], [], [], []⟩

def Cost.reset : Cost := ⟨[], [], 0, 0, 0⟩

end Sys2Proof.Machine
end

