-- ==== Sys2Proof/Machine/State.lean ====
section
/-! DEFINITION. State: everything the spec gives the block as plain data, what it sends outward, and its reset. -/

namespace Sys2Proof.Machine

/-- What the block sends outward. -/
inductive Out where
  | read (v : Nat) (poison : Bool)
  /-- A datagram of a channel toward its client (R340). -/
  | msg (chan : Nat) (payload : List Byte)
  /-- The entry of a vectored interrupt, to the core bound to an LC (R427). -/
  | vector (lc addr : Nat)
  /-- A record of the loupe (R566). -/
  | loupe (record : List Byte)
  /-- A core starts at an address with a0 and a1 (R438, R440). -/
  | start (core addr a0 a1 : Nat)
  /-- A flit of a link port (R488). -/
  | flit (port : Nat) (bytes : List Byte)
  /-- A frame of a service port (0, 1) or the management port (2), FCS appended (R561). -/
  | frame (port : Nat) (bytes : List Byte)
  /-- A datagram to the collector (R475). -/
  | cper (ip0 ip1 port : Nat) (bytes : List Byte)
  /-- A completion of an inbound PCIe request (R562): data, EP bit, Unsupported Request. -/
  | pcieCpl (hub : Nat) (data : List Byte) (ep ur : Bool)
  /-- An outbound PCIe access (R563): write?, configuration?, address, data. -/
  | pcieOb (hub : Nat) (write cfg : Bool) (addr data : Nat)
  /-- A duty written to the actuator over I3C (R538). -/
  | duty (addr valve pump : Nat)
  /-- An AVSBus set-point in mV (R544). -/
  | avs (rail mv : Nat)
  /-- LOUPE_TRIG_OUT pulses (R566). -/
  | trigOut
  /-- What the TAP shifts out (R565): the length of the data register and its value. -/
  | tap (bits value : Nat)
  deriving DecidableEq, Repr

/-- What travels between facets and hubs. -/
structure Noc where
  msgs : List SyncMsg
  logits : List Logits
  watches : List Watch
  /-- Reports of a facet's part of a step: LF, step, complete or failed (R196, R192). -/
  reports : List (Nat × Nat × Bool)
  deriving DecidableEq, Repr

/-- The fault block: the disabled-unit map in order of fencing and its generation (R450, R467), facet fences
whose entry is still to be appended (R450) with the latest time for it, the number of boots and of records
written (R473), and the slots of the CPER ring not yet sent (R475). -/
structure Faults where
  map : List Nat
  /-- Descriptors of the units whose fence is in force (R449). -/
  active : List Nat
  /-- HBM sectors with a latent single-symbol or uncorrectable error (R454). -/
  hbmCe : List Nat
  hbmUe : List Nat
  mapGen : Nat
  late : List (Nat × Nat)
  boots : Nat
  seq : Nat
  toSend : List Nat
  deriving DecidableEq, Repr

structure State where
  variant : Variant
  regs : Tab Word64
  time : Nat
  hbm : Mem
  facets : Tab Facet
  /-- Physical arrays by PF * 256 + array. -/
  arrs : Tab PArr
  /-- Logical arrays by PF * 128 + logical. -/
  larrs : Tab LArr
  /-- Outlier lists being added, by PF. -/
  outJobs : Tab (List OutJob)
  /-- Fallbacks holding or waiting for a place, by stack (R119): PF and array, in arrival order. -/
  fbPlaces : Tab (List (Nat × Nat))
  staged : Tab (List StagedArr)
  regions : Tab Region
  /-- The calibration store's sets, sets 0-3 and 4-7 of converter n of array a of facet pf at (pf * 256 + a) * 512 + n
  (R140). -/
  calStore : Tab (Nat × Nat)
  loader : Loader
  faults : Faults
  vault : Vault
  boot : Boot
  sec : Sec
  link : Link
  plant : Plant
  power : Power
  tap : Tap
  noc : Noc
  serve : Serve
  kv : Kv
  /-- Hub SRAM from 0x6000_0000_0000 (R420). -/
  hub : Mem
  ctl : Ctl
  raises : List Raise
  free : Nat
  out : List Out
  pending : List Instr
  deriving DecidableEq, Repr

def Noc.reset : Noc := ⟨[], [], [], []⟩
def Faults.reset : Faults := ⟨[], [], [], [], 0, [], 0, 0, []⟩

/-- A package of a variant right after reset: every register at its reset value (RegMap), every memory empty, nothing waiting. -/
def State.resetOf (v : Variant) : State where
  variant := v
  regs := []
  time := 0
  hbm := Mem.empty
  facets := []
  arrs := []
  larrs := []
  outJobs := []
  fbPlaces := []
  staged := []
  regions := []
  calStore := []
  loader := Loader.reset
  faults := Faults.reset
  vault := Vault.reset
  boot := Boot.reset
  sec := Sec.reset
  link := Link.reset
  plant := Plant.reset
  power := Power.reset
  tap := Tap.reset
  noc := Noc.reset
  serve := Serve.reset
  kv := Kv.reset
  hub := Mem.empty
  ctl := Ctl.reset
  raises := []
  free := 0
  out := []
  pending := []

/-- The machine right after reset (log entries 1 to 4 and 9): a ZLP-440 whose power sequence has run. -/
def State.reset : State := State.resetOf .zlp440

/-- Why the machine stops. -/
inductive Fault where
  /-- Raised by REGISTER_WRITE, WINDOW_READ and WINDOW_WRITE on an address the address map leaves unmapped
  (R417): the core takes an access fault, which is outside the block.  Safe. -/
  | unmapped (addr : Nat)
  deriving DecidableEq, Repr

/-- Why a command has no meaning in the model. -/
inductive Refusal where
  /-- Answered by exec's arm of a command the model gives no meaning yet.  Safe. -/
  | notModelled (mnemonic : String)
  deriving DecidableEq, Repr

/-- What a command answers. -/
abbrev Res := Host.Outcome State Fault Refusal

end Sys2Proof.Machine
end

