-- ==== Sys2Proof/Machine/Ops.lean ====
section
/-! DEFINITION. The named operations on registers, events, memory and facets that the commands share. -/

namespace Sys2Proof.Machine

/-- A register's value with all its fields at their reset values. -/
def Reg.resetVal (v : Variant) (r : Reg) : Nat :=
  (r.fields v).foldl (fun x row => setBits x row.fld.hi row.fld.lo row.reset) 0

/-- The value of a register. -/
def State.reg (s : State) (r : Reg) : Nat :=
  (Tab.getD s.regs r.key (BitVec.ofNat 64 (r.resetVal s.variant))).toNat

/-- A register set to a value. -/
def State.setReg (s : State) (r : Reg) (x : Nat) : State :=
  { s with regs := Tab.put s.regs r.key (BitVec.ofNat 64 (r.resetVal s.variant)) (BitVec.ofNat 64 x) }

/-- The value of a field. -/
def State.rd (s : State) (r : Reg) (f : Fld) : Nat := bits (s.reg r) f.hi f.lo

/-- A field set to a value (its low bits where it is too wide). -/
def State.wr (s : State) (r : Reg) (f : Fld) (v : Nat) : State := s.setReg r (setBits (s.reg r) f.hi f.lo v)

/-- Is a one-bit field set? -/
def State.on (s : State) (r : Reg) (f : Fld) : Bool := decide (s.rd r f = 1)

/-- A counter field increased, saturating at all ones. -/
def State.bump (s : State) (r : Reg) (f : Fld) (n : Nat) : State :=
  s.wr r f (min (s.rd r f + n) (2 ^ (f.hi + 1 - f.lo) - 1))

/-- An event's raise launched toward the event controller (R579). -/
def State.raise (s : State) (r : Raise) : State := { s with raises := s.raises ++ [r] }

/-- Something sent outward. -/
def State.emit (s : State) (o : Out) : State := { s with out := o :: s.out }

/-- The facet of a physical facet number. -/
def State.facet (s : State) (pf : Nat) : Facet := Tab.getD s.facets pf Facet.reset

/-- A facet replaced. -/
def State.setFacet (s : State) (pf : Nat) (f : Facet) : State :=
  { s with facets := Tab.put s.facets pf Facet.reset f }

/-- A facet's core replaced, in the open bundle's working core too, by a completion (log entry 10). -/
def State.asyncCore (s : State) (pf : Nat) (g : FCore → FCore) : State :=
  let f := s.facet pf
  s.setFacet pf { f with core := g f.core, bun := f.bun.map (fun b => { b with work := g b.work }) }

/-- The LF a facet holds (R6): FAC_BIND.lf, 0x3FF for none. -/
def State.lfOf (s : State) (pf : Nat) : Nat := s.rd (.FAC_BIND pf) F.FAC_BIND.lf

/-- The event of a facet (R421, R422). -/
def facEvent (pf code lf : Nat) (fields : List Nat) : Raise := ⟨0x400 + pf, code, pf, lf, fields⟩

/-- System time, as SYS_TIME holds it. -/
def State.sysClock (s : State) : Nat := s.reg .SYS_TIME

/-- The global region of a facet (R5, R7). -/
def regionOf (pf : Nat) : Nat := pf / 17

/-- The die of a facet (R5). -/
def dieOf (pf : Nat) : Nat := pf / 204

end Sys2Proof.Machine
end

