-- ==== Sys2Proof/Machine/FaultOps.lean ====
section
/-! DEFINITION. Unit descriptors (R448), fence records (R450), failure records (R472-R475), injection points
(R470), and HBM accesses with their poison (R454). -/

namespace Sys2Proof.Machine

/-- A unit descriptor (R448). -/
def unitDesc (kind major minor sub : Nat) : Nat := kind * 2 ^ 56 + major * 2 ^ 40 + minor * 2 ^ 24 + sub

/-- A byte range of HBM read, with its poison (R454). -/
def State.hbmRead (s : State) (a n : Nat) : List Byte × Bool := (s.hbm.read a n, s.hbm.rangePoison 64 a n)

/-- A byte string stored in HBM: a sector wholly written takes the data's poison, a sector written in part keeps
its own and takes the data's (R454). -/
def Mem.storeSectors (m : Mem) (sz a : Nat) (bs : List Byte) (poison : Bool) : Mem :=
  let n := bs.length
  let m := m.write a bs
  (List.range ((a + n + sz - 1) / sz - a / sz)).foldl (fun m i =>
    let u := a / sz + i
    if a ≤ u * sz ∧ (u + 1) * sz ≤ a + n then m.setPoison u poison
    else if poison then m.setPoison u true else m) m

/-- A byte string stored in HBM. -/
def State.hbmWrite (s : State) (a : Nat) (bs : List Byte) (poison : Bool) : State :=
  { s with hbm := s.hbm.storeSectors 64 a bs poison }

/-- The classes of R447, by their place in its table. -/
def clsCorrected : Nat := 0
def clsRecovered : Nat := 1
def clsContained : Nat := 2
def clsUnit : Nat := 3
def clsCapacity : Nat := 4
def clsLatent : Nat := 5
def clsPackage : Nat := 6

/-- CPER severity of a class (R447). -/
def severityOf (cls : Nat) : Nat := if cls = clsRecovered then 2 else if cls = clsPackage then 1 else 0

/-- A number in decimal digits with leading zeros, as ASCII. -/
def decAscii (w n : Nat) : List Byte :=
  (List.range w).map (fun i => BitVec.ofNat 8 (48 + n / 10 ^ (w - 1 - i) % 10))

/-- FRU text (R473): facets, arrays and converters as in its example; the spec names no other unit's text, which is
left free (log entry 31). -/
def fruText (desc : Nat) : List Byte :=
  let kind := bits desc 63 56
  let pf : List Byte := [0x50, 0x46] ++ decAscii 4 (bits desc 55 40)
  let arr : List Byte := [0x20, 0x41] ++ decAscii 3 (bits desc 39 24)
  let body := if kind = 3 then pf else if kind = 2 then pf ++ arr
    else (List.range 20).map (fun i => BitVec.ofNat 8 (Config.freeValue 31 (desc * 32 + i)))
  (body ++ List.replicate 20 0).take 20

/-- GUID bytes of the record header and section (R473), in UEFI byte order. -/
def guidAdeik : List Byte := toBytes 4 0x5A454C49 ++ toBytes 2 0x4552 ++ toBytes 2 0x4650 ++ [0x8A, 0x2E, 0x1F, 0x7C, 0x5D, 0x31, 0x4B, 0x6A]
def guidSection : List Byte := toBytes 4 0x9E04C27F ++ toBytes 2 0x3A18 ++ toBytes 2 0x4D6B ++ [0xB5, 0xC1, 0x7E, 0x2A, 0x0F, 0x39, 0xD8, 0x45]

/-- What a detector tells the fault block about a happening (R472, R474). -/
structure Report where
  cls : Nat
  detector : Nat
  injected : Bool
  confirmed : Bool
  truncated : Bool
  fenced : Bool
  unit : Nat
  step : Nat
  lf : Nat
  service : Nat
  code : Nat
  payload : List Byte
  deriving DecidableEq, Repr

/-- The Adeik section (R474). -/
def Report.section (r : Report) (time version gen : Nat) : List Byte :=
  toBytes 2 1 ++ toBytes 1 r.detector ++ toBytes 1 (b2n r.injected + 2 * b2n r.confirmed + 4 * b2n r.truncated + 8 * b2n r.fenced)
    ++ toBytes 4 r.payload.length ++ toBytes 8 r.unit ++ toBytes 8 time ++ toBytes 8 r.step ++ toBytes 2 r.lf
    ++ toBytes 2 r.service ++ toBytes 2 r.code ++ toBytes 2 0 ++ toBytes 4 version ++ toBytes 4 gen
    ++ List.replicate 16 0 ++ r.payload

/-- The CPER record of a happening (R473): header, section descriptor, Adeik section. -/
def Report.bytes (r : Report) (time version gen : Nat) (platform : List Byte) (boots seq : Nat) : List Byte :=
  let sec := r.section time version gen
  [0x43, 0x50, 0x45, 0x52] ++ toBytes 2 0x0101 ++ toBytes 4 0xFFFFFFFF ++ toBytes 2 1 ++ toBytes 4 (severityOf r.cls)
    ++ toBytes 4 1 ++ toBytes 4 (200 + sec.length) ++ toBytes 8 0 ++ (platform ++ List.replicate 16 0).take 16
    ++ List.replicate 16 0 ++ guidAdeik ++ guidAdeik ++ toBytes 8 (boots * 2 ^ 32 + seq % 2 ^ 32) ++ toBytes 4 0
    ++ toBytes 8 0 ++ List.replicate 12 0
    ++ toBytes 4 200 ++ toBytes 4 sec.length ++ toBytes 2 0x0100 ++ toBytes 1 1 ++ toBytes 1 0 ++ toBytes 4 1 ++ guidSection
    ++ toBytes 8 r.unit ++ List.replicate 8 0 ++ toBytes 4 (severityOf r.cls) ++ fruText r.unit ++ sec

/-- A failure record written to the ring (R472, R475); one that finds the ring full is dropped and counted. -/
def State.cper (s : State) (r : Report) : State :=
  let q := Reg.FLT_CPER_RING
  let tail := s.rd q F.FLT_CPER_RING.tail
  if (tail + 1) % 256 = s.rd q F.FLT_CPER_RING.head then
    let s := s.bump q F.FLT_CPER_RING.lost 1
    s.raise ⟨6, 0x1C8, 0xFFFF, 0xFFFF, [s.rd q F.FLT_CPER_RING.lost]⟩
  else
    let rec_ := r.bytes (s.reg .SYS_TIME) (s.rd .FW_STAT F.FW_STAT.version) s.faults.mapGen (s.sec.digest.take 16) s.faults.boots s.faults.seq
    let s := s.hbmWrite (s.rd q F.FLT_CPER_RING.addr * 2 ^ 21 + tail * 8192) rec_ false
    let s := s.wr q F.FLT_CPER_RING.tail ((tail + 1) % 256)
    { s with faults := { s.faults with seq := s.faults.seq + 1, toSend := s.faults.toSend ++ [tail] } }

/-- The proof of every enabled deadline service is run again (R373). -/
def State.rerun (s : State) : State :=
  (List.range 64).foldl (fun s sv =>
    if s.on (.SVC_CTL sv) F.SVC_CTL.enable && s.on (.SVC_CFG sv) F.SVC_CFG.deadline then s.wr (.SVC_STAT sv) F.SVC_STAT.busy 1 else s) s

/-- An entry appended to the disabled-unit map; not persistent when the map is full (R450). -/
def State.appendMap (s : State) (desc : Nat) : State :=
  if s.faults.map.length < 65536 then
    State.rerun { s with faults := { s.faults with map := s.faults.map ++ [desc], mapGen := s.faults.mapGen + 1 } }
  else s.wr .FLT_STAT F.FLT_STAT.map_full 1

/-- What every fence leaves besides its entry (R472, R476, R477): counted, recorded, FLT_FENCE raised.  `cause` is
the kind code of R470 of the detector, 0 without one (log entry 32). -/
def State.fenceReport (s : State) (desc cls cause lf : Nat) (payload : List Byte) : State :=
  let s := { s with faults := { s.faults with active := s.faults.active ++ [desc] } }
  let s := s.bump .FLT_STAT F.FLT_STAT.fences 1
  let s := s.cper ⟨cls, cause, false, false, false, true, desc, 0, lf, 0xFFFF, 0x1C0, payload⟩
  s.raise ⟨6, 0x1C0, 0xFFFF, 0xFFFF, [desc, cls, cause]⟩

/-- A fence recorded: its entry appended before FLT_FENCE is raised (R450). -/
def State.recordFence (s : State) (desc cls cause : Nat) (payload : List Byte := []) : State :=
  (s.appendMap desc).fenceReport desc cls cause 0xFFFF payload

/-- A facet's raise; an uncorrectable error in its SRAM also leaves a record (R472). -/
def State.raiseRec (s : State) (r : Raise) : State :=
  let s := s.raise r
  if r.code = 0x40A then
    s.cper ⟨clsContained, 0x0B, false, false, false, false, unitDesc 3 r.unit 0 0, 0, r.lf, 0xFFFF, r.code, toBytes 8 (r.fields.getD 0 0) ++ toBytes 8 0⟩
  else s

/-- FLT_POISON (R477): the consumer's kind and number, and the address. -/
def State.poisonSeen (s : State) (kind num addr : Nat) : State :=
  s.raise ⟨6, 0x1C6, 0xFFFF, 0xFFFF, [kind + num * 2 ^ 16, addr % 2 ^ 32, addr / 2 ^ 32 % 2 ^ 16]⟩

/-- Is an injection of a kind armed on a target (R470)? -/
def State.injArmed (s : State) (kind : Nat) (desc : Nat) : Bool :=
  s.on .FLT_INJ_CTL F.FLT_INJ_CTL.arm && decide (s.rd .FLT_INJ_CTL F.FLT_INJ_CTL.kind = kind)
    && decide (s.reg .FLT_INJ_SEL = desc)

/-- Is the armed injection a dry one (R470)? -/
def State.injDry (s : State) : Bool := s.on .FLT_INJ_CTL F.FLT_INJ_CTL.dry

/-- The injection performed (R470, R471): done set, arm cleared, FLT_INJ_DONE raised. -/
def State.injDone (s : State) : State :=
  let r := Reg.FLT_INJ_CTL
  let s1 := (s.wr r F.FLT_INJ_CTL.done 1).wr r F.FLT_INJ_CTL.arm 0
  s1.raise ⟨6, 0x1C9, 0xFFFF, 0xFFFF, [s.rd r F.FLT_INJ_CTL.kind, s.reg .FLT_INJ_SEL, s.rd r F.FLT_INJ_CTL.dry]⟩

/-- A hub fenced (R18, R449). -/
def State.hubFenced (s : State) (h : Nat) : Bool := s.faults.active.contains (unitDesc 7 h 0 0)

/-- The region's record. -/
def State.region (s : State) (g : Nat) : Region := Tab.getD s.regions g Region.reset
/-- The region's record replaced. -/
def State.setRegion (s : State) (g : Nat) (x : Region) : State := { s with regions := Tab.put s.regions g Region.reset x }

/-- The region is COLD (R531): an AISS waits, no step is dispatched, calibration and refresh do not start (R532). -/
def State.regionCold (s : State) (g : Nat) : Bool := decide (s.rd (.REGION_THERM g) F.REGION_THERM.state = 1)

/-- An event of a region (R166, R421). -/
def regionEvent (g code : Nat) (fields : List Nat) : Raise := ⟨0x40 + g, code, g, 0xFFFF, fields⟩

/-- The LF an event or record carries: 0xFFFF for none. -/
def State.lfField (s : State) (pf : Nat) : Nat := if s.lfOf pf = 0x3FF then 0xFFFF else s.lfOf pf

/-- A record of the loupe sent, or dropped and counted while it may not send; LOUPE_TRIG_OUT pulses at
an event record (R566). -/
def State.loupeSend (s : State) (kind : Nat) (body : List Byte) : State :=
  let on := s.on .LOUPE_CTL F.LOUPE_CTL.enable && (!s.on .LOUPE_CTL F.LOUPE_CTL.trig_mode || s.ctl.loupe)
  if !on then s
  else if s.on .SEC_STAT F.SEC_STAT.locked then s.bump .LOUPE_CTL F.LOUPE_CTL.dropped 1
  else
    let s := s.emit (.loupe (toBytes 2 kind ++ List.replicate 6 0 ++ body))
    if kind = 1 then s.emit .trigOut else s

end Sys2Proof.Machine
end

