-- ==== Sys2Proof/Machine/Float.lean ====
section
/-! DEFINITION. The number formats of 03_number_formats.md: layouts (R53-R58), rounding and saturation
(R64-R66), FP32 arithmetic (R67), T5 (R56). A finite value is an exact dyadic number: a magnitude times a
power of two, with a sign. -/

namespace Sys2Proof.Machine

/-- A floating-point value, exactly: `fin neg mag e` is (-1)^neg * mag * 2^e. -/
inductive FVal where
  | nan
  | inf (neg : Bool)
  | fin (neg : Bool) (mag : Nat) (e : Int)
  deriving DecidableEq, Repr

/-- The layout of a format (R58): widths of exponent and mantissa, bias, code of the largest finite
magnitude, code of infinity (if the format has one), canonical NaN (R59, if it has one). -/
structure FFmt where
  eb : Nat
  mb : Nat
  bias : Nat
  maxCode : Nat
  inf : Option Nat
  nan : Option Nat
  deriving DecidableEq, Repr

/-- R58's floating-point formats by their code (R53). -/
def ffmt : Nat → Option FFmt
  | 5 => some ⟨2, 1, 1, 7, none, none⟩
  | 6 => some ⟨4, 3, 7, 0x7E, none, some 0x7F⟩
  | 7 => some ⟨5, 2, 15, 0x7B, some 0x7C, some 0x7E⟩
  | 8 => some ⟨5, 10, 15, 0x7BFF, some 0x7C00, some 0x7E00⟩
  | 9 => some ⟨8, 7, 127, 0x7F7F, some 0x7F80, some 0x7FC0⟩
  | 10 => some ⟨8, 23, 127, 0x7F7FFFFF, some 0x7F800000, some 0x7FC00000⟩
  | _ => none

/-- The FP32 layout. -/
def fp32 : FFmt := ⟨8, 23, 127, 0x7F7FFFFF, some 0x7F800000, some 0x7FC00000⟩
/-- The FP16 layout. -/
def fp16 : FFmt := ⟨5, 10, 15, 0x7BFF, some 0x7C00, some 0x7E00⟩
/-- The BF16 layout. -/
def bf16 : FFmt := ⟨8, 7, 127, 0x7F7F, some 0x7F80, some 0x7FC0⟩

/-- Bits of an element of a format in registers (R53, R55: TRIT takes a byte). -/
def fmtBits : Nat → Nat
  | 0 => 8
  | 1 => 4
  | 2 => 8
  | 3 => 16
  | 4 => 32
  | 5 => 4
  | 6 => 8
  | 7 => 8
  | 8 => 16
  | 9 => 16
  | _ => 32

/-- The largest signed magnitude bit: width of a code of the format. -/
def FFmt.width (f : FFmt) : Nat := f.eb + f.mb + 1

/-- The value of a code (R58). -/
def FFmt.decode (f : FFmt) (code : Nat) : FVal :=
  let neg := bitAt code (f.eb + f.mb)
  let a := code % 2 ^ (f.eb + f.mb)
  if a > f.maxCode then (if f.inf = some a then .inf neg else .nan)
  else
    let ex := a / 2 ^ f.mb
    let man := a % 2 ^ f.mb
    if ex = 0 then .fin neg man (1 - (f.bias : Int) - f.mb)
    else .fin neg (man + 2 ^ f.mb) ((ex : Int) - f.bias - f.mb)

/-- Round to nearest, ties to even, of mag / 2^sh (R64). -/
def rne (mag sh : Nat) : Nat :=
  if sh = 0 then mag
  else
    let q := mag / 2 ^ sh
    let r := mag % 2 ^ sh
    let half := 2 ^ (sh - 1)
    if r > half ∨ (r = half ∧ q % 2 = 1) then q + 1 else q

/-- The exponent of the last place of a value mag * 2^e in the format. -/
def FFmt.lsb (f : FFmt) (mag : Nat) (e : Int) : Int :=
  max (1 - (f.bias : Int) - f.mb) ((Nat.log2 mag : Int) + e - f.mb)

/-- mag * 2^(e - q) rounded to an integer (R64). -/
def scaleRne (mag : Nat) (e q : Int) : Nat :=
  if q ≤ e then mag * 2 ^ (e - q).toNat else rne mag (q - e).toNat

/-- mag * 2^(e - q) rounded down. -/
def scaleFloor (mag : Nat) (e q : Int) : Nat :=
  if q ≤ e then mag * 2 ^ (e - q).toNat else mag / 2 ^ (q - e).toNat

/-- The sign bit of a code. -/
def FFmt.signBit (f : FFmt) (neg : Bool) : Nat := if neg then 2 ^ (f.eb + f.mb) else 0

/-- The code of a finite magnitude, rounded by R64, before saturation. -/
def FFmt.codeRne (f : FFmt) (mag : Nat) (e : Int) : Nat :=
  if mag = 0 then 0
  else
    let q := f.lsb mag e
    (q - (1 - (f.bias : Int) - f.mb)).toNat * 2 ^ f.mb + scaleRne mag e q

/-- The code of a value: rounded by R64, saturated by R66, NaN and infinity by R59 and R66. -/
def FFmt.encode (f : FFmt) : FVal → Nat
  | .nan => f.nan.getD 0
  | .inf neg => f.signBit neg + f.inf.getD f.maxCode
  | .fin neg mag e => f.signBit neg + min (f.codeRne mag e) f.maxCode

/-- The value of an integer. -/
def ofInt (i : Int) : FVal := .fin (decide (i < 0)) i.natAbs 0

/-- The signed integer mag at the scale `e`, with a sign. -/
def signed (neg : Bool) (mag : Nat) : Int := if neg then -(mag : Int) else mag

/-- The exact sum, with the sign of an exact zero by IEEE 754 (R67). -/
def fadd : FVal → FVal → FVal
  | .nan, _ => .nan
  | _, .nan => .nan
  | .inf a, .inf b => if a = b then .inf a else .nan
  | .inf a, _ => .inf a
  | _, .inf b => .inf b
  | .fin na ma ea, .fin nb mb eb =>
    let e := min ea eb
    let i := signed na (ma * 2 ^ (ea - e).toNat) + signed nb (mb * 2 ^ (eb - e).toNat)
    if i = 0 then .fin (na && nb) 0 e else .fin (decide (i < 0)) i.natAbs e

/-- Negation of the sign. -/
def fneg : FVal → FVal
  | .nan => .nan
  | .inf a => .inf (!a)
  | .fin n m e => .fin (!n) m e

/-- The magnitude. -/
def fabs : FVal → FVal
  | .nan => .nan
  | .inf _ => .inf false
  | .fin _ m e => .fin false m e

/-- The exact product (R67). -/
def fmul : FVal → FVal → FVal
  | .nan, _ => .nan
  | _, .nan => .nan
  | .inf a, .inf b => .inf (a != b)
  | .inf a, .fin n m _ => if m = 0 then .nan else .inf (a != n)
  | .fin n m _, .inf b => if m = 0 then .nan else .inf (n != b)
  | .fin na ma ea, .fin nb mb eb => .fin (na != nb) (ma * mb) (ea + eb)

/-- Multiplication by a power of two, exactly. -/
def fscale (k : Int) : FVal → FVal
  | .fin n m e => .fin n m (e + k)
  | x => x

/-- One FP32 operation: exact, then one rounding. -/
def r32 (x : FVal) : Nat := fp32.encode x

def f32 (code : Nat) : FVal := fp32.decode code

def addF (a b : Nat) : Nat := r32 (fadd (f32 a) (f32 b))
def subF (a b : Nat) : Nat := r32 (fadd (f32 a) (fneg (f32 b)))
def mulF (a b : Nat) : Nat := r32 (fmul (f32 a) (f32 b))
def fmaF (a b c : Nat) : Nat := r32 (fadd (fmul (f32 a) (f32 b)) (f32 c))

/-- Comparison of two values, `none` with a NaN; -0 equals +0. -/
def fcmp : FVal → FVal → Option Ordering
  | .nan, _ => none
  | _, .nan => none
  | .inf a, .inf b => some (if a = b then .eq else if a then .lt else .gt)
  | .inf a, _ => some (if a then .lt else .gt)
  | _, .inf b => some (if b then .gt else .lt)
  | .fin na ma ea, .fin nb mb eb =>
    let e := min ea eb
    some (compare (signed na (ma * 2 ^ (ea - e).toNat)) (signed nb (mb * 2 ^ (eb - e).toNat)))

/-- Is the value negative in sign? -/
def fsign : FVal → Bool
  | .nan => false
  | .inf n => n
  | .fin n _ _ => n

/-- IEEE 754 maximum: NaN propagates, -0 below +0 (R67). -/
def fmax (a b : FVal) : FVal :=
  match fcmp a b with
  | none => .nan
  | some .lt => b
  | some .gt => a
  | some .eq => if fsign a then b else a

/-- IEEE 754 minimum: NaN propagates, -0 below +0 (R67). -/
def fmin (a b : FVal) : FVal :=
  match fcmp a b with
  | none => .nan
  | some .lt => a
  | some .gt => b
  | some .eq => if fsign a then a else b

/-- A bit-by-bit integer square root, `k` bits of result. -/
def isqrtFrom (x : Nat) : Nat → Nat → Nat
  | 0, r => r
  | k + 1, r =>
    let t := r + 2 ^ k
    isqrtFrom x k (if t * t ≤ x then t else r)

/-- The integer square root of `x`. -/
def isqrt (x : Nat) : Nat := isqrtFrom x (Nat.log2 x / 2 + 1) 0

/-- A result within the 1-ulp bound of R73, from a truncated exact value `mag * 2^e` (`inexact` when the
truncation lost something): one of the two neighbours if the value is not representable; if it is, and
the spec does not call the case exact, the value or a neighbour of it. -/
def ulpPick (choice : Nat) (exactCase : Bool) (mag : Nat) (e : Int) (inexact : Bool) : Nat :=
  let q := fp32.lsb mag e
  let n := scaleFloor mag e q
  let c := (q - (1 - (127 : Int) - 23)).toNat * 2 ^ 23 + n
  let exact := !inexact && decide (scaleRne mag e q * 2 ^ (q - e).toNat = mag * 2 ^ (e - q).toNat)
  let r := if exact then (if exactCase then c else if choice % 3 = 0 then c else if choice % 3 = 1 then c + 1 else c - 1)
    else if choice % 2 = 0 then c else c + 1
  min r fp32.maxCode

/-- The reciprocal (R67, R73). -/
def rcpF (a : Nat) : Nat :=
  match f32 a with
  | .nan => 0x7FC00000
  | .inf n => fp32.signBit n
  | .fin n m e =>
    if m = 0 then fp32.signBit n + 0x7F800000
    else fp32.signBit n + ulpPick (Config.ulpChoice 1 a) true (2 ^ 200 / m) (-e - 200) (decide (2 ^ 200 % m ≠ 0))

/-- The reciprocal square root (R67, R73). -/
def rsqrtF (a : Nat) : Nat :=
  match f32 a with
  | .nan => 0x7FC00000
  | .inf n => if n then 0x7FC00000 else 0
  | .fin n m e =>
    if m = 0 then fp32.signBit n + 0x7F800000
    else if n then 0x7FC00000
    else
      let odd := e % 2 ≠ 0
      let m2 := if odd then 2 * m else m
      let e2 := if odd then e - 1 else e
      let t := isqrt (2 ^ 400 / m2)
      ulpPick (Config.ulpChoice 2 a) false t (-(e2 / 2) - 200) (decide (t * t * m2 ≠ 2 ^ 400))

/-- 2^(1/2^i) in units of 2^-160, by i square roots of 2. -/
def rootOfTwo : Nat → Nat
  | 0 => 2 ^ 161
  | i + 1 => isqrt (rootOfTwo i * 2 ^ 160)

/-- 2^f in units of 2^-160, for the fraction f = x / 2^64, from the top bit down; `r` is the current root. -/
def exp2Bits (x : Nat) : Nat → Nat → Nat → Nat
  | 0, _, acc => acc
  | k + 1, r, acc =>
    let r' := isqrt (r * 2 ^ 160)
    exp2Bits x k r' (if bitAt x k then acc * r' / 2 ^ 160 else acc)

/-- The power of two (R67, R73): exact for integers, else within 1 ulp. -/
def exp2F (a : Nat) : Nat :=
  match f32 a with
  | .nan => 0x7FC00000
  | .inf n => if n then 0 else 0x7F800000
  | .fin n m e =>
    let x64 : Int := signed n (scaleFloor m (e + 64) 0)
    let lost : Bool := decide (e + 64 < 0) && decide (m % 2 ^ (-(e + 64)).toNat ≠ 0)
    -- toward minus infinity
    let x64 := if n && lost then x64 - 1 else x64
    let k : Int := x64 / 2 ^ 64
    let f := (x64 % 2 ^ 64).toNat
    if k > 300 then fp32.maxCode
    else if k < -400 then ulpPick (Config.ulpChoice 0 a) true 1 (-400) true
    else if f = 0 && !lost then fp32.encode (.fin false 1 k)
    else ulpPick (Config.ulpChoice 0 a) true (exp2Bits f 64 (2 ^ 161) (2 ^ 160)) (k - 160) true

/-- An integer value rounded from a float (R64), with the flag for a NaN. -/
def toInt : FVal → Option Int
  | .nan => none
  | .inf n => some (signed n (2 ^ 200))
  | .fin n m e => some (signed n (scaleRne m e 0))

/-- The range of an integer format (R55), TRIT's being -1 to 1 (R65). -/
def intRange : Nat → Int × Int
  | 0 => (-1, 1)
  | 1 => (-8, 7)
  | 2 => (-128, 127)
  | 3 => (-32768, 32767)
  | _ => (-2147483648, 2147483647)

/-- Clamp to a range, with the flag for a changed value (R66). -/
def clampI (r : Int × Int) (i : Int) : Int × Bool :=
  if i < r.1 then (r.1, true) else if r.2 < i then (r.2, true) else (i, false)

/-- Saturation to INT32 (R72), with the flag. -/
def sat32 (i : Int) : Int × Bool := clampI (-2147483648, 2147483647) i

/-- Is the code an integer format's (R53)? -/
def isIntFmt (f : Nat) : Bool := decide (f ≤ 4)

/-- The value of an element of format `f`; none for a TRIT byte that is no trit (R55). -/
def elemVal (f code : Nat) : Option FVal :=
  match ffmt f with
  | some ff => some (ff.decode code)
  | none =>
    let i := sext (fmtBits f) code
    if f = 0 ∧ ¬ (i = -1 ∨ i = 0 ∨ i = 1) then none else some (ofInt i)

/-- What one conversion answers: the code, and whether it counts in int_sat and in nan_lost (R74). -/
structure Conv where
  code : Nat
  sat : Bool
  lost : Bool
  deriving DecidableEq, Repr

/-- The conversion of R65 and R66 of an element value into format `df`. -/
def convert (v : FVal) (df : Nat) : Conv :=
  match ffmt df with
  | some ff => ⟨ff.encode (match v with | .nan => if ff.nan.isSome then .nan else .fin false 0 0
                                        | .fin n 0 e => .fin n 0 e
                                        | x => x), false, decide (v = .nan) && ff.nan.isNone⟩
  | none =>
    match toInt v with
    | none => ⟨0, false, true⟩
    | some i =>
      let c := clampI (intRange df) i
      ⟨toCode (fmtBits df) c.1, c.2, false⟩

/-- T5 (R56): the five trits of a byte, none for 243 to 255 (R57). -/
def t5Decode (b : Nat) : Option (List Int) :=
  if b ≥ 243 then none
  else some [(b % 3 : Int) - 1, (b / 3 % 3 : Int) - 1, (b / 9 % 3 : Int) - 1, (b / 27 % 3 : Int) - 1, (b / 81 % 3 : Int) - 1]

/-- T5 (R56): the byte of five trits. -/
def t5Encode (t : List Int) : Nat := (t.foldr (fun x b => b * 3 + (x + 1)) 0).toNat

end Sys2Proof.Machine
end

