-- ==== Sys2Proof/Machine/Operands.lean ====
section
/-! DEFINITION. The operands of the facet's slots: registers with their poison (R167, R168), vector groups
(R208), the scoreboard (R181), immediates (R209), data SRAM accesses with their ECC (R172, R175). -/

namespace Sys2Proof.Machine

/-- What a slot with a true guard answers: its effect on the working core, an exception's code (R191), or a
stall with its cause (R185): 0 array, 1 tensor, 2 movement, 3 sync, 4 register, 5 a STEP on an empty queue. -/
inductive SlotRes where
  | ok (w : FCore)
  | exc (code : Nat)
  | stall (cause : Nat)
  deriving DecidableEq, Repr

/-- A scalar register read (R168: S0 reads zero, never poisoned). -/
def FCore.rdS (c : FCore) (n : Nat) : SReg := if n = 0 then ⟨0, false⟩ else Tab.getD c.s n ⟨0, false⟩

/-- A scalar register written (R168: S0 ignores writes). -/
def FCore.wrS (c : FCore) (n : Nat) (r : SReg) : FCore :=
  if n = 0 then c else { c with s := Tab.put c.s n ⟨0, false⟩ r }

/-- A predicate read (R168: P0 reads 1, never poisoned). -/
def FCore.rdP (c : FCore) (n : Nat) : PReg := if n = 0 then ⟨true, false⟩ else Tab.getD c.p n ⟨false, false⟩

/-- A predicate written (R168: P0 ignores writes). -/
def FCore.wrP (c : FCore) (n : Nat) (r : PReg) : FCore :=
  if n = 0 then c else { c with p := Tab.put c.p n ⟨false, false⟩ r }

/-- A handle read. -/
def FCore.rdH (c : FCore) (n : Nat) : SReg := Tab.getD c.h n ⟨0, false⟩

/-- A handle written. -/
def FCore.wrH (c : FCore) (n : Nat) (r : SReg) : FCore := { c with h := Tab.put c.h n ⟨0, false⟩ r }

/-- Bytes of a vector group from register `v`, with their poison (R208). -/
def FCore.vBytes (c : FCore) (v n : Nat) : List (Byte × Bool) :=
  (List.range n).map (fun i => (c.v.byte (v * 512 + i), c.v.isPoison (v * 512 + i)))

/-- One vector byte written with its poison. -/
def FCore.wrVByte (c : FCore) (a : Nat) (b : Byte × Bool) : FCore :=
  { c with v := (c.v.setByte a b.1).setPoison a b.2 }

/-- A byte string written to a vector group from byte `a`. -/
def FCore.wrVBytes (c : FCore) (a : Nat) : List (Byte × Bool) → FCore
  | [] => c
  | b :: t => FCore.wrVBytes (c.wrVByte a b) (a + 1) t

/-- A lane of a vector register: its 32 bits and its poison (R221). -/
def FCore.lane (c : FCore) (v i : Nat) : Nat × Bool :=
  (c.v.readNat (v * 512 + 4 * i) 4, c.v.rangePoison 1 (v * 512 + 4 * i) 4)

/-- The 128 lanes of a vector register. -/
def FCore.lanes (c : FCore) (v : Nat) : List (Nat × Bool) := (List.range 128).map (c.lane v)

/-- Four bytes with one poison bit. -/
def laneBytes (x : Nat × Bool) : List (Byte × Bool) := (toBytes 4 x.1).map (fun b => (b, x.2))

/-- A vector register written as lanes. -/
def FCore.wrLanes (c : FCore) (v : Nat) (xs : List (Nat × Bool)) : FCore :=
  c.wrVBytes (v * 512) (xs.flatMap laneBytes)

/-- Registers a tile drain fills (R237). -/
def TDrain.regs (d : TDrain) : Nat := (d.rows * 64 * (fmtBits d.df / 8) + 511) / 512

/-- Bytes a tile drain delivers (R237). -/
def TDrain.bytes (d : TDrain) : Nat := d.rows * 64 * (fmtBits d.df / 8)

/-- Every tile drain not yet complete: queued or on the drain path. -/
def FCore.tdrains (c : FCore) : List TDrain :=
  c.moving ++ c.tq.filterMap (fun o => match o with | .drain d => some d | _ => none)

/-- Slices of a handle (R171). -/
def handleSlices (h : Nat) : Nat := if bits h 27 26 = 0 then 1 else if bits h 27 26 = 1 then 3 else 6

/-- Column tiles of a handle (R171). -/
def handleTiles (h : Nat) : Nat := bits h 15 8 / handleSlices h

/-- The bytes of data SRAM an array drain fills (R231). -/
def ADrain.bytes (d : ADrain) : Nat := handleTiles d.handle * 4096

/-- The scoreboard on a vector register: the cause of the wait, if it is a drain's destination (R181). -/
def FCore.pendV (c : FCore) (v : Nat) : Option Nat :=
  if c.drains.any (fun d => !d.toMem && decide (d.dst ≤ v) && decide (v < d.dst + 8)) then some 0
  else if c.tdrains.any (fun d => !d.toMem && decide (d.dst ≤ v) && decide (v < d.dst + d.regs)) then some 1
  else none

/-- The scoreboard on a scalar register: the scale byte of an array drain (R231). -/
def FCore.pendS (c : FCore) (n : Nat) : Option Nat :=
  if n ≠ 0 ∧ c.drains.any (fun d => !d.toMem && decide (d.sd = n)) then some 0 else none

/-- The scoreboard on a predicate: the status of a RECV (R244). -/
def FCore.pendP (c : FCore) (n : Nat) : Option Nat :=
  if n ≠ 0 ∧ c.recvs.any (fun r => decide (r.pd = n)) then some 3 else none

/-- Does a drain still have to write the range (R187)? -/
def FCore.pendMem (c : FCore) (a n : Nat) : Option Nat :=
  if c.drains.any (fun d => d.toMem && decide (d.dst < a + n) && decide (a < d.dst + d.bytes)) then some 0
  else if c.tdrains.any (fun d => d.toMem && decide (d.dst < a + n) && decide (a < d.dst + d.bytes)) then some 1
  else none

/-- The first cause of a list of waits, in the order array, tensor, movement, sync, register (R185). -/
def firstWait (l : List (Option Nat)) : Option Nat :=
  l.foldl (fun a b => match a, b with
    | none, y => y
    | x, none => x
    | some x, some y => some (min x y)) none

/-- Proceed unless something must be waited for (R181). -/
def waitFor (l : List (Option Nat)) (k : SlotRes) : SlotRes :=
  match firstWait l with
  | some c => .stall c
  | none => k

/-- The lowest code of the causes that hold (R191). -/
def lowestCause (l : List (Bool × Nat)) : Option Nat :=
  l.foldl (fun a b => if b.1 then (match a with | none => some b.2 | some x => some (min x b.2)) else a) none

/-- Proceed unless an exception's cause holds (R191). -/
def raiseIf (l : List (Bool × Nat)) (k : SlotRes) : SlotRes :=
  match lowestCause l with
  | some c => .exc c
  | none => k

/-- The cause codes of R191. -/
def excIllegalBundle : Nat := 1
def excIllegalFormat : Nat := 2
def excIllegalHandle : Nat := 3
def excAddress : Nat := 4
def excPc : Nat := 5
def excPoisonCtl : Nat := 6
def excLoop : Nat := 7
def excMovement : Nat := 8
def excSync : Nat := 9
def excFetch : Nat := 10

/-- register + immediate modulo 2^64 (R209). -/
def localAddr (ra : Word64) (immBits imm : Nat) : Nat := toCode 64 ((ra.toNat : Int) + sext immBits imm)

/-- Is a range of data SRAM addressable (R172)? -/
def sramOk (a n align : Nat) : Bool := decide (a + n ≤ 0x600000) && decide (a % align = 0)

/-- A retention buffer whose source range a write touches loses its contents (R250). -/
def Staged.touch (r : Staged) (a n : Nat) : Staged :=
  if r.ranges.any (fun g => decide (g.1 < a + n) && decide (a < g.1 + g.2)) then { r with valid := false } else r

/-- Both retention buffers after a write of a range (R250). -/
def FCore.touch (c : FCore) (a n : Nat) : FCore :=
  { c with retA := c.retA.map (fun r => r.touch a n), retB := c.retB.map (fun r => r.touch a n) }

/-- A write of whole words of data SRAM: bytes with their poison, latent errors replaced (R175). -/
def FCore.sramStore (c : FCore) (a : Nat) (bs : List Byte) (poisonedWords : List Nat) : FCore :=
  let n := bs.length
  let m := (c.sram.write a bs).setRangePoison 8 a n false
  let m := poisonedWords.foldl (fun m w => m.setPoison w true) m
  let keep := fun w => decide (w < a / 8) || decide ((a + n + 7) / 8 ≤ w)
  { c with sram := m, latentCe := c.latentCe.filter keep, latentUe := c.latentUe.filter keep }.touch a n

/-- The ECC of a word read (R175): corrected and counted, or poisoned, counted and reported. -/
def FCore.eccRead (pf : Nat) (c : FCore) (w : Nat) : FCore :=
  if c.latentUe.contains w then
    { c with sram := c.sram.setPoison w true, latentUe := c.latentUe.filter (fun k => decide (k ≠ w))
             eff := c.eff ++ [.bump (.FAC_ERR pf) F.FAC_ERR.sram_ue 1, .raise (facEvent pf 0x40A 0xFFFF [w * 8])] }
  else if c.latentCe.contains w then
    { c with latentCe := c.latentCe.filter (fun k => decide (k ≠ w))
             eff := c.eff ++ [.bump (.FAC_ERR pf) F.FAC_ERR.sram_ce 1] }
  else c

/-- The ECC of every word that a range touches (R175). -/
def FCore.eccRange (pf : Nat) (c : FCore) (a n : Nat) : FCore :=
  (List.range ((a + n + 7) / 8 - a / 8)).foldl (fun c i => c.eccRead pf (a / 8 + i)) c

end Sys2Proof.Machine
end

