-- ==== Sys2Proof/Machine/ArrayOps.lean ====
section
/-! DEFINITION. The shared operations of the array islands: issue into row buffers (R78), aperture (R81),
bindings (R96, R405), converters and their fences (R89-R91), promotion (R93, R94), takeover requests (R121). -/

namespace Sys2Proof.Machine

def State.parr (s : State) (pf a : Nat) : PArr := Tab.getD s.arrs (pf * 256 + a) PArr.reset
def State.setParr (s : State) (pf a : Nat) (x : PArr) : State :=
  { s with arrs := Tab.put s.arrs (pf * 256 + a) PArr.reset x }
def State.larr (s : State) (pf n : Nat) : LArr := Tab.getD s.larrs (pf * 128 + n) LArr.reset
def State.setLarr (s : State) (pf n : Nat) (x : LArr) : State :=
  { s with larrs := Tab.put s.larrs (pf * 128 + n) LArr.reset x }
def LArr.bank (x : LArr) (b : Nat) : Bank := if b = 0 then x.bank0 else x.bank1
def LArr.setBank (x : LArr) (b : Nat) (k : Bank) : LArr := if b = 0 then { x with bank0 := k } else { x with bank1 := k }

/-- The physical array bound to a logical one (R8, R101). -/
def State.physOf (s : State) (pf n : Nat) : Nat := s.rd (.ARR_MAP pf n) F.ARR_MAP.phys

/-- Physical arrays of a facet (R8). -/
def Variant.arrays (v : Variant) : Nat := if v = .zlp440 then 132 else 66
/-- Logical arrays of a facet (R8). -/
def Variant.logicals (v : Variant) : Nat := if v = .zlp440 then 128 else 64

def State.arrState (s : State) (pf a : Nat) : Nat := s.rd (.ARR_STAT pf a) F.ARR_STAT.state
def State.setArrState (s : State) (pf a st : Nat) : State := s.wr (.ARR_STAT pf a) F.ARR_STAT.state st

/-- The logical array a physical one is bound to, if any. -/
def State.logicalOf (s : State) (pf a : Nat) : Option Nat :=
  (List.range s.variant.logicals).find? (fun n => decide (s.physOf pf n = a) && decide (s.arrState pf a = 1 ∨ s.arrState pf a = 4))

/-- Row `r` active in plane `b` (R79). -/
def rowActive (xs : List Int) (b r : Nat) : Bool := bitAt (xs.getD r 0).natAbs b

/-- The rows active in a plane. -/
def activeRows (xs : List Int) (b : Nat) : List Nat := (List.range 1024).filter (rowActive xs b)

/-- R83's widest aperture for a policy code. -/
def apMax (code : Nat) : Nat := match code with
  | 0 => 256
  | 1 => 128
  | 2 => 64
  | _ => 32

/-- No window of aperture `a` holds more than 63 active rows. -/
def windowsFit (act : List Nat) (a : Nat) : Bool :=
  (List.range (1024 / a)).all (fun w => decide ((act.filter (fun r => decide (r / a = w))).length ≤ 63))

/-- The aperture of a plane (R81); 0 when no row is active. -/
def chooseAperture (act : List Nat) (amax : Nat) : Nat :=
  if act.isEmpty then 0
  else if 256 ≤ amax ∧ windowsFit act 256 then 256
  else if 128 ≤ amax ∧ windowsFit act 128 then 128
  else if 64 ≤ amax ∧ windowsFit act 64 then 64
  else 32

/-- Polarity of a row (R63). -/
def rowSign (xs : List Int) (r : Nat) : Int := if xs.getD r 0 < 0 then -1 else 1

/-- The exact plane sums S_b(j), by column (R92). -/
def planeSums (w : Tab Int) (xs : List Int) (b : Nat) : Tab Int :=
  w.foldl (fun t e =>
    if rowActive xs b (e.1 / 1024) then
      Tab.put t (e.1 % 1024) 0 (Tab.getD t (e.1 % 1024) 0 + rowSign xs (e.1 / 1024) * e.2)
    else t) []

/-- The exact sum of one window of a column (R82). -/
def windowSum (w : Tab Int) (xs : List Int) (b ap win col : Nat) : Int :=
  w.foldl (fun t e =>
    if e.1 % 1024 = col ∧ e.1 / 1024 / ap = win ∧ rowActive xs b (e.1 / 1024) then t + rowSign xs (e.1 / 1024) * e.2
    else t) 0

/-- c(r, g) of a check-store entry (R109, R110). -/
def checkValue (entry : Mem) (r g : Nat) : Nat := bits (entry.readNat (3 * r) 3) (6 * g + 5) (6 * g)

/-- The expected residue E(b, g) (R111). -/
def expectedResidue (entry : Mem) (xs : List Int) (b g : Nat) : Nat :=
  (((activeRows xs b).foldl (fun (t : Int) r => t + rowSign xs r * (checkValue entry r g : Int)) 0) % 64).toNat

/-- The observed residue O(b, g) of narrow sums (R112). -/
def observedResidue (sums : Tab Int) (g : Nat) : Nat :=
  ((sums.foldl (fun (t : Int) e => if e.1 / 256 = g then t + e.2 else t) 0) % 64).toNat

/-- A 32-bit cell as an integer. -/
def Bank.get (k : Bank) (j : Nat) : Int := sext 32 (k.cells.readNat (4 * j) 4)

/-- One wide addition of a column, saturating (R94, R72); the flag tells a saturation. -/
def Bank.addCol (k : Bank) (j : Nat) (x : Int) : Bank × Bool :=
  let r := sat32 (k.get j + x)
  ({ k with cells := k.cells.writeNat (4 * j) 4 (toCode 32 r.1) }, r.2)

/-- Promotion of a group's narrow sums, shifted by the plane (R93), with the number of saturations. -/
def Bank.promote (k : Bank) (sums : Tab Int) (b g : Nat) : Bank × Nat :=
  sums.foldl (fun acc e =>
    if e.1 / 256 = g then
      let r := acc.1.addCol e.1 (e.2 * 2 ^ b)
      (r.1, acc.2 + b2n r.2)
    else acc) (k, 0)

/-- Every column of a range of columns poisoned. -/
def Bank.poisonCols (k : Bank) (j n : Nat) : Bank := { k with cells := k.cells.setRangePoison 4 (4 * j) (4 * n) true }

/-- The mirror converters of an array with a role (R107). -/
def State.mirrorsIn (s : State) (pf a role : Nat) : List Nat :=
  ((List.range 8).map (· + 256)).filter (fun n => decide (s.rd (.CONV_STAT pf a n) F.CONV_STAT.role = role))

/-- The lowest-numbered FREE mirror converter (R89). -/
def State.freeMirror (s : State) (pf a : Nat) : Option Nat := (s.mirrorsIn pf a 1).head?

/-- ARR_STAT_n.mirror_free brought up to date (R102). -/
def State.countFree (s : State) (pf a : Nat) : State :=
  s.wr (.ARR_STAT pf a) F.ARR_STAT.mirror_free (s.mirrorsIn pf a 1).length

/-- A converter's role and position set. -/
def State.setConv (s : State) (pf a n role serves : Nat) : State :=
  (s.wr (.CONV_STAT pf a n) F.CONV_STAT.role role).wr (.CONV_STAT pf a n) F.CONV_STAT.serves serves

/-- The converter serving a position. -/
def State.srv (s : State) (pf a p : Nat) : Nat := s.rd (.CONV_MAP pf a p) F.CONV_MAP.srv

/-- Takeover of a physical array requested, once per request (R121, R91). -/
def State.requestTakeover (s : State) (pf a : Nat) : State :=
  if s.on (.SP_ARR pf a) F.SP_ARR.takeover_req then s
  else
    let s := s.wr (.SP_ARR pf a) F.SP_ARR.takeover_req 1
    s.raise (facEvent pf 0x405 0xFFFF [a, (s.logicalOf pf a).getD 0xFF])

/-- Software writes of a position's CONV_MAP discarded, because hardware changed it (R106). -/
def State.dropMapWrite (s : State) (pf a pos : Nat) : State :=
  let x := s.parr pf a
  (s.setParr pf a { x with pendMap := x.pendMap.filter (fun e => decide (e.1 ≠ pos)) }).wr (.CONV_MAP pf a pos) F.CONV_MAP.pending 0

/-- n / d rounded by R64. -/
def roundDiv (n : Int) (d : Nat) : Int :=
  let q := n / (d : Int)
  let r := 2 * (n % (d : Int))
  if r < d then q else if (d : Int) < r then q + 1 else if q % 2 = 0 then q else q + 1

/-- The offset and the gain of temperature set j (R138, R163). -/
def setOff (lo hi j : Nat) : Int := sext 8 ((if j < 4 then lo else hi) / 2 ^ (16 * (j % 4)))
def setGain (lo hi j : Nat) : Int := sext 8 ((if j < 4 then lo else hi) / 2 ^ (16 * (j % 4) + 8))

/-- The segment of a temperature in 1/16 °C (R138): set j and the sixteenths of a degree above it. -/
def trimSeg (t : Int) : Nat × Nat :=
  let x := (min (max t 320) 1440).toNat - 320
  (min (x / 160) 6, x - 160 * min (x / 160) 6)

/-- The trims in force of sets at a temperature (R138). -/
def trimsAt (lo hi : Nat) (t : Int) : Int × Int :=
  let q := trimSeg t
  (roundDiv (setOff lo hi q.1 * 160 + (setOff lo hi (q.1 + 1) - setOff lo hi q.1) * q.2) 160,
   roundDiv (setGain lo hi q.1 * 160 + (setGain lo hi (q.1 + 1) - setGain lo hi q.1) * q.2) 160)

/-- A converter's trims in force set from sets (R138, R162). -/
def State.setTrims (s : State) (pf a n lo hi : Nat) (t : Int) : State :=
  let r := Reg.CONV_CAL pf a n
  let x := trimsAt lo hi t
  (s.wr r F.CONV_CAL.o_now (toCode 8 x.1)).wr r F.CONV_CAL.g_now (toCode 8 x.2)

/-- A converter's trims in force taken from its own sets. -/
def State.ownTrims (s : State) (pf a n : Nat) (t : Int) : State :=
  s.setTrims pf a n (s.reg (.CONV_SETLO pf a n)) (s.reg (.CONV_SETHI pf a n)) t

/-- The temperature of the trims in force (R139). -/
def State.trimTemp (s : State) (pf : Nat) : Int := (s.region (regionOf pf)).trimTemp

/-- The end of a shadow window (R146, R147): converter and mirror back to their places. -/
def State.endShadow (s : State) (pf a : Nat) (w : Shadow) : State :=
  let s := if w.isMirror then s.setConv pf a w.conv 1 0x1FF
    else
      let s := s.setConv pf a w.conv w.oldRole w.pos
      let s := s.setConv pf a w.mate 1 0x1FF
      s.wr (.CONV_MAP pf a w.pos) F.CONV_MAP.srv w.conv
  let x := s.parr pf a
  s.setParr pf a { x with shadows := x.shadows.filter (fun v => decide (v.conv ≠ w.conv)) }

/-- The result of an attempt (R142, R148, R162). -/
def State.calResult (s : State) (pf a n last : Nat) : State :=
  let x := s.parr pf a
  let s := s.setParr pf a { x with conv := Tab.put x.conv n ConvStat.zero { Tab.getD x.conv n ConvStat.zero with done := true } }
  s.wr (.CONV_CAL pf a n) F.CONV_CAL.last last

/-- A shadow window given up (R148, R149): converter and mirror back to their places with the old trims, ABANDONED. -/
def State.dropShadow (s : State) (pf a : Nat) (w : Shadow) : State :=
  ((s.endShadow pf a w).ownTrims pf a w.conv (s.trimTemp pf)).calResult pf a w.conv 5

/-- Every attempt of an array given up, because the array leaves SERVICE (R149). -/
def State.dropShadows (s : State) (pf a : Nat) : State :=
  let x := s.parr pf a
  let s := x.shadows.foldl (fun s w => s.dropShadow pf a w) s
  let s := x.wantShadow.foldl (fun s w => s.calResult pf a w.1 5) s
  if x.wantShadow.isEmpty then s else s.setParr pf a { s.parr pf a with wantShadow := [] }

/-- Can a mirror be had for a fence: FREE, or lent to calibration (R89)? -/
def State.mirrorFor (s : State) (pf a : Nat) : Bool :=
  (s.freeMirror pf a).isSome || (s.parr pf a).shadows.any (fun w => !w.isMirror)

/-- Fencing a converter in favour of a mirror (R89, R91, R107): the lowest FREE mirror, else the lowest lent to
calibration, whose attempt is abandoned; with none left its position is served by no converter and the array is
reported for takeover. -/
def State.fenceConv (s : State) (pf a n cause : Nat) : State :=
  if s.on (.CONV_STAT pf a n) F.CONV_STAT.fence then s
  else
    -- an attempt this converter takes part in ends first (R149)
    let s := ((s.parr pf a).shadows.filter (fun w => decide (w.conv = n) || (decide (w.mate = n) && !w.isMirror))).foldl
      (fun s w => s.dropShadow pf a w) s
    let pos := s.rd (.CONV_STAT pf a n) F.CONV_STAT.serves
    let s := s.setConv pf a n 5 0x1FF
    let s := s.wr (.CONV_STAT pf a n) F.CONV_STAT.fence 1
    let s := s.bump (.ARR_STAT pf a) F.ARR_STAT.conv_fenced 1
    let s := s.raise (facEvent pf 0x402 0xFFFF [a, n])
    let s := s.recordFence (unitDesc 1 pf a n) (if s.mirrorFor pf a then clsUnit else clsCapacity) cause
      (toBytes 8 (s.reg (.ARR_STAT pf a)) ++ toBytes 8 (s.reg (.CONV_STAT pf a n)) ++ toBytes 8 (s.reg (.CONV_CAL pf a n)))
    let s :=
      if pos = 0x1FF then s
      else
        let s := if (s.freeMirror pf a).isNone then
            match ((s.parr pf a).shadows.filter (fun w => !w.isMirror)).foldl
                (fun (b : Option Shadow) w => match b with
                  | none => some w
                  | some v => if w.mate < v.mate then some w else some v) none with
            | some w => s.dropShadow pf a w
            | none => s
          else s
        match s.freeMirror pf a with
        | some m =>
          let s := s.setConv pf a m 2 pos
          (s.wr (.CONV_MAP pf a pos) F.CONV_MAP.srv m).dropMapWrite pf a pos
        | none =>
          let s := s.wr (.CONV_MAP pf a pos) F.CONV_MAP.srv 0x1FF
          let s := s.dropMapWrite pf a pos
          let x := s.parr pf a
          (s.setParr pf a { x with lost := true }).requestTakeover pf a
    s.countFree pf a

/-- Does a position of the array have no converter (R91)? -/
def State.unserved (s : State) (pf a : Nat) : Bool := (List.range 256).any (fun p => decide (s.srv pf a p = 0x1FF))

/-- A switch to an epoch staged in a facet not yet accepted fails with err 3, its staged array lost (R407). -/
def State.stagedLost (s : State) (pf epoch : Nat) : State :=
  let sv := s.rd (.FAC_BIND pf) F.FAC_BIND.service
  if s.on (.FAC_BIND pf) F.FAC_BIND.bound && decide (s.rd (.EP_STAT sv) F.EP_STAT.cur ≠ epoch) then s.wr (.EP_STAT sv) F.EP_STAT.err 3 else s

/-- The staged rebind of a fenced array dropped while its switch is not accepted (R407); afterwards it stays, and its step
fails. -/
def State.fenceStaged (s : State) (pf a : Nat) : State :=
  let l := Tab.getD s.staged pf []
  match l.find? (fun x => decide (x.phys = a)) with
  | none => s
  | some x =>
    if s.rd (.EP_STAT (s.rd (.FAC_BIND pf) F.FAC_BIND.service)) F.EP_STAT.cur = x.epoch then s
    else
      let l := l.filter (fun y => decide (y.phys ≠ a))
      let s := ({ s with staged := Tab.put s.staged pf [] l }).wr (.FAC_EPOCH pf) F.FAC_EPOCH.staged l.length
      (if l.isEmpty then s.wr (.FAC_EPOCH pf) F.FAC_EPOCH.staged_epoch 0 else s).stagedLost pf x.epoch

/-- An array fenced (R449, R451): its entry, its report, and FLT_SPARE_LOW when no MIRROR array is left to the
facet. -/
def State.fenceArray (s : State) (pf a cause : Nat) : State :=
  let s := (s.setArrState pf a 5).fenceStaged pf a
  let spare := (List.range s.variant.arrays).any (fun b => decide (s.arrState pf b = 2))
  let s := s.recordFence (unitDesc 2 pf a 0) (if spare then clsUnit else clsCapacity) cause (toBytes 8 (s.reg (.ARR_STAT pf a)))
  if spare then s else s.raise ⟨6, 0x1C1, 0xFFFF, 0xFFFF, [unitDesc 3 pf 0 0]⟩

/-- What becomes of an array that its logical array has left: FENCED when it lost a position's converter (R91) or
has no write operation left (R157, with WEAR_LIMIT), else `oldTo` (R102). -/
def State.releaseArray (s : State) (pf a oldTo : Nat) : State :=
  if s.arrState pf a = 5 ∨ s.arrState pf a = 0 then s
  else if (s.parr pf a).lost then s.fenceArray pf a 4
  else if (s.parr pf a).fenceReq then s.fenceArray pf a 0
  else if 100000 ≤ s.rd (.ARR_WEAR pf a) F.ARR_WEAR.writes then
    let s := s.fenceArray pf a 0
    s.raise (regionEvent (regionOf pf) 0x207 [pf, a, s.rd (.ARR_WEAR pf a) F.ARR_WEAR.writes])
  else s.setArrState pf a oldTo

/-- A binding moved (R96): the logical array to `p`, which enters SERVICE, with the products still queued; the
old array to `oldTo`. -/
def State.bindArray (s : State) (pf n p oldTo : Nat) : State :=
  let old := s.physOf pf n
  let s := s.wr (.ARR_MAP pf n) F.ARR_MAP.phys p
  let s := s.wr (.ARR_MAP pf n) F.ARR_MAP.pending 0
  let s := s.setArrState pf p 1
  let s := if old = p then s else
    let s := s.dropShadows pf old
    let q := (s.parr pf old).queue
    let s := s.setParr pf p { s.parr pf p with queue := q }
    let s := s.setParr pf old { s.parr pf old with queue := [] }
    let s := (s.wr (.ARR_STAT pf p) F.ARR_STAT.inflight q.length).wr (.ARR_STAT pf old) F.ARR_STAT.inflight 0
    s.releaseArray pf old oldTo
  let x := s.larr pf n
  s.setLarr pf n { x with bind := none }

/-- The staged arrays of an epoch bound together before a descriptor is delivered (R405); the facet then lists
the new epoch in place of the old. -/
def State.bindStaged (s : State) (pf epoch : Nat) : State :=
  let l := Tab.getD s.staged pf []
  if epoch ≠ 0 ∧ l.any (fun x => decide (x.epoch = epoch)) then
    let s := l.foldl (fun s x =>
      if s.arrState pf x.phys = 5 then s
      else
        let s := s.bindArray pf x.logical x.phys 2
        let y := s.larr pf x.logical
        let s := s.setLarr pf x.logical { y with chk := Mem.write Mem.empty 0 (s.hbm.read x.chk 3072) }
        (s.wr (.GOLD_BASE pf x.logical) F.GOLD_BASE.addr (x.src / 64)).wr (.GOLD_BASE pf x.logical) F.GOLD_BASE.valid 1) s
    -- a staged array fenced meanwhile keeps its old binding, and the step fails (R407)
    let bad := l.any (fun x => decide (s.arrState pf x.phys = 5))
    let s := { s with staged := Tab.put s.staged pf [] [] }
    let s : State := match bad, (s.facet pf).core.step with
      | true, some d => { s with noc := { s.noc with reports := s.noc.reports ++ [(s.lfOf pf, d.step, false)] } }
      | _, _ => s
    let r := Reg.FAC_EPOCH pf
    let a := s.rd r F.FAC_EPOCH.ep_a
    let b := s.rd r F.FAC_EPOCH.ep_b
    let old := s.rd (.EP_STAT (s.rd (.FAC_BIND pf) F.FAC_BIND.service)) F.EP_STAT.old
    let s := if a = epoch ∨ b = epoch then s
      else if old ≠ 0 ∧ b = old ∨ a ≠ old ∧ a ≠ 0 ∧ b = 0 then s.wr r F.FAC_EPOCH.ep_b epoch else s.wr r F.FAC_EPOCH.ep_a epoch
    (s.wr r F.FAC_EPOCH.staged 0).wr r F.FAC_EPOCH.staged_epoch 0
  else s

/-- An issue delivered to every array of a handle (R78): into a row buffer of each, its outlier list to the side
path (R122, R123). An array that a direct write holds gets a poisoned product (R27, R396). -/
def State.issueArrays (s : State) (pf base count : Nat) (i : Issue) (hn : Nat) (listBad : Bool) : State :=
  let s := if listBad then
      (s.bump (.SP_ERR pf) F.SP_ERR.outlier_bad 1).raise (facEvent pf 0x408 0xFFFF [hn, i.bank])
    else s
  let s := (List.range count).foldl (fun s k =>
    let n := base + k
    let a := s.physOf pf n
    let x := s.parr pf a
    let inWrite := decide (s.arrState pf a = 4) || decide (s.arrState pf a = 5)
    let j := { i with
      logical := n, sliceNo := k % i.slices, bad := i.bad || inWrite
      outPoison := i.outPoison || listBad, entry := (s.larr pf n).chk }
    (s.setParr pf a { x with queue := x.queue ++ [j] }).wr (.ARR_STAT pf a) F.ARR_STAT.inflight
      (x.queue.length + 1 + (if x.run.isSome then 1 else 0))) s
  if i.outliers.isEmpty || listBad then s
  else { s with outJobs := Tab.put s.outJobs pf [] (Tab.getD s.outJobs pf [] ++ [⟨base, count, i, i.outliers, false, []⟩]) }

/-- A row buffer is free in every array of the handle (R78, R181). -/
def State.rowBuffersFree (s : State) (pf base count : Nat) : Bool :=
  (List.range count).all (fun k =>
    let x := s.parr pf (s.physOf pf (base + k))
    decide (x.queue.length + (if x.run.isSome then 1 else 0) < 2))

end Sys2Proof.Machine
end

