-- ==== Sys2Proof/Machine/Prism.lean ====
section
/-! DEFINITION. The prism (R314-R328): CRC-32C, block headers, code tables, sub-streams, block errors; and the images of
operands in data SRAM. -/

namespace Sys2Proof.Machine

/-- One bit of CRC-32C, reflected (R315). -/
def crcBit (c : Nat) : Nat := if c % 2 = 1 then (c / 2) ^^^ 0x82F63B78 else c / 2

/-- One byte of CRC-32C. -/
def crcByte (c : Nat) (b : Byte) : Nat :=
  crcBit (crcBit (crcBit (crcBit (crcBit (crcBit (crcBit (crcBit (c ^^^ b.toNat))))))))

/-- CRC-32C of a byte string (R315). -/
def crc32c (bs : List Byte) : Nat := (bs.foldl crcByte 0xFFFFFFFF) ^^^ 0xFFFFFFFF

/-- A block header (R315). -/
structure BlkHdr where
  crc : Nat
  codedLen : Nat
  raw : Bool
  table : Nat
  lens : List Nat
  reserved : Bool
  deriving DecidableEq, Repr

/-- A header's fields (R315). -/
def parseHdr (bs : List Byte) : BlkHdr where
  crc := field bs 0 4
  codedLen := field bs 4 2 % 4096
  raw := bitAt (field bs 4 2) 15
  table := field bs 6 1
  lens := (List.range 16).map (fun j => bits (field bs 8 24) (12 * j + 11) (12 * j))
  reserved := decide (bits (field bs 4 2) 14 12 ≠ 0) || decide (field bs 7 1 ≠ 0)

/-- Bytes of a sub-stream. -/
def upBytes (n : Nat) : Nat := (n + 7) / 8

/-- A malformed header (R316). -/
def BlkHdr.malformed (h : BlkHdr) : Bool :=
  h.reserved
    || (h.raw && (decide (h.codedLen ≠ 0) || decide (h.table ≠ 0) || h.lens.any (fun l => decide (l ≠ 0))))
    || (!h.raw && (h.lens.any (fun l => decide (l < 256) || decide (3072 < l))
        || decide (h.codedLen ≠ (h.lens.map upBytes).sum) || decide (3584 < h.codedLen)))

/-- The code lengths of a table (R319). -/
def tableLens (bs : List Byte) : List Nat :=
  bs.flatMap (fun b => [b.toNat % 16, b.toNat / 16])

/-- A valid table (R320). -/
def tableValid (lens : List Nat) : Bool :=
  lens.all (fun l => decide (l ≤ 12)) && lens.any (fun l => decide (l ≠ 0))
    && decide ((lens.map (fun l => if l = 0 then 0 else 2 ^ (12 - l))).sum ≤ 4096)

/-- first, count and offset of the code lengths from `l` on (R320), `n` lengths. -/
def buildFrom (lens : List Nat) (l code off : Nat) : Nat → List (Nat × Nat × Nat)
  | 0 => []
  | n + 1 =>
    let c := lens.countP (fun x => decide (x = l))
    (code, c, off) :: buildFrom lens (l + 1) ((code + c) * 2) (off + c) n

/-- The canonical code of a table (R320): first, count and offset per length, and the symbols in code order. -/
def buildTable (lens : List Nat) : List (Nat × Nat × Nat) × List Nat :=
  (buildFrom lens 1 0 0 12,
   (List.range 12).flatMap (fun l => (List.range 256).filter (fun s => decide (lens.getD s 0 = l + 1))))

/-- Decoder errors (R326): CODE 3, UNDERRUN 4, OVERRUN 5. One symbol decoded (R322): its place in the code order, its
length, the bits left. -/
def decSym : List (Nat × Nat × Nat) → Nat → Nat → List Bool → Except Nat (Nat × Nat × List Bool)
  | [], _, _, _ => .error 3
  | _ :: _, _, _, [] => .error 4
  | (first, count, off) :: t, v, l, b :: bs =>
    let w := v * 2 + b2n b
    if first ≤ w ∧ w < first + count then .ok (off + (w - first), l + 1, bs) else decSym t w (l + 1) bs

/-- A sub-stream's symbols with their code lengths (R322). -/
def decStream (tab : List (Nat × Nat × Nat)) (sym : List Nat) : Nat → List Bool → Except Nat (List (Nat × Nat))
  | 0, bs => if 7 < bs.length then .error 5 else .ok []
  | n + 1, bs =>
    match decSym tab 0 0 bs with
    | .error e => .error e
    | .ok (i, l, rest) => match decStream tab sym n rest with
      | .error e => .error e
      | .ok out => .ok ((sym.getD i 0, l) :: out)

/-- The bits of a byte string, bit 7 of each byte first (R318). -/
def bitsOf (bs : List Byte) : List Bool :=
  bs.flatMap (fun b => (List.range 8).map (fun i => bitAt b.toNat (7 - i)))

/-- The sub-streams of a coded block (R317, R318), as bits. -/
def streamsOf (lens : List Nat) (code : List Byte) : List (List Bool) :=
  (lens.foldl (fun (acc : List (List Bool) × List Byte) l =>
    (acc.1 ++ [(bitsOf (acc.2.take (upBytes l))).take l], acc.2.drop (upBytes l))) ([], code)).1

/-- The fc a decoder takes for code lengths (R324). -/
def streamTime : List Nat → Nat
  | [] => 0
  | [_] => 1
  | a :: b :: t => if a + b ≤ 16 then 1 + streamTime t else 1 + streamTime (b :: t)

/-- What a block decodes to: its bytes, or the class of its error with the sub-stream; and its decode time. -/
structure BlkOut where
  bytes : List Byte
  cls : Nat
  stream : Nat
  time : Nat
  deriving DecidableEq, Repr

def blkErr (cls stream : Nat) : BlkOut := ⟨List.replicate 4096 0, cls, stream, 256⟩

/-- The first sub-stream that fails, or all symbols (R326). -/
def firstError : Nat → List (Except Nat (List (Nat × Nat))) → Except (Nat × Nat) (List (List (Nat × Nat)))
  | _, [] => .ok []
  | j, .error e :: _ => .error (e, j)
  | j, .ok x :: t => match firstError (j + 1) t with
    | .error e => .error e
    | .ok xs => .ok (x :: xs)

/-- A block decoded (R316-R327): header bytes, slot bytes, the poison of the header and of a sector of the slot, the
code table (none when invalid), and a condition that the header's table number must meet. -/
def decodeBlock (hdr slot : List Byte) (hdrP : Bool) (secP : Nat → Bool) (tab : Nat → Option (List Nat))
    (tableOk : Nat → Bool) (crcFlip : Bool) : BlkOut :=
  let h := parseHdr hdr
  if hdrP then blkErr 7 0
  else if h.malformed || (!h.raw && !tableOk h.table) then blkErr 1 0
  else if h.raw then
    if (List.range 64).any secP then blkErr 7 0
    else if decide (crc32c slot = h.crc) != crcFlip then ⟨slot, 0, 0, 64⟩ else blkErr 6 0
  else match tab h.table with
    | none => blkErr 2 0
    | some lens =>
      if (List.range ((h.codedLen + 63) / 64)).any secP then blkErr 7 0
      else
        let t := buildTable lens
        let rs := (streamsOf h.lens (slot.take h.codedLen)).map (decStream t.1 t.2 256)
        match firstError 0 rs with
        | .error (e, j) => blkErr e j
        | .ok xs =>
          let out := xs.flatMap (fun l => l.map (fun p => BitVec.ofNat 8 p.1))
          if decide (crc32c out = h.crc) != crcFlip then
            ⟨out, 0, 0, (xs.map (fun l => streamTime (l.map Prod.snd))).foldl max 0⟩
          else blkErr 6 0

/-- The counter field of PRISM_ERR for a class (R326, R333). -/
def prismErrFld (cls : Nat) : Fld := match cls with
  | 1 => F.PRISM_ERR.header
  | 2 => F.PRISM_ERR.table
  | 3 => F.PRISM_ERR.code
  | 4 => F.PRISM_ERR.underrun
  | 5 => F.PRISM_ERR.overrun
  | 6 => F.PRISM_ERR.crc
  | _ => F.PRISM_ERR.poison_in

/-- The facet's code table, if PRISM_TBL_VALID says it is valid (R321, R326). -/
def State.facTable (s : State) (pf : Nat) (c : FCore) (t : Nat) : Option (List Nat) :=
  if bitAt (s.reg (.PRISM_TBL_VALID pf (t / 64))) (t % 64) then some (tableLens (c.prism.read (t * 128) 128)) else none

/-- A block read from data SRAM and decoded by the facet's prism (R328). -/
def State.facBlock (s : State) (pf : Nat) (c : FCore) (slot hdr : Nat) (crcFlip : Bool) : BlkOut :=
  decodeBlock (c.sram.read hdr 32) (c.sram.read slot 4096) (c.sram.rangePoison 8 hdr 32)
    (fun q => c.sram.rangePoison 8 (slot + 64 * q) 64) (s.facTable pf c) (fun _ => true) crcFlip

/-- A decoded block counted, its error recorded and raised (R325, R327, R332-R334, R338). -/
def State.prismCount (s : State) (pf : Nat) (raw : Bool) (o : BlkOut) (slot reader : Nat) : State :=
  let s := s.bump (.PRISM_STAT pf) (if raw then F.PRISM_STAT.raw else F.PRISM_STAT.coded) 1
  if o.cls = 0 then s
  else
    let s := s.bump (.PRISM_ERR pf) (prismErrFld o.cls) 1
    let r := Reg.PRISM_LAST pf
    let s := (((s.wr r F.PRISM_LAST.valid 1).wr r F.PRISM_LAST.cls o.cls).wr r F.PRISM_LAST.reader reader).wr r F.PRISM_LAST.stream o.stream
    let s := s.wr r F.PRISM_LAST.slot (slot / 4096)
    s.raise (facEvent pf 0x410 (s.lfField pf) [o.cls, o.stream, slot, reader, ((s.facet pf).core.step.map Desc.step).getD 0])

/-- Fc added to a facet's stall account kept in units of 2^8 fc (R262, R332). -/
def addStall (low n : Nat) : Nat × Nat := ((low + n) / 256, (low + n) % 256)

end Sys2Proof.Machine
end

