-- ==== Sys2Proof/Machine/LinkOps.lean ====
section
/-! DEFINITION. Messages, flits and ports of the links (R487-R494): what sending and receiving share.  The layouts the spec leaves open
(the payload of CONTROL flits and of TIME, barrier and SEND messages beyond their header) are those of log entry 53. -/

namespace Sys2Proof.Machine

def State.lport (s : State) (p : Nat) : LPort := Tab.getD s.link.ports p LPort.reset
def State.setLport (s : State) (p : Nat) (x : LPort) : State :=
  { s with link := { s.link with ports := Tab.put s.link.ports p LPort.reset x } }

/-- The package's number (R483). -/
def State.pkg (s : State) : Nat := s.rd .LINK_CFG F.LINK_CFG.pkg

/-- A port's state (R501), and whether it carries traffic. -/
def State.portState (s : State) (p : Nat) : Nat := s.rd (.LINK_PORT_STAT p) F.LINK_PORT_STAT.state
def State.portUp (s : State) (p : Nat) : Bool := decide (s.portState p = 2) || decide (s.portState p = 3)

/-- The port toward a package, when its route is valid and the port carries traffic (R492). -/
def State.route (s : State) (n : Nat) : Option Nat :=
  let r := Reg.LINK_ROUTE n
  let p := s.rd r F.LINK_ROUTE.port
  if s.on r F.LINK_ROUTE.valid && decide (p < 12) && s.portUp p then some p else none

/-- Bytes 0-251 of a flit with its CRC (R488). -/
def flitBytes (f : Flit) (seq ack : Nat) (owed : List Nat) : List Byte :=
  let n := f.payload.length
  let b := toBytes 1 f.kind ++ toBytes 1 (f.vc + 4 * b2n f.mcast) ++ toBytes 2 seq ++ toBytes 1 (if f.mcast then 0 else f.dst)
    ++ toBytes 1 f.src ++ toBytes 1 n ++ toBytes 1 0 ++ toBytes 4 f.poison ++ toBytes 4 0
    ++ (f.payload ++ List.replicate (224 - n) 0) ++ toBytes 2 ack ++ owed.flatMap (toBytes 2) ++ toBytes 2 0
  b ++ toBytes 4 (crc32c b)

/-- A flit's record of the loupe (R566). -/
def State.loupeFlit (s : State) (p dir : Nat) (b : List Byte) : State :=
  if s.on .LOUPE_CTL F.LOUPE_CTL.flits then
    s.loupeSend 3 (toBytes 1 p ++ toBytes 1 dir ++ List.replicate 6 0 ++ b.take 16 ++ toBytes 8 s.sysClock)
  else s

/-- A flit leaves a port with the current acknowledgement and credits (R490). -/
def State.putFlit (s : State) (p : Nat) (f : Flit) (seq : Nat) : State :=
  let x := s.lport p
  let b := flitBytes f seq ((x.rxNext + 4095) % 4096) x.owed
  let s := s.setLport p { x with owed := [0, 0, 0, 0] }
  (s.emit (.flit p b)).loupeFlit p 0 b

/-- Time of the replay timer's expiry when loaded now (R490). -/
def State.replayAt (s : State) (p : Nat) : Nat := s.time + (s.rd (.LINK_PORT_CTL p) F.LINK_PORT_CTL.replay_hc + 1) / 2

/-- The next flit of a port that has its credit (R491): barrier/time first, then by arrival, none before an earlier one of its
channel. -/
def LPort.pick (x : LPort) : Option Nat :=
  let ok := fun (i : Nat) => match x.waiting[i]? with
    | some f => decide (0 < x.credits.getD f.vc 0) && !(x.waiting.take i).any (fun g => decide (g.vc = f.vc))
    | none => false
  let l := (List.range x.waiting.length).filter ok
  match l.find? (fun i => (x.waiting[i]?).any (fun f => decide (f.vc = 3))) with
  | some i => some i
  | none => l.head?

/-- Flits sent while credits and the replay buffer allow (R490, R491). -/
def State.pump (s : State) (p : Nat) : Nat → State
  | 0 => s
  | n + 1 =>
    let x := s.lport p
    if !s.portUp p || decide (512 ≤ x.sent.length) then s
    else match x.pick with
      | none => s
      | some i => match x.waiting[i]? with
        | none => s
        | some f =>
          let seq := x.txNext
          let s := s.setLport p { x with
            waiting := x.waiting.eraseIdx i, sent := x.sent ++ [(seq, f)], txNext := (seq + 1) % 4096
            credits := setNth x.credits f.vc (x.credits.getD f.vc 0 - 1)
            timer := if x.sent.isEmpty then some (s.replayAt p) else x.timer }
          State.pump (s.putFlit p f seq) p n

/-- The flits of a payload (R489): 224 bytes each. -/
def flitsOf (vc : Nat) (mcast : Bool) (dst src : Nat) (own : Nat × Nat × Nat) (payload : List Byte) (poison : List Nat) : List Flit :=
  let n := (payload.length + 223) / 224
  (List.range n).map (fun i =>
    let k := if n = 1 then 4 else if i = 0 then 1 else if i + 1 = n then 3 else 2
    let m := ((List.range 28).filter (fun w => poison.contains (i * 28 + w))).foldl (fun a w => a + 2 ^ w) 0
    ⟨k, vc, mcast, dst, src, (payload.drop (i * 224)).take 224, m, own⟩)

/-- A message's payload (R489): header, destination set of a multicast WRITE, data; and its poisoned words. -/
def LMsg.payload (m : LMsg) : List Byte × List Nat :=
  let hdr := toBytes 8 m.addr ++ toBytes 4 m.data.length ++ toBytes 1 m.kind ++ toBytes 1 m.chan ++ toBytes 2 m.tag
  let set := if m.mcast then toBytes 32 (m.set.foldl (fun a n => a + 2 ^ n) 0) else []
  (hdr ++ set ++ m.data, m.poison.map (fun w => w + 2 + set.length / 8))

/-- A message put at a port. -/
def State.queueMsg (s : State) (p : Nat) (m : LMsg) (own : Nat × Nat × Nat) : State :=
  let b := m.payload
  let x := s.lport p
  let fs := flitsOf m.vc m.mcast m.dst m.src own b.1 b.2
  (s.setLport p { x with waiting := x.waiting ++ fs }).pump p (x.waiting.length + fs.length)

/-- What fails with a message at its source (R494): a SEND fails its facet's step, a MCAST its job. -/
def State.failOwn (s : State) (own : Nat × Nat × Nat) (pkg : Nat) : State :=
  if own.1 = 1 then { s with noc := { s.noc with reports := s.noc.reports ++ [(own.2.1, own.2.2, false)] } }
  else if own.1 = 2 then
    let hit := fun (j : LdJob) => decide (j.kind = 2) && decide (j.slot = own.2.1) && decide (j.status = some 1) && !j.pkgs.isEmpty
    if s.loader.jobs.any hit then
      ({ s with loader := { s.loader with jobs := s.loader.jobs.map (fun j =>
          if hit j then { j with status := some 0x8003, pkgs := [] } else j) } }).wr .LD_STAT F.LD_STAT.last_pkg pkg
    else s
  else s

/-- A message sent to its destination, or failed at its source for want of a route (R492). -/
def State.sendMsg (s : State) (m : LMsg) (own : Nat × Nat × Nat) : State :=
  match s.route m.dst with
  | some p => s.queueMsg p m own
  | none => s.failOwn own m.dst

/-- Copies of a multicast WRITE, one for each port (R493); packages without a route fail it at its source. -/
def State.sendMulti (s : State) (m : LMsg) (own : Nat × Nat × Nat) : State :=
  let set := m.set.filter (fun n => decide (n ≠ s.pkg))
  let s := (List.range 12).foldl (fun s p =>
    let part := set.filter (fun n => decide (s.route n = some p))
    if part.isEmpty then s else s.queueMsg p { m with set := part, dst := 0 } own) s
  match set.find? (fun n => (s.route n).isNone) with
  | some n => s.failOwn own n
  | none => s

/-- The data of a SEND has left its facet (R244, R580). -/
def FCore.sendLeft (c : FCore) (dst chan : Nat) : FCore :=
  match c.sends.findIdx? (fun x => decide (x.dst = dst) && decide (x.chan = chan) && !x.left) with
  | none => c
  | some i => { c with sends := setNth c.sends i ⟨dst, chan, true⟩ }

/-- A SEND toward a facet of another package (R484, R244): the step travels in the address, the LF in the tag. -/
def State.sendRemote (s : State) (pf : Nat) (m : SyncMsg) : State :=
  let step := m.step.getD 0
  let s := s.asyncCore pf (fun c => c.sendLeft m.dst m.chan)
  s.sendMsg ⟨2, 0, s.pkg, m.dst / 2 ^ 16 % 256, [], false, m.dst % 2 ^ 25 + step % 2 ^ 32 * 2 ^ 32, m.chan, m.src, m.data, m.poison⟩ (1, m.src, step)

/-- A port taken out of service (R490, R494): unacknowledged and waiting flits are discarded, their messages fail at this package if it is
their source, and multicasts routed through it fail. -/
def State.dropPort (s : State) (p : Nat) : State :=
  let x := s.lport p
  let fs := x.sent.map Prod.snd ++ x.waiting
  let s := s.setLport p { LPort.reset with good := x.good, spare := x.spare, ident := x.ident }
  let via := fun n => s.on (.LINK_ROUTE n) F.LINK_ROUTE.valid && decide (s.rd (.LINK_ROUTE n) F.LINK_ROUTE.port = p)
  let s := s.loader.jobs.foldl (fun s j => match j.pkgs.find? via with
    | some n => s.failOwn (2, j.slot, 0) n
    | none => s) s
  ((fs.map Flit.own).eraseDups).foldl (fun s o => s.failOwn o ((fs.find? (fun f => decide (f.own = o))).map Flit.dst |>.getD 0)) s

/-- A port enters DOWN (R486, R490): its cause is 0 training, 1 replays, 2 lanes. -/
def State.portDown (s : State) (p cause : Nat) : State :=
  let r := Reg.LINK_PORT_STAT p
  let s := (s.dropPort p).wr r F.LINK_PORT_STAT.state 4
  s.raise ⟨7, 0x191, 0xFFFF, 0xFFFF, [p, cause]⟩

end Sys2Proof.Machine
end

