-- ==== Sys2Proof/Machine/Bundle.lean ====
section
/-! DEFINITION. The bundle (R177-R183): guards, the whole-bundle rule, loop ends, what a bundle launches,
and TAKING AN EXCEPTION (R191, R192) as one shared operation. -/

namespace Sys2Proof.Machine

/-- FAC_STAT.state (R201). -/
def State.facState (s : State) (pf : Nat) : Nat := s.rd (.FAC_STAT pf) F.FAC_STAT.state

/-- FAC_STAT.state set. -/
def State.setFacState (s : State) (pf st : Nat) : State := s.wr (.FAC_STAT pf) F.FAC_STAT.state st

/-- A facet issues bundles in RUN, and in WAIT presents its STEP again, unless it has stopped issue. -/
def State.issuing (s : State) (pf : Nat) : Bool :=
  (decide (s.facState pf = 3) || decide (s.facState pf = 4)) && (s.facet pf).stop.isNone && !(s.facet pf).fenced

/-- The step number a facet's event carries, 0 with no step in progress. -/
def FCore.stepNo (c : FCore) : Nat := (c.step.map Desc.step).getD 0

/-- Taking an exception (R192): recorded in FAC_EXC, FAC_EXC raised, issue stopped, loop levels cleared; the
facet's other registers keep their values. -/
def takeException (s : State) (pf slot code : Nat) : State :=
  let f := s.facet pf
  let r := Reg.FAC_EXC pf
  let s := s.bump r F.FAC_EXC.count 1
  let s := s.wr r F.FAC_EXC.pc f.core.pc
  let s := s.wr r F.FAC_EXC.valid 1
  let s := s.wr r F.FAC_EXC.slot slot
  let s := s.wr r F.FAC_EXC.cause code
  let s := if code = excFetch then s.bump (.FAC_ERR pf) F.FAC_ERR.imem_ue 1 else s
  let s := s.wr (.FAC_STAT pf) F.FAC_STAT.pc f.core.pc
  let s := s.raise (facEvent pf 0x409 (s.lfField pf) [code, slot, f.core.pc, f.core.stepNo])
  s.setFacet pf { f with core := { f.core with loops := [] }, bun := none, stop := some (.exc code) }

/-- The bundle after the end of the bundle at `pc` (R184): each level that ends there returns to its first
bundle while its count lasts. -/
def loopEnd (pc : Nat) : List Loop → Nat × List Loop
  | [] => (pc + 1, [])
  | l :: t =>
    if l.last = pc then
      if l.count > 1 then (l.first, { l with count := l.count - 1 } :: t) else loopEnd pc t
    else (pc + 1, l :: t)

/-- The levels that a taken branch leaves active (R184): a level whose body the target lies outside ends. -/
def loopsAfterBranch (target : Nat) (ls : List Loop) : List Loop :=
  ls.dropWhile (fun l => decide (target < l.first) || decide (l.last < target))

/-- One stall cycle charged to its cause, shown in FAC_STALL's units (R185, R205). -/
def chargeStall (s : State) (pf cause : Nat) : State :=
  let f := s.facet pf
  let c := if cause = 5 then 3 else cause
  let n := f.stallFc.getD c 0 + 1
  let unit := if c ≤ 2 then 2 ^ 16 else 2 ^ 24
  let fld := match c with
    | 0 => F.FAC_STALL.array
    | 1 => F.FAC_STALL.tensor
    | 2 => F.FAC_STALL.movement
    | 3 => F.FAC_STALL.sync
    | _ => F.FAC_STALL.register
  if n = unit then (s.setFacet pf { f with stallFc := setNth f.stallFc c 0 }).bump (.FAC_STALL pf) fld 1
  else s.setFacet pf { f with stallFc := setNth f.stallFc c n }

/-- The log of a mirror run closes at the SCOMMIT of the logged step (R459). -/
def State.mirrorLogged (s : State) (pf step : Nat) : State :=
  match (s.region (regionOf pf)).mr with
  | some m => if m.phase = 1 ∧ m.slot = pf % 17 then
      s.setRegion (regionOf pf) { s.region (regionOf pf) with mr := some { m with phase := 2, step := step } } else s
  | none => s

/-- What a bundle launched takes effect outside the facet core (R580), in launch order (R179). -/
def applyEff (pf : Nat) (s : State) : Eff → State
  | .bump r f n => s.bump r f n
  | .wr r f v => s.wr r f v
  | .barDone => s.setFacet pf { s.facet pf with bar := none }
  | .raise r => s.raiseRec r
  | .issue base count i hn listBad => s.issueArrays pf base count i hn listBad
  | .send m => if bitAt m.dst 24 then s.sendRemote pf m else { s with noc := { s.noc with msgs := s.noc.msgs ++ [m] } }
  | .logits l => { s with noc := { s.noc with logits := s.noc.logits ++ [l] } }
  | .watch w =>
    let inj := s.injArmed 0x15 (unitDesc 3 pf 0 0)
    let v := if inj then mulF w.value 0x41800000 else w.value
    let s := if inj then s.injDone else s
    { s with noc := { s.noc with watches := s.noc.watches ++ [{ w with value := v }] } }
  | .report lf step => ({ s with noc := { s.noc with reports := s.noc.reports ++ [(lf, step, true)] } }).mirrorLogged pf step
  | .failed lf step => { s with noc := { s.noc with reports := s.noc.reports ++ [(lf, step, false)] } }
  | .rebind epoch => s.bindStaged pf epoch
  | .setState st => s.setFacState pf st

/-- The bundle leaves R (R181): its working core becomes the core, what it launched takes effect. -/
def leaveR (s : State) (pf : Nat) (b : Bundle) : State :=
  let f := s.facet pf
  let w := b.work
  let pl := match w.next with
    | some n => (n, w.loops)
    | none => loopEnd f.core.pc w.loops
  let s1 := s.setFacet pf { f with core := { w with pc := pl.1, loops := pl.2, eff := [], next := none, haltReq := false }, bun := none
                                   stop := if w.haltReq then some .halt else f.stop }
  let s2 := s1.wr (.FAC_STAT pf) F.FAC_STAT.pc pl.1
  let s3 := if s2.facState pf = 4 then s2.setFacState pf 3 else s2
  w.eff.foldl (applyEff pf) s3

/-- The bundle waits in R (R181): nothing of it takes effect; a STEP on an empty queue waits in WAIT, or, once
stop is set, brings the facet to IDLE (R193, R199). -/
def stallInR (s : State) (pf cause : Nat) : State :=
  let f := s.facet pf
  let s := chargeStall (s.setFacet pf { f with bun := none }) pf cause
  if cause = 5 then
    if s.on (.FAC_CTL pf) F.FAC_CTL.stop then (s.setFacState pf 1).wr (.FAC_CTL pf) F.FAC_CTL.stop 0
    else s.setFacState pf 4
  else s

/-- The end of a bundle: an ILLEGAL_BUNDLE at once, else a wait, else the lowest cause met (R191), else the
bundle leaves R. -/
def finishBundle (s : State) (pf : Nat) (b : Bundle) : State :=
  let codes := b.excs.map Prod.fst
  let low := codes.foldl min 255
  let slot := ((b.excs.find? (fun e => decide (e.1 = low))).map Prod.snd).getD 0
  if low = excIllegalBundle then takeException s pf slot low
  else match b.stall with
    | some c => stallInR s pf c
    | none => if low = 255 then leaveR s pf b else takeException s pf slot low

/-- The open bundle of a facet, or a new one. -/
def Facet.bundle (f : Facet) : Bundle := f.bun.getD ⟨f.core, [], none, [], 0⟩

/-- The check of the guard (R180, R190, R244), then the slot's own rule. -/
def guarded (h : Hdr) (c w : FCore) (run : FCore → FCore → SlotRes) : SlotRes :=
  match c.pendP h.pred with
  | some x => .stall x
  | none =>
    if c.recvBad.contains h.pred && decide (h.pred ≠ 0) then .exc excSync
    else if (c.rdP h.pred).p then .exc excPoisonCtl
    else if (c.rdP h.pred).v != h.pneg then run c w
    else .ok w

/-- One slot of a bundle presented (R178-R181): `cls` are the slots that take the instruction, `dests` the
registers it names as destinations (kind, number), `illegal` its own ILLEGAL_BUNDLE conditions of stage D, `run`
its rule with a true guard, given the core before the bundle and the working core. -/
def slotStep (h : Hdr) (cls : List Nat) (dests : List (Nat × Nat)) (illegal : Bool)
    (run : State → FCore → FCore → SlotRes) (s : State) : State :=
  if s.issuing h.pf then
    let f := s.facet h.pf
    let b := f.bundle
    let fetchBad := decide (f.core.nBundles ≤ f.core.pc)
    let real := dests.filter (fun d => !(decide (d.1 ≤ 1) && decide (d.2 = 0)))
    let dBad := !cls.contains h.slot || illegal || real.any (fun d => b.dests.contains d)
    let r := guarded h f.core b.work (run s)
    let b1 := { b with dests := b.dests ++ real, slots := b.slots + 1 }
    let b2 := if f.core.imemUe.contains f.core.pc then { b1 with excs := b1.excs ++ [(excFetch, h.slot)] }
      else if dBad then { b1 with excs := b1.excs ++ [(excIllegalBundle, h.slot)] }
      else if fetchBad then { b1 with excs := b1.excs ++ [(excPc, h.slot)] }
      else match r with
        | .ok w => { b1 with work := w }
        | .exc code => { b1 with excs := b1.excs ++ [(code, h.slot)] }
        | .stall c => { b1 with stall := firstWait [b1.stall, some c] }
    if h.last then finishBundle s h.pf b2 else s.setFacet h.pf { f with bun := some b2 }
  else s

/-- A slot whose rule changes only the working core. -/
def coreSlot (h : Hdr) (cls : List Nat) (dests : List (Nat × Nat)) (illegal : Bool)
    (run : FCore → FCore → SlotRes) (s : State) : State := slotStep h cls dests illegal (fun _ => run) s

end Sys2Proof.Machine
end

