-- ==== Sys2Proof/Machine/Flags.lean ====
section
/-! DEFINITION. The counters and lane rules that vector and tensor instructions share: format counters (R74),
INT32 saturation (R222), quantization (R61, R226), activation tables (R266, R267). -/

namespace Sys2Proof.Machine

/-- A format counter increased when the bundle leaves R (R74). -/
def FCore.count (pf : Nat) (f : Fld) (n : Nat) (c : FCore) : FCore :=
  if n = 0 then c else { c with eff := c.eff ++ [.bump (.FMT_STAT pf) f n] }

/-- A lane's result: code, poison, whether it saturated (R222). -/
structure LaneRes where
  code : Nat
  p : Bool
  sat : Bool
  deriving DecidableEq, Repr

/-- One lane of an elementwise operation (R221, R222): sources in order. -/
def laneOp (typ : Nat) (fp : List Nat → Nat) (int : List Int → Int) (xs : List (Nat × Bool)) : LaneRes :=
  if typ = 10 then ⟨fp (xs.map Prod.fst), xs.any Prod.snd, false⟩
  else
    let r := sat32 (int (xs.map (fun x => sext 32 x.1)))
    ⟨toCode 32 r.1, xs.any Prod.snd, r.2⟩

/-- The lanes of several registers, lane by lane. -/
def FCore.laneTuples (c : FCore) (vs : List Nat) : List (List (Nat × Bool)) :=
  (List.range 128).map (fun i => vs.map (fun v => c.lane v i))

/-- Lane results written to a register, saturated unpoisoned lanes counted. -/
def FCore.putLanes (pf : Nat) (w : FCore) (vd : Nat) (rs : List LaneRes) : FCore :=
  (w.wrLanes vd (rs.map (fun r => (r.code, r.p)))).count pf F.FMT_STAT.int_sat (rs.countP (fun r => r.sat && !r.p))

/-- Pairwise reduction in lane order (R73, R224): neighbours combined, level by level. -/
def pairUp (op : LaneRes → LaneRes → LaneRes) : List LaneRes → List LaneRes
  | a :: b :: t => op a b :: pairUp op t
  | l => l

/-- Pairwise reduction, at most `k` levels. -/
def reducePairs (op : LaneRes → LaneRes → LaneRes) : Nat → List LaneRes → LaneRes
  | 0, l => l.headD ⟨0, false, false⟩
  | k + 1, l => if l.length ≤ 1 then l.headD ⟨0, false, false⟩ else reducePairs op k (pairUp op l)

/-- A list cut into pieces of `n`, at most `k` of them. -/
def pieces {α : Type} (n : Nat) : Nat → List α → List (List α)
  | 0, _ => []
  | k + 1, l => if l.isEmpty then [] else l.take n :: pieces n k (l.drop n)

/-- The smallest e with mag * 2^x ≤ M * 2^e (R61), M the format's limit. -/
def scaleExp (lim mag : Nat) (x : Int) : Int :=
  let e0 : Int := (Nat.log2 mag : Int) + x - Nat.log2 lim - 1
  let ok := fun (e : Int) => if x < e then decide (mag ≤ lim * 2 ^ (e - x).toNat) else decide (mag * 2 ^ (x - e).toNat ≤ lim)
  if ok e0 then e0 else if ok (e0 + 1) then e0 + 1 else e0 + 2

/-- M of R61 for a format. -/
def quantLimit : Nat → Nat
  | 1 => 7
  | 2 => 127
  | 5 => 6
  | 6 => 448
  | _ => 57344

/-- Is an FP32 code a NaN? -/
def isNan32 (x : Nat) : Bool := decide (0x7F800000 < x % 2 ^ 31)

/-- The scale byte of a group of FP32 codes, withheld ones left out (R61, R268). -/
def scaleByte (df : Nat) (xs : List Nat) : Nat :=
  let amax := ((xs.filter (fun x => !isNan32 x)).map (· % 2 ^ 31)).foldl max 0
  if amax = 0 then 127
  else match f32 amax with
    | .fin _ m e => (max 1 (min 254 (scaleExp (quantLimit df) m e + 127))).toNat
    | _ => 254

/-- One element quantized at a scale (R61, R268): code, int_sat, nan_lost. -/
def quantOne (df s x : Nat) : Conv :=
  match f32 x with
  | .nan => ⟨0, false, true⟩
  | .inf n =>
    match ffmt df with
    | some ff => ⟨ff.signBit n + ff.maxCode, false, false⟩
    | none => ⟨toCode (fmtBits df) (signed n (quantLimit df)), true, false⟩
  | .fin n m e =>
    let v := FVal.fin n m (e + 127 - s)
    match ffmt df with
    | some ff => ⟨ff.encode v, false, false⟩
    | none =>
      let r := clampI (-(quantLimit df : Int), quantLimit df) ((toInt v).getD 0)
      ⟨toCode (fmtBits df) r.1, r.2, false⟩

/-- The index of the largest magnitude among elements not yet taken, lowest index on a tie (R226). -/
def largestLeft (xs : List Nat) (taken : List Nat) : Option Nat :=
  ((List.range xs.length).foldl (fun (b : Option (Nat × Nat)) i =>
    let x := xs.getD i 0
    if isNan32 x || taken.contains i then b
    else match b with
      | none => some (i, x % 2 ^ 31)
      | some (j, m) => if m < x % 2 ^ 31 then some (i, x % 2 ^ 31) else some (j, m)) none).map Prod.fst

/-- The lowest-indexed NaN not yet taken (R268). -/
def nanLeft (xs : List Nat) (taken : List Nat) : Option Nat :=
  (List.range xs.length).find? (fun i => isNan32 (xs.getD i 0) && !taken.contains i)

/-- The k withheld elements (R226, R268). -/
def withheld (xs : List Nat) : Nat → List Nat → List Nat
  | 0, taken => taken
  | k + 1, taken =>
    match largestLeft xs taken with
    | some i => withheld xs k (i :: taken)
    | none => match nanLeft xs taken with
      | some i => withheld xs k (i :: taken)
      | none => taken

/-- An outlier list's bytes (R227): entries in ascending row order. -/
def outlierList (xs : List Nat) (taken : List Nat) : List Byte :=
  ((List.range xs.length).filter (fun i => taken.contains i)).flatMap (fun i =>
    let x := xs.getD i 0
    let v := if isNan32 x then 0 else bf16.encode (f32 x)
    toBytes 4 (i + v * 2 ^ 16))

/-- Element codes packed into bytes with poison (R54): two 4-bit elements to a byte. -/
def packElems (nbits : Nat) : List (Nat × Bool) → List (Byte × Bool)
  | [] => []
  | a :: t =>
    if nbits = 4 then
      match t with
      | b :: t' => (BitVec.ofNat 8 (a.1 % 16 + b.1 % 16 * 16), a.2 || b.2) :: packElems nbits t'
      | [] => [(BitVec.ofNat 8 (a.1 % 16), a.2)]
    else (toBytes (nbits / 8) a.1).map (fun b => (b, a.2)) ++ packElems nbits t

/-- Element codes of a byte string with poison. -/
def unpackElems (nbits : Nat) : Nat → List (Byte × Bool) → List (Nat × Bool)
  | 0, _ => []
  | k + 1, l =>
    if nbits = 4 then
      match l with
      | b :: t => (b.1.toNat % 16, b.2) :: (b.1.toNat / 16, b.2) :: unpackElems nbits k t
      | [] => []
    else
      if l.isEmpty then []
      else (ofBytes ((l.take (nbits / 8)).map Prod.fst), (l.take (nbits / 8)).any Prod.snd) :: unpackElems nbits k (l.drop (nbits / 8))

/-- The 32-bit word at an offset of an activation table (R266). -/
def FCore.tabWord (c : FCore) (t i : Nat) : Nat := c.prism.readNat (0x8000 + t * 0x800 + i) 4

/-- Is an activation table valid (R266)? -/
def FCore.tabValid (c : FCore) (t : Nat) : Bool :=
  let lo := f32 (c.tabWord t 4)
  let hi := f32 (c.tabWord t 8)
  let iw := f32 (c.tabWord t 12)
  let finite := fun (x : FVal) => match x with | .fin _ _ _ => true | _ => false
  decide (c.prism.readNat (0x8000 + t * 0x800) 2 = 0x5441) && finite lo && finite hi
    && decide (fcmp lo hi = some .lt) && finite iw && decide (fcmp (.fin false 0 0) iw = some .lt)

/-- floor of an FP32 value, for a value in [0, 2^31). -/
def floorF (x : Nat) : Nat :=
  match f32 x with
  | .fin _ m e => scaleFloor m e 0
  | _ => 0

/-- The tail of an activation table (R267). -/
def actTail (m b x : Nat) : Nat := if m % 2 ^ 31 = 0 then b else fmaF m x b

/-- act(x) of R267. -/
def FCore.act (c : FCore) (t x : Nat) : Nat :=
  let w := c.tabWord t
  match fcmp (f32 x) (f32 (w 4)), fcmp (f32 x) (f32 (w 8)) with
  | some .lt, _ => actTail (w 16) (w 20) x
  | _, some .gt => actTail (w 24) (w 28) x
  | none, _ => 0x7FC00000
  | _, none => 0x7FC00000
  | _, _ =>
    let v := mulF (subF x (w 4)) (w 12)
    let s := min (floorF v) 127
    let u := r32 (fadd (f32 v) (fneg (ofInt s)))
    let k := fun i => c.tabWord t (32 + 12 * s + 4 * i)
    fmaF (fmaF (k 2) u (k 1)) u (k 0)

end Sys2Proof.Machine
end

