-- ==== Sys2Proof/Machine/Vector.lean ====
section
/-! DEFINITION. The vector slot (R220-R228). -/

namespace Sys2Proof.Machine

/-- typ of form VA (R221): INT32 or FP32; `fpOnly` for the functions of FP32 alone. -/
def badTyp (fpOnly : Bool) (typ : Nat) : Bool := !(decide (typ = 10) || (decide (typ = 4) && !fpOnly))

/-- An elementwise instruction of form VA (R221, R222). -/
def vaSlot (h : Hdr) (vd : Nat) (srcs : List Nat) (typ : Nat) (fpOnly : Bool) (fp : List Nat → Nat)
    (int : List Int → Int) (s : State) : State :=
  coreSlot h [3] [(2, vd)] false (fun c w =>
    waitFor (srcs.map c.pendV ++ [c.pendV vd])
      (raiseIf [(badTyp fpOnly typ, excIllegalFormat)]
        (.ok (w.putLanes h.pf vd ((c.laneTuples srcs).map (laneOp typ fp int)))))) s

def arg (xs : List Nat) (i : Nat) : Nat := xs.getD i 0
def argI (xs : List Int) (i : Nat) : Int := xs.getD i 0

/-- VLD (R221): 512 bytes aligned to 64, each byte with the poison of its word (R175). -/
def execVld (h : Hdr) (v ra imm : Nat) (s : State) : Res :=
  .next (coreSlot h [3] [(2, v)] false (fun c w =>
    let a := localAddr (c.rdS ra).v 24 imm
    let poison := (c.rdS ra).p
    waitFor [c.pendS ra, c.pendV v, if poison then none else c.pendMem a 512]
      (raiseIf [(poison, excPoisonCtl), (!poison && !sramOk a 512 64, excAddress)]
        (let w := w.eccRange h.pf a 512
         .ok (w.wrVBytes (v * 512) ((List.range 512).map (fun i => (w.sram.byte (a + i), w.sram.isPoison ((a + i) / 8)))))))) s)

/-- The words of a byte string that hold a poisoned byte. -/
def poisonWords (a : Nat) (bs : List (Byte × Bool)) : List Nat :=
  ((List.range bs.length).filter (fun i => (bs.getD i (0, false)).2)).map (fun i => (a + i) / 8)

/-- VST (R221): poisons each word whose bytes include a poisoned byte (R175). -/
def execVst (h : Hdr) (v ra imm : Nat) (s : State) : Res :=
  .next (coreSlot h [3] [] false (fun c w =>
    let a := localAddr (c.rdS ra).v 24 imm
    let poison := (c.rdS ra).p
    waitFor [c.pendS ra, c.pendV v]
      (raiseIf [(poison, excPoisonCtl), (!poison && !sramOk a 512 64, excAddress)]
        (let bs := c.vBytes v 512
         .ok (w.sramStore a (bs.map Prod.fst) (poisonWords a bs))))) s)

/-- VADD (R222). -/
def execVadd (h : Hdr) (vd va vb typ : Nat) (s : State) : Res :=
  .next (vaSlot h vd [va, vb] typ false (fun x => addF (arg x 0) (arg x 1)) (fun x => argI x 0 + argI x 1) s)

/-- VSUB (R222). -/
def execVsub (h : Hdr) (vd va vb typ : Nat) (s : State) : Res :=
  .next (vaSlot h vd [va, vb] typ false (fun x => subF (arg x 0) (arg x 1)) (fun x => argI x 0 - argI x 1) s)

/-- VMUL (R222). -/
def execVmul (h : Hdr) (vd va vb typ : Nat) (s : State) : Res :=
  .next (vaSlot h vd [va, vb] typ false (fun x => mulF (arg x 0) (arg x 1)) (fun x => argI x 0 * argI x 1) s)

/-- VFMA (R221, R222): one rounding; INT32 exact, then saturated once. -/
def execVfma (h : Hdr) (vd va vb vc typ : Nat) (s : State) : Res :=
  .next (vaSlot h vd [va, vb, vc] typ false (fun x => fmaF (arg x 0) (arg x 1) (arg x 2))
    (fun x => argI x 0 * argI x 1 + argI x 2) s)

/-- VMAX (R67). -/
def execVmax (h : Hdr) (vd va vb typ : Nat) (s : State) : Res :=
  .next (vaSlot h vd [va, vb] typ false (fun x => r32 (fmax (f32 (arg x 0)) (f32 (arg x 1)))) (fun x => max (argI x 0) (argI x 1)) s)

/-- VMIN (R67). -/
def execVmin (h : Hdr) (vd va vb typ : Nat) (s : State) : Res :=
  .next (vaSlot h vd [va, vb] typ false (fun x => r32 (fmin (f32 (arg x 0)) (f32 (arg x 1)))) (fun x => min (argI x 0) (argI x 1)) s)

/-- VABS (R222). -/
def execVabs (h : Hdr) (vd va typ : Nat) (s : State) : Res :=
  .next (vaSlot h vd [va] typ false (fun x => r32 (fabs (f32 (arg x 0)))) (fun x => (argI x 0).natAbs) s)

/-- VNEG (R222). -/
def execVneg (h : Hdr) (vd va typ : Nat) (s : State) : Res :=
  .next (vaSlot h vd [va] typ false (fun x => r32 (fneg (f32 (arg x 0)))) (fun x => -argI x 0) s)

/-- VBCS (R221): bits 31:0 of ra in every lane. -/
def execVbcs (h : Hdr) (vd ra typ : Nat) (s : State) : Res :=
  .next (coreSlot h [3] [(2, vd)] false (fun c w =>
    waitFor [c.pendS ra, c.pendV vd]
      (raiseIf [(badTyp false typ, excIllegalFormat)]
        (.ok (w.wrLanes vd (List.replicate 128 ((c.rdS ra).v.toNat % 2 ^ 32, (c.rdS ra).p)))))) s)

/-- VSEL (R221, R223): va where any bit of the vc lane is 1, else vb; poison from vc and the selected lane. -/
def execVsel (h : Hdr) (vd va vb vc typ : Nat) (s : State) : Res :=
  .next (coreSlot h [3] [(2, vd)] false (fun c w =>
    waitFor [c.pendV va, c.pendV vb, c.pendV vc, c.pendV vd]
      (raiseIf [(badTyp false typ, excIllegalFormat)]
        (.ok (w.wrLanes vd ((List.range 128).map (fun i =>
          let m := c.lane vc i
          let x := if m.1 ≠ 0 then c.lane va i else c.lane vb i
          (x.1, m.2 || x.2))))))) s)

/-- A comparison of two FP32 lanes (R223): false with a NaN, except NE. -/
def fpCond (cond : Nat) (a b : Nat) : Bool :=
  match fcmp (f32 a) (f32 b), cond with
  | none, 1 => true
  | none, _ => false
  | some o, 0 => decide (o = .eq)
  | some o, 1 => decide (o ≠ .eq)
  | some o, 2 => decide (o = .lt)
  | some o, _ => decide (o ≠ .gt)

/-- A comparison of two INT32 lanes (R223). -/
def intCond (cond : Nat) (a b : Nat) : Bool :=
  match cond with
  | 0 => decide (sext 32 a = sext 32 b)
  | 1 => decide (sext 32 a ≠ sext 32 b)
  | 2 => decide (sext 32 a < sext 32 b)
  | _ => decide (sext 32 a ≤ sext 32 b)

/-- VCMP (R223). -/
def execVcmp (h : Hdr) (vd va vb typ cond : Nat) (s : State) : Res :=
  .next (coreSlot h [3] [(2, vd)] (decide (4 ≤ cond)) (fun c w =>
    waitFor [c.pendV va, c.pendV vb, c.pendV vd]
      (raiseIf [(badTyp false typ, excIllegalFormat)]
        (.ok (w.wrLanes vd ((List.range 128).map (fun i =>
          let x := c.lane va i
          let y := c.lane vb i
          (if (if typ = 10 then fpCond cond x.1 y.1 else intCond cond x.1 y.1) then 0xFFFFFFFF else 0, x.2 || y.2))))))) s)

/-- VEXP2 (R73, R222): within 1 ulp, exact for integers. -/
def execVexp2 (h : Hdr) (vd va typ : Nat) (s : State) : Res :=
  .next (vaSlot h vd [va] typ true (fun x => exp2F (arg x 0)) (fun x => argI x 0) s)

/-- VRCP (R67, R73). -/
def execVrcp (h : Hdr) (vd va typ : Nat) (s : State) : Res :=
  .next (vaSlot h vd [va] typ true (fun x => rcpF (arg x 0)) (fun x => argI x 0) s)

/-- VRSQRT (R67, R73). -/
def execVrsqrt (h : Hdr) (vd va typ : Nat) (s : State) : Res :=
  .next (vaSlot h vd [va] typ true (fun x => rsqrtF (arg x 0)) (fun x => argI x 0) s)

/-- VACT (R266, R267): an invalid table poisons every lane. -/
def execVact (h : Hdr) (vd va typ table : Nat) (s : State) : Res :=
  .next (coreSlot h [3] [(2, vd)] false (fun c w =>
    waitFor [c.pendV va, c.pendV vd]
      (raiseIf [(badTyp true typ, excIllegalFormat)]
        (.ok (w.wrLanes vd ((c.lanes va).map (fun x =>
          (c.act table x.1, x.2 || !c.tabValid table))))))) s)

/-- One step of a reduction (R224): 0 SUM, 1 MAX, 2 MIN, 3 SUMSQ. -/
def redOp (typ op : Nat) (a b : LaneRes) : LaneRes :=
  let r := laneOp typ
    (fun x => match op with
      | 1 => r32 (fmax (f32 (arg x 0)) (f32 (arg x 1)))
      | 2 => r32 (fmin (f32 (arg x 0)) (f32 (arg x 1)))
      | _ => addF (arg x 0) (arg x 1))
    (fun x => match op with
      | 1 => max (argI x 0) (argI x 1)
      | 2 => min (argI x 0) (argI x 1)
      | _ => argI x 0 + argI x 1) [(a.code, a.p), (b.code, b.p)]
  { r with sat := r.sat || a.sat || b.sat }

/-- The lanes a reduction starts from: squares, each rounded once, for SUMSQ (R224). -/
def redStart (typ op : Nat) (x : Nat × Bool) : LaneRes :=
  if op = 3 then laneOp typ (fun y => mulF (arg y 0) (arg y 0)) (fun y => argI y 0 * argI y 0) [x] else ⟨x.1, x.2, false⟩

/-- VRED (R224): each segment reduced, its result in every lane of the segment. -/
def execVred (h : Hdr) (vd va typ op seg : Nat) (s : State) : Res :=
  .next (coreSlot h [3] [(2, vd)] (decide (5 ≤ seg)) (fun c w =>
    let n := 128 / 2 ^ seg
    waitFor [c.pendV va, c.pendV vd]
      (raiseIf [(badTyp false typ, excIllegalFormat)]
        (let segs := (pieces n (128 / n) (c.lanes va)).map (fun l => reducePairs (redOp typ op) 8 (l.map (redStart typ op)))
         let w := w.wrLanes vd (segs.flatMap (fun r => List.replicate n (r.code, r.p)))
         .ok (w.count h.pf F.FMT_STAT.int_sat (segs.countP (fun r => r.sat && !r.p)))))) s)

/-- Registers a group of 512 elements of a format takes (R225). -/
def cvtRegs (f : Nat) : Nat := if fmtBits f = 32 then 4 else if fmtBits f = 16 then 2 else 1

/-- The registers of a vector group as destinations. -/
def vGroup (v n : Nat) : List (Nat × Nat) := (List.range n).map (fun i => (2, v + i))

/-- VCVT (R225): 512 elements converted by R65 and R66, counted in FMT_STAT; the identity copies bits. -/
def execVcvt (h : Hdr) (vd va sf df half : Nat) (s : State) : Res :=
  .next (coreSlot h [3] (vGroup vd (cvtRegs df)) (decide (32 < va + cvtRegs sf) || decide (32 < vd + cvtRegs df)) (fun c w =>
    waitFor ((List.range (cvtRegs sf)).map (fun i => c.pendV (va + i)) ++ (List.range (cvtRegs df)).map (fun i => c.pendV (vd + i)))
      (raiseIf [(decide (11 ≤ sf) || decide (11 ≤ df), excIllegalFormat)]
        (let sn := fmtBits sf
         let dn := fmtBits df
         let src := ((c.vBytes va (cvtRegs sf * 512)).drop (if sn = 4 then 256 * half else 0)).take (512 * sn / 8)
         let es := unpackElems sn 512 src
         let dst := vd * 512 + (if dn = 4 then 256 * half else 0)
         if sf = df then .ok (w.wrVBytes dst src)
         else
           let rs := es.map (fun e => match elemVal sf e.1 with
             | none => ((⟨0, false, false⟩ : Conv), true)
             | some v => (convert v df, e.2))
           let w := w.wrVBytes dst (packElems dn (rs.map (fun r => (r.1.code, r.2))))
           let w := w.count h.pf F.FMT_STAT.int_sat (rs.countP (fun r => r.1.sat && !r.2))
           .ok (w.count h.pf F.FMT_STAT.nan_lost (rs.countP (fun r => r.1.lost && !r.2)))))) s)

/-- Outliers of a kc code (R226). -/
def kcCount (kc : Nat) : Nat := match kc with
  | 0 => 0
  | 1 => 4
  | 2 => 8
  | _ => 16

/-- VQUANT in row-tile mode (R226, R227, R268). -/
def quantRow (pf vd vx sd df kc : Nat) (w : FCore) (es : List (Nat × Bool)) : FCore :=
  let xs := es.map Prod.fst
  let p := es.any Prod.snd
  let out := withheld xs (kcCount kc) []
  let kept := (List.range xs.length).map (fun i => (xs.getD i 0, out.contains i))
  let sc := scaleByte df ((kept.filter (fun k => !k.2)).map Prod.fst)
  let rs := kept.map (fun k => if k.2 then (⟨0, false, isNan32 k.1⟩ : Conv) else quantOne df sc k.1)
  let w := w.wrS sd ⟨BitVec.ofNat 64 sc, p⟩
  let w := w.wrVBytes (vd * 512) (packElems (fmtBits df) (rs.map (fun r => (r.code, p))))
  let l := outlierList xs out
  let w := w.wrVBytes (vx * 512) ((l ++ List.replicate (512 - l.length) 0).map (fun b => (b, p)))
  if p then w
  else (w.count pf F.FMT_STAT.int_sat (rs.countP (fun r => r.sat))).count pf F.FMT_STAT.nan_lost (rs.countP (fun r => r.lost))

/-- VQUANT in block mode (R226, R61). -/
def quantBlocks (pf vd vx df : Nat) (w : FCore) (es : List (Nat × Bool)) : FCore :=
  let bs := (pieces 32 32 es).map (fun b =>
    let sc := scaleByte df (b.map Prod.fst)
    (sc, b.any Prod.snd, b.map (fun e => quantOne df sc e.1)))
  let w := w.wrVBytes (vd * 512) (packElems (fmtBits df) (bs.flatMap (fun b => b.2.2.map (fun r => (r.code, b.2.1)))))
  let sc := bs.map (fun b => (BitVec.ofNat 8 b.1, b.2.1))
  let w := w.wrVBytes (vx * 512) (sc ++ List.replicate (512 - sc.length) (0, false))
  let good := bs.filter (fun b => !b.2.1)
  (w.count pf F.FMT_STAT.int_sat ((good.flatMap (fun b => b.2.2)).countP (fun r => r.sat))).count pf
    F.FMT_STAT.nan_lost ((good.flatMap (fun b => b.2.2)).countP (fun r => r.lost))

/-- VQUANT (R226): 1,024 FP32 elements to a row tile (blk = 0) or to blocks (blk = 1). -/
def execVquant (h : Hdr) (vd va vx sd df : Nat) (blk : Bool) (kc : Nat) (s : State) : Res :=
  let n := if fmtBits df = 4 then 1 else 2
  .next (coreSlot h [3] (vGroup vd n ++ [(2, vx)] ++ (if blk then [] else [(0, sd)]))
    (decide (32 < va + 8) || decide (32 < vd + n)) (fun c w =>
    waitFor ((List.range 8).map (fun i => c.pendV (va + i)) ++ (List.range n).map (fun i => c.pendV (vd + i))
        ++ [c.pendV vx, if blk then none else c.pendS sd])
      (raiseIf [((if blk then !([1, 2, 5, 6, 7].contains df) else !([1, 2].contains df)), excIllegalFormat),
          (decide (kc ≠ 0) && (blk || decide (df = 1)), excIllegalFormat)]
        (let es := unpackElems 32 1024 (c.vBytes va 4096)
         .ok (if blk then quantBlocks h.pf vd vx df w es else quantRow h.pf vd vx sd df kc w es)))) s)

/-- VMOVS (R221): a lane into a scalar register, zero- or sign-extended. -/
def execVmovs (h : Hdr) (rd va lane : Nat) (sx : Bool) (s : State) : Res :=
  .next (coreSlot h [3] [(0, rd)] false (fun c w =>
    waitFor [c.pendV va, c.pendS rd]
      (let x := c.lane va lane
       .ok (w.wrS rd ⟨if sx then BitVec.ofInt 64 (sext 32 x.1) else BitVec.ofNat 64 x.1, x.2⟩))) s)

/-- The position count of a step's descriptor (R361): lane 2. -/
def Desc.count (d : Desc) : Nat := field d.bytes 8 4

/-- VWATCH (R228, R270): the i-th update of a layer in the step belongs to batch slot i; a poisoned or NaN value
is not entered; an update past the position count, or with both grad and spec, is dropped and counted. -/
def execVwatch (h : Hdr) (va layer : Nat) (spec grad : Bool) (s : State) : Res :=
  .next (coreSlot h [3] [] false (fun c w =>
    waitFor [c.pendV va]
      (let x := c.lane va 0
       let service := s.rd (.FAC_BIND h.pf) F.FAC_BIND.service
       let i := Tab.getD w.vwCount layer 0
       let w1 := if grad then w else { w with vwCount := Tab.put w.vwCount layer 0 (i + 1) }
       match c.step with
       | none => .ok w1
       | some d =>
         if (grad && spec) || (!grad && decide (d.count ≤ i)) then
           .ok { w1 with eff := w1.eff ++ [.bump (.NW_STAT service) F.NW_STAT.dropped 1] }
         else if x.2 || isNan32 x.1 then .ok w1
         else .ok { w1 with eff := w1.eff ++ [.watch ⟨service, d.step, s.lfOf h.pf, layer, i, spec, grad, x.1⟩] })) s)

end Sys2Proof.Machine
end

