-- ==== Sys2Proof/Machine/ArraySlot.lean ====
section
/-! DEFINITION. The array slot (R229-R231, R171). -/

namespace Sys2Proof.Machine

/-- The validity of a handle value (R171). -/
def handleValid (v : Variant) (x : Nat) : Bool :=
  let cnt := bits x 15 8
  decide (bits x 63 63 = 1) && decide (bits x 62 28 = 0) && decide (bits x 7 7 = 0)
    && decide (1 ≤ cnt) && decide (bits x 6 0 + cnt ≤ v.logicals)
    && decide (bits x 27 26 ≠ 3) && decide (cnt % handleSlices x = 0)
    && decide (bits x 19 16 ≤ 3) && [1, 3, 7, 15].contains (bits x 23 20)

/-- Magnitude planes of an input format (R63). -/
def planesOf (fmt : Nat) : Nat := match fmt with
  | 0 => 1
  | 1 => 3
  | 2 => 7
  | _ => 15

/-- Registers an AISS source group takes (R230). -/
def aissRegs (fmt : Nat) : Nat := match fmt with
  | 0 => 2
  | 1 => 1
  | 2 => 2
  | _ => 4

/-- The driven value of an element (R63) and whether it saturates; none for a poisoned element (R55, R80). -/
def driveElem (fmt : Nat) (e : Nat × Bool) : Option (Int × Bool) :=
  if e.2 then none
  else match elemVal fmt e.1 with
    | none => none
    | some _ =>
      let i := sext (fmtBits fmt) e.1
      let m : Int := 2 ^ planesOf fmt - 1
      if i < -m then some (-m, true) else some (i, false)

/-- HSET (R171, R229). -/
def execHset (h : Hdr) (hd ra : Nat) (s : State) : Res :=
  .next (coreSlot h [4] [(4, hd)] false (fun c w =>
    waitFor [c.pendS ra]
      (raiseIf [((c.rdS ra).p, excPoisonCtl), (!(c.rdS ra).p && !handleValid s.variant (c.rdS ra).v.toNat, excIllegalHandle)]
        (.ok (w.wrH hd (c.rdS ra))))) s)

/-- The outlier list of an issue (R227): rows and BF16 values, with a poisoned value told. -/
def listEntries (k : Nat) (bs : List (Byte × Bool)) : List (Nat × Nat × Bool) :=
  (List.range k).map (fun i =>
    let b := (bs.drop (4 * i)).take 4
    let w := ofBytes (b.map Prod.fst)
    (w % 1024, w / 2 ^ 16, b.any Prod.snd))

/-- The issue an AISS makes (R230, R62, R63, R80, R122). -/
def buildIssue (c : FCore) (x : Nat) (es : List (Nat × Bool)) (sc : SReg) (bank : Nat) (acc spec : Bool)
    (es2 : List (Nat × Nat × Bool)) : Issue :=
  let fmt := bits x 19 16
  let ds := es.map (driveElem fmt)
  let scale := sc.v.toNat % 256
  { seq := c.seq, logical := bits x 6 0, bank := bank, acc := acc, spec := spec, planes := planesOf fmt
    policy := bits x 25 24, xs := ds.map (fun d => (d.map Prod.fst).getD 0)
    bad := ds.any Option.isNone || sc.p || decide (scale = 255)
    outPoison := es2.any (fun e => e.2.2), entry := Mem.empty
    scale := scale, scalePoison := sc.p, outliers := es2.map (fun e => (e.1, e.2.1))
    slices := handleSlices x, sliceNo := 0, step := c.stepNo }

/-- AISS (R230): a row tile issued to every array of the handle. -/
def execAiss (h : Hdr) (hn vs ss bank : Nat) (acc spec : Bool) (kc vo : Nat) (s : State) : Res :=
  .next (slotStep h [4] [] false (fun s c w =>
    let x := (c.rdH hn).v.toNat
    let ok := handleValid s.variant x
    let fmt := bits x 19 16
    let n := aissRegs fmt
    let service := s.rd (.FAC_BIND h.pf) F.FAC_BIND.service
    let k := kcCount kc
    waitFor ((List.range n).map (fun i => c.pendV (vs + i)) ++ [c.pendS ss, if kc = 0 then none else c.pendV vo])
      (raiseIf [(!ok, excIllegalHandle), (ok && decide (32 < vs + n), excIllegalBundle),
          (ok && decide (bits x 23 20 ≠ planesOf fmt), excIllegalFormat),
          (decide (kc ≠ 0) && ((ok && decide (fmt ≠ 2)) || decide (kc ≠ s.rd (.SVC_CFG service) F.SVC_CFG.outlier_kc)), excIllegalFormat)]
        (if s.rowBuffersFree h.pf (bits x 6 0) (bits x 15 8) && !s.regionCold (regionOf h.pf) then
          let es := unpackElems (fmtBits fmt) 1024 (c.vBytes vs (n * 512))
          let l := listEntries k (c.vBytes vo 64)
          let i := buildIssue c x es (c.rdS ss) bank acc spec l
          let rows := l.map Prod.fst
          let listBad := !(l.any (fun e => e.2.2)) && (rows.any (fun r => decide (i.xs.getD r 0 ≠ 0)) || decide (rows.eraseDups ≠ rows))
          let sat := (es.map (driveElem fmt)).countP (fun d => (d.map Prod.snd).getD false)
          let w := w.count h.pf F.FMT_STAT.drive_sat sat
          let w := w.count h.pf F.FMT_STAT.scale_invalid (b2n (decide (i.scale = 255) && !i.scalePoison))
          .ok { w with seq := w.seq + 1, eff := w.eff ++ [.issue (bits x 6 0) (bits x 15 8) i hn listBad] }
        else .stall 0))) s)

/-- ADRNV (R231): a column tile of a bank into 8 registers, its scale byte into sd. -/
def execAdrnv (h : Hdr) (vd hn tile bank : Nat) (dq : Bool) (sd : Nat) (s : State) : Res :=
  .next (coreSlot h [4] (vGroup vd 8 ++ [(0, sd)]) (decide (32 < vd + 8)) (fun c w =>
    let x := (c.rdH hn).v.toNat
    let ok := handleValid s.variant x
    waitFor ((List.range 8).map (fun i => c.pendV (vd + i)) ++ [c.pendS sd])
      (raiseIf [(!ok || decide (handleTiles x ≤ tile), excIllegalHandle)]
        (if c.drains.length < 8 then
          .ok { w with seq := w.seq + 1, drains := w.drains ++ [⟨c.seq, x, false, vd, tile, bank, dq, sd, false, false⟩] }
        else .stall 0))) s)

/-- ADRNM (R231): every column tile of a bank into data SRAM from ra. -/
def execAdrnm (h : Hdr) (hn bank : Nat) (dq : Bool) (ra : Nat) (s : State) : Res :=
  .next (coreSlot h [4] [] false (fun c w =>
    let x := (c.rdH hn).v.toNat
    let ok := handleValid s.variant x
    let a := (c.rdS ra).v.toNat
    let poison := (c.rdS ra).p
    waitFor [c.pendS ra]
      (raiseIf [(!ok, excIllegalHandle), (poison, excPoisonCtl),
          (ok && !poison && !sramOk a (handleTiles x * 4096) 64, excAddress)]
        (if c.drains.length < 8 then
          .ok { w with seq := w.seq + 1, drains := w.drains ++ [⟨c.seq, x, true, a, 0, bank, dq, 0, false, false⟩] }
        else .stall 0))) s)

end Sys2Proof.Machine
end

