-- ==== Sys2Proof/Machine/Arrays.lean ====
section
/-! DEFINITION. The array islands at work: products and planes (R78-R95), the check lane and its replays (R109-R116),
exact fallback (R117-R121), drains (R95, R98, R124). -/

namespace Sys2Proof.Machine

/-- The event of a rejected map write (R108): ARR_CTL.map_reject and ARR_MAP_REJECT with the register offset. -/
def State.mapReject (s : State) (pf offset : Nat) : State :=
  (s.wr (.ARR_CTL pf) F.ARR_CTL.map_reject 1).raise (facEvent pf 0x403 0xFFFF [offset])

/-- The row-tile policy's aperture code in force (R83): the larger of the handle's and the ceiling. -/
def State.apCode (s : State) (pf : Nat) (i : Issue) : Nat := max i.policy (s.rd (.ARR_CTL pf) F.ARR_CTL.ap_ceiling)

/-- The aperture of a plane about to begin (R81, R83). -/
def State.planeAperture (s : State) (pf : Nat) (i : Issue) (b : Nat) : Nat :=
  chooseAperture (activeRows i.xs b) (apMax (s.apCode pf i))

/-- A facet still has a drain of the bank that is older than an issue (R95). -/
def FCore.olderDrain (c : FCore) (n bank seq : Nat) : Bool :=
  c.drains.any (fun d => decide (d.seq < seq) && decide (d.bank = bank) && decide (bits d.handle 6 0 ≤ n)
    && decide (n < bits d.handle 6 0 + bits d.handle 15 8))

/-- Outlier terms of an issue are still to be added to a logical array's bank (R125). -/
def State.outPending (s : State) (pf n bank : Nat) (p : Nat → Bool) : Bool :=
  (Tab.getD s.outJobs pf []).any (fun j => p j.issue.seq && decide (j.issue.bank = bank) && decide (j.base ≤ n)
    && decide (n < j.base + j.count))

/-- The arrays a drain waits for (R95, R231): those of its column tile, or every array of the handle. -/
def ADrain.arrays (d : ADrain) : List Nat :=
  let sl := handleSlices d.handle
  if d.toMem then (List.range (bits d.handle 15 8)).map (· + bits d.handle 6 0)
  else (List.range sl).map (fun k => bits d.handle 6 0 + sl * d.tile + k)

/-- No product of the drain's arrays is in flight or queued ahead of it, and no outlier term of its bank is still
to be added (R95, R125). -/
def State.drainReady (s : State) (pf : Nat) (d : ADrain) : Bool :=
  d.arrays.all (fun n =>
    let x := s.parr pf (s.physOf pf n)
    !(x.queue.any (fun i => decide (i.seq < d.seq)))
      && !((x.run.map (fun p => decide (p.issue.seq < d.seq))).getD false)
      && !(s.outPending pf n d.bank (fun q => decide (q < d.seq))))

/-- Latched drains that have become ready are launched back toward the facet (R95). -/
def State.launchDrains (s : State) (pf : Nat) : State :=
  s.asyncCore pf (fun c => { c with drains := c.drains.map (fun d =>
    if d.latched && s.drainReady pf d then { d with launched := true } else d) })

/-- PRODUCT_START (R78, R81, R84): with no product in progress and no binding waiting, the oldest queued issue
becomes the product and its plane 0 begins. -/
def execProductStart (pf arr : Nat) (s : State) : Res :=
  let x := s.parr pf arr
  match x.run, x.queue with
  | none, i :: rest =>
    if (s.larr pf i.logical).bind.isSome then .next s
    else .next (s.setParr pf arr { x with
      queue := rest, run := some ⟨i, 0, s.planeAperture pf i 0, [], none, false, false⟩ })
  | _, _ => .next s

/-- The converter that first reads a column (R89, R106). -/
def State.convOf (s : State) (pf a col : Nat) : Nat := s.srv pf a (col % 256)

/-- Is a conversion with a deviation over-range (R86, R87)? -/
def convOver (e : ConvErr) (healthy : Int) : Bool :=
  e.ovr || decide (healthy + e.dev ≤ -64) || decide (64 ≤ healthy + e.dev)

/-- A plane's narrow sums with the deviations of its conversions; an over-range code is not added (R87, R92). -/
def narrowSums (w : Tab Int) (xs : List Int) (b ap : Nat) (errs : List ConvErr) : Tab Int :=
  errs.foldl (fun t e =>
    let h := windowSum w xs b ap e.win e.col
    Tab.put t e.col 0 (Tab.getD t e.col 0 + (if convOver e h then -h else e.dev))) (planeSums w xs b)

/-- The over-range conversions of a plane. -/
def overRange (w : Tab Int) (xs : List Int) (b ap : Nat) (errs : List ConvErr) : List ConvErr :=
  errs.filter (fun e => convOver e (windowSum w xs b ap e.win e.col))

/-- Over-range conversions counted in the converters that made them (R87). -/
def State.countOver (s : State) (pf a : Nat) (cs : List Nat) : State :=
  cs.foldl (fun s c => s.bump (.CONV_STAT pf a c) F.CONV_STAT.ovr_count 1) s

/-- The bank made ready for the first promotion of a product (R94): CLEAR zeroes it and records the scale byte;
ACCUM with another scale byte poisons every column; R80 and R122 poison every column. -/
def prepBank (k : Bank) (i : Issue) : Bank :=
  let k := if i.acc then
      (if i.scale = k.scale ∧ i.scalePoison = k.scaleP then k else k.poisonCols 0 1024)
    else
      { k with cells := Mem.empty, scale := i.scale, scaleP := i.scalePoison
               outl := if i.outliers.isEmpty then [] else k.outl
               entered := if i.outliers.isEmpty then false else k.entered
               outBad := if i.outliers.isEmpty then false else k.outBad }
  if i.bad || i.outPoison then k.poisonCols 0 1024 else k

/-- Groups promoted into the product's bank (R93). -/
def State.promoteGroups (s : State) (pf : Nat) (i : Issue) (b : Nat) (sums : Tab Int) (gs : List Nat) : State :=
  let x := s.larr pf i.logical
  let r := gs.foldl (fun (acc : Bank × Nat) g => let q := acc.1.promote sums b g; (q.1, acc.2 + q.2)) (x.bank i.bank, 0)
  (s.setLarr pf i.logical (x.setBank i.bank r.1)).bump (.FMT_STAT pf) F.FMT_STAT.int_sat r.2

/-- A stack's golden-copy places (R119): the stack of an HBM address. -/
def stackOf (a : Nat) : Nat := a / 2 ^ 37

/-- A waiting fallback joins its stack's list, unless it reads nothing (R119, R120). -/
def State.joinPlace (s : State) (pf a n : Nat) : State :=
  if s.on (.GOLD_BASE pf n) F.GOLD_BASE.valid then
    let k := stackOf (s.rd (.GOLD_BASE pf n) F.GOLD_BASE.addr * 64)
    { s with fbPlaces := Tab.put s.fbPlaces k [] (Tab.getD s.fbPlaces k [] ++ [(pf, a)]) }
  else s

/-- A fallback gives its place back. -/
def State.leavePlace (s : State) (pf a : Nat) : State :=
  { s with fbPlaces := (s.fbPlaces.map (fun e => (e.1, e.2.filter (fun q => decide (q ≠ (pf, a)))))).filter (fun e => !e.2.isEmpty) }

/-- The product goes on with the next plane-group to settle (R115, R116), or with the next plane, or is finished. -/
def State.settleNext (s : State) (pf a : Nat) (p : Product) : State :=
  let x := s.parr pf a
  match p.flags with
  | g :: _ =>
    if x.lost then
      (s.setParr pf a { x with run := some { p with settle := some (.waiting g false true) } }).joinPlace pf a p.issue.logical
    else match s.freeMirror pf a with
      | some m =>
        let s := s.setParr pf a { x with run := some { p with settle := some (.replay g m) } }
        let s := (s.setConv pf a m 3 0x1FF).countFree pf a
        s.bump (.SP_STAT pf) F.SP_STAT.replays 1
      | none =>
        (s.setParr pf a { x with run := some { p with settle := some (.waiting g false false) } }).joinPlace pf a p.issue.logical
  | [] =>
    let b := p.plane + 1
    let q := if b = p.issue.planes then { p with settle := none, finished := true }
      else { p with settle := none, plane := b, aperture := s.planeAperture pf p.issue b }
    s.setParr pf a { x with run := some q }

/-- The column bands of R135: one admitted margin event of a converter. -/
def ConvStat.margin (c : ConvStat) (code : Int) (high : Bool) : ConvStat :=
  if -62 ≤ code ∧ code ≤ 62 then
    let sg : Int := if high then 1 else -1
    { c with a0 := c.a0 + sg, a1 := c.a1 + sg * code, m0 := c.m0 + 1, m2 := c.m2 + (code * code).toNat }
  else c

/-- The admitted conversions of a plane (R126, R135, R136, R146): `gs` its promoted groups, `win` the windows of a
column. Each converter's window and margin counts, and each shadow window's comparisons, take them. -/
def State.countPlane (s : State) (pf a win : Nat) (gs : List Nat) (margins : List Margin) (disagree : List Nat) : State :=
  let x := s.parr pf a
  let conv := if (s.region (regionOf pf)).cal.isNone then x.conv else
    let t := (List.range 256).foldl (fun t p =>
      let c := s.srv pf a p
      let k := Tab.getD t c ConvStat.zero
      Tab.put t c ConvStat.zero { k with count := min (k.count + win * gs.length) (2 ^ 22) }) x.conv
    margins.foldl (fun t m =>
      if gs.contains (m.col / 256) then
        let c := s.convOf pf a m.col
        Tab.put t c ConvStat.zero ((Tab.getD t c ConvStat.zero).margin m.code m.high)
      else t) t
  let shadows := x.shadows.map (fun w =>
    { w with compared := min (w.compared + win * gs.length) (2 ^ 20)
             differs := w.differs || disagree.any (fun col => decide (col % 256 = w.pos) && gs.contains (col / 256)) })
  s.setParr pf a { x with conv := conv, shadows := shadows }

/-- An injection armed on an array, or on a converter of it (R470). -/
def State.injArray (s : State) (kind pf a : Nat) : Bool :=
  s.injArmed kind (unitDesc 2 pf a 0)
    || (List.range 264).any (fun c => s.injArmed kind (unitDesc 1 pf a c))

/-- The column whose conversion an injected over-range falls on (R470): the target converter's first column. -/
def State.injCol (s : State) (pf a : Nat) : Nat :=
  (((List.range 256).find? (fun p => s.injArmed 3 (unitDesc 1 pf a (s.srv pf a p)) || s.injArmed 4 (unitDesc 1 pf a (s.srv pf a p))))).getD 0

/-- The counter of R104 that a plane increments. -/
def apIndex (ap : Nat) : Nat := match ap with
  | 0 => 0
  | 32 => 1
  | 64 => 2
  | 128 => 3
  | _ => 4

/-- A product whose poison exempts it (R80): over-range conversions are counted, nothing is checked. -/
def planeExempt (s : State) (pf a : Nat) (p : Product) (sums : Tab Int) : State :=
  (s.promoteGroups pf p.issue p.plane sums [0, 1, 2, 3]).settleNext pf a { p with flags := [] }

/-- Over-range in a plane (R90, R91): an escape at a wide aperture; a fence of each converter at aperture 32, and,
once a position has no converter left, all four groups to exact fallback. -/
def planeOver (s : State) (pf a : Nat) (p : Product) (cs : List Nat) (dry : Bool) : State :=
  let x := s.parr pf a
  if p.aperture ≠ 32 then
    let s := s.bump (.ARR_STAT pf a) F.ARR_STAT.esc_count 1
    let s := s.raise (facEvent pf 0x401 0xFFFF [a, p.plane])
    s.setParr pf a { x with run := some { p with aperture := 32 } }
  else if dry then s
  else
    let s := cs.foldl (fun s c => s.fenceConv pf a c 4) s
    if (s.parr pf a).lost then s.settleNext pf a { p with flags := [0, 1, 2, 3] } else s

/-- The check of a plane (R112): the groups that pass are promoted, the others flagged. -/
def planeCheck (s : State) (pf a : Nat) (p : Product) (sums : Tab Int) (margins : List Margin) (disagree : List Nat)
    (inj : Bool) : State :=
  let i := p.issue
  let pass := (List.range 4).filter (fun g =>
    decide (expectedResidue i.entry i.xs p.plane g = (observedResidue sums g + b2n (inj && decide (g = 0))) % 64))
  let flags := (List.range 4).filter (fun g => !pass.contains g)
  let s := s.promoteGroups pf i p.plane sums pass
  let s := if i.spec then s else s.countPlane pf a (1024 / p.aperture) pass margins disagree
  let s := s.bump (.SP_STAT pf) F.SP_STAT.flags flags.length
  let s := if inj ∧ s.injArray 1 pf a then s.injDone else s
  s.settleNext pf a { p with flags := flags }

/-- PLANE_COMPLETE (R84-R93, R112): the plane in progress ends; `errs` are the deviations of its conversions,
`margins` their margin events, `disagree` the columns in which a calibrating converter's code or OVR differs. -/
def execPlaneComplete (pf arr : Nat) (errs : List ConvErr) (margins : List Margin) (disagree : List Nat) (s : State) : Res :=
  let x := s.parr pf arr
  match x.run with
  | none => .next s
  | some p =>
    let i := p.issue
    if p.finished || p.settle.isSome || (s.facet pf).core.olderDrain i.logical i.bank i.seq
        || (!p.cleared && s.outPending pf i.logical i.bank (fun q => decide (q < i.seq))) then .next s
    else
      let s := s.bump (.ARR_APCNT pf (apIndex p.aperture)) F.ARR_APCNT.planes 1
      let lx := s.larr pf i.logical
      let s := if p.cleared then s else s.setLarr pf i.logical (lx.setBank i.bank (prepBank (lx.bank i.bank) i))
      let p := { p with cleared := true }
      if p.aperture = 0 then .next (s.settleNext pf arr { p with flags := [] })
      else
        let injOver := s.injArray (if p.aperture = 32 then 4 else 3) pf arr && !i.bad
        let errs := if injOver then ⟨s.injCol pf arr, 0, 0, true⟩ :: errs else errs
        let sums := narrowSums x.w i.xs p.plane p.aperture errs
        let beyond := overRange x.w i.xs p.plane p.aperture errs
        let cs := beyond.map (fun e => s.convOf pf arr e.col)
        let s := s.setParr pf arr { x with run := some p }
        let s := s.countOver pf arr cs
        let dry := injOver && s.injDry
        let s := if injOver then s.injDone else s
        if i.bad then .next (planeExempt s pf arr p sums)
        else if x.lost then .next (s.settleNext pf arr { p with flags := [0, 1, 2, 3] })
        else if !beyond.isEmpty then .next (planeOver s pf arr p cs.eraseDups dry)
        else .next (planeCheck s pf arr p sums margins disagree (s.injArray 1 pf arr || s.injArray 2 pf arr))

/-- The converter that replays a column (R114): the one that serves the next position, and for position 255 the lent
mirror. -/
def State.replayConv (s : State) (pf a mirror col : Nat) : Nat :=
  if col % 256 = 255 then mirror else s.srv pf a (col % 256 + 1)

/-- REPLAY_COMPLETE (R114, R115): the replay of a flagged plane-group ends; `errs` are the deviations of its
conversions at aperture 32. -/
def execReplayComplete (pf arr : Nat) (errs : List ConvErr) (s : State) : Res :=
  let x := s.parr pf arr
  match x.run with
  | none => .next s
  | some p =>
    match p.settle with
    | some (.replay g m) =>
      let i := p.issue
      let errs := errs.filter (fun e => decide (e.col / 256 = g))
      let sums := narrowSums x.w i.xs p.plane 32 errs
      let beyond := overRange x.w i.xs p.plane 32 errs
      let cs := beyond.map (fun e => s.replayConv pf arr m e.col)
      let s := s.countOver pf arr cs
      let s := (s.setConv pf arr m 1 0x1FF).countFree pf arr
      let inj := s.injArray 2 pf arr
      let dry := inj && s.injDry
      let s := if inj then s.injDone else s
      if !beyond.isEmpty then
        let s := cs.eraseDups.foldl (fun s c => s.fenceConv pf arr c 4) s
        let lost := (s.parr pf arr).lost
        .next ((s.setParr pf arr { s.parr pf arr with run := some { p with settle := some (.waiting g (!lost) lost) } }).joinPlace pf arr i.logical)
      else if expectedResidue i.entry i.xs p.plane g = (observedResidue sums g + b2n inj) % 64 then
        let s := s.promoteGroups pf i p.plane sums [g]
        let s := s.bump (.SP_STAT pf) F.SP_STAT.replay_pass 1
        .next (s.settleNext pf arr { p with flags := p.flags.drop 1 })
      else
        .next ((s.setParr pf arr { x with run := some { p with settle := some (.waiting g (!dry) false) } }).joinPlace pf arr i.logical)
    | _ => .next s

/-- EXACT_FALLBACK_START (R119, R120): a waiting fallback begins; one with GOLD_BASE_n.valid = 0 reads nothing, and
any other needs one of its stack's 16 places. -/
def execExactFallbackStart (pf arr : Nat) (s : State) : Res :=
  let x := s.parr pf arr
  match x.run with
  | none => .next s
  | some p =>
    match p.settle with
    | some (.waiting g counted forced) =>
      let r := Reg.GOLD_BASE pf p.issue.logical
      let start := fun (src : Option Nat) =>
        Host.Outcome.next (s.setParr pf arr { x with run := some { p with settle := some (.reading g counted forced src) } })
      if s.on r F.GOLD_BASE.valid then
        let a := s.rd r F.GOLD_BASE.addr * 64
        if ((Tab.getD s.fbPlaces (stackOf a) []).take 16).contains (pf, arr) then start (some a)
        else if (Tab.getD s.fbPlaces (stackOf a) []).contains (pf, arr) then .next s
        else .next ((s.leavePlace pf arr).joinPlace pf arr p.issue.logical)
      else
        .next ((s.leavePlace pf arr).setParr pf arr { x with run := some { p with settle := some (.reading g counted forced none) } })
    | _ => .next s

/-- The bytes of a group in a golden row (R118). -/
def goldFrom (g : Nat) : Nat := 256 * g / 5
def goldTo (g : Nat) : Nat := (256 * g + 255) / 5

/-- A trit of a golden row (R117): column j is trit j mod 5 of byte j / 5. -/
def goldTrit (row : List Byte) (off j : Nat) : Int :=
  match t5Decode (row.getD (j / 5 - off) 0).toNat with
  | some t => t.getD (j % 5) 0
  | none => 0

/-- The plane sums of a group from the golden copy (R118). -/
def State.goldSums (s : State) (a : Nat) (xs : List Int) (b g : Nat) : Tab Int :=
  (activeRows xs b).foldl (fun t r =>
    let row := s.hbm.read (a + 205 * r + goldFrom g) (goldTo g + 1 - goldFrom g)
    (List.range 256).foldl (fun t k =>
      let j := 256 * g + k
      Tab.put t j 0 (Tab.getD t j 0 + rowSign xs r * goldTrit row (goldFrom g) j)) t) []

/-- The counted fallbacks that lie within the window of R121 at a product number. -/
def PArr.inWindow (x : PArr) (p : Nat) : Nat := (x.fbs.filter (fun q => decide (p < q + 1000000))).length

/-- SP_ARR_n.fb_window brought up to date (R131). -/
def State.showWindow (s : State) (pf a : Nat) : State :=
  let x := s.parr pf a
  s.wr (.SP_ARR pf a) F.SP_ARR.fb_window (min 2 (x.inWindow (x.prods + 1)))

/-- A settled fallback counted (R121, R132): its event, and the takeover request of the third counted one. -/
def State.countFallback (s : State) (pf a : Nat) (p : Product) (g : Nat) (counted : Bool) : State :=
  let s := s.bump (.SP_STAT pf) F.SP_STAT.fallbacks 1
  let s := s.bump (.SP_ARR pf a) F.SP_ARR.fb_total 1
  let s := s.raise (facEvent pf 0x404 0xFFFF [a, p.plane, g, b2n counted])
  let s := s.cper ⟨clsRecovered, 2, false, false, false, false, unitDesc 2 pf a 0, p.issue.step, s.lfField pf, 0xFFFF, 0x404, toBytes 8 (s.reg (.ARR_STAT pf a))⟩
  if counted then
    let x := s.parr pf a
    let n := x.prods + 1
    let earlier := x.inWindow n
    let s := s.setParr pf a { x with fbs := x.fbs ++ [n] }
    let s := s.wr (.SP_ARR pf a) F.SP_ARR.marked 1
    let s := s.showWindow pf a
    if 2 ≤ earlier then s.requestTakeover pf a else s
  else s

/-- A golden read that fails (R120): the group poisoned, gold_fail counted, SP_GOLD_FAIL raised. -/
def State.goldFail (s : State) (pf n g : Nat) : State :=
  let s := s.bump (.SP_ERR pf) F.SP_ERR.gold_fail 1
  let s := s.raise (facEvent pf 0x407 0xFFFF [n, g])
  s.cper ⟨clsContained, 2, false, false, false, false, unitDesc 2 pf (s.physOf pf n) 0, 0, s.lfField pf, 0xFFFF, 0x407, toBytes 8 (s.reg (.ARR_STAT pf (s.physOf pf n)))⟩

/-- EXACT_FALLBACK_DONE (R118, R120): the golden trits give the group's plane sums, which are promoted; a
disagreement with the check store is counted and raised; a poisoned or invalid read poisons the group. -/
def execExactFallbackDone (pf arr : Nat) (s : State) : Res :=
  let x := s.parr pf arr
  match x.run with
  | none => .next s
  | some p =>
    match p.settle with
    | some (.reading g counted forced src) =>
      let i := p.issue
      let s := s.leavePlace pf arr
      let n := goldTo g + 1 - goldFrom g
      let bytesOf := fun (a : Nat) => (List.range 1024).flatMap (fun r => s.hbm.read (a + 205 * r + goldFrom g) n)
      let poison := match src with
        | none => true
        | some a => (List.range 1024).any (fun r => s.hbm.rangePoison 64 (a + 205 * r + goldFrom g) n)
      let invalid := match src with
        | none => 0
        | some a => (bytesOf a).countP (fun b => decide (243 ≤ b.toNat))
      let s := s.bump (.FMT_STAT pf) F.FMT_STAT.t5_invalid invalid
      let fail := poison || decide (invalid ≠ 0)
      let s := if fail then
          let lx := s.larr pf i.logical
          (s.setLarr pf i.logical (lx.setBank i.bank ((lx.bank i.bank).poisonCols (256 * g) 256))).goldFail pf i.logical g
        else
          let sums := s.goldSums (src.getD 0) i.xs p.plane g
          let s := s.promoteGroups pf i p.plane sums [g]
          let inj := s.injArray 5 pf arr
          if decide (expectedResidue i.entry i.xs p.plane g = observedResidue sums g) != inj then s
          else
            let s := if inj then s.injDone else s
            let s := s.bump (.SP_ERR pf) F.SP_ERR.store_mismatch 1
            let s := s.raise (facEvent pf 0x406 0xFFFF [i.logical, p.plane, g])
            s.cper ⟨clsRecovered, 5, inj, false, false, false, unitDesc 2 pf arr 0, i.step, s.lfField pf, 0xFFFF, 0x406, toBytes 8 (s.reg (.ARR_STAT pf arr))⟩
      let s := s.countFallback pf arr p g (counted && !fail && !forced)
      .next (s.settleNext pf arr { p with flags := p.flags.drop 1 })
    | _ => .next s

/-- PRODUCT_COMPLETE (R85, R95, R121): the product's last plane has been promoted: the row buffer is free, the
product counted, check-window words that waited take effect, drains that waited are launched. -/
def execProductComplete (pf arr : Nat) (s : State) : Res :=
  let x := s.parr pf arr
  match x.run with
  | some p =>
    if p.finished then
      let s := s.setParr pf arr { x with run := none, prods := x.prods + 1 }
      let s := s.wr (.ARR_STAT pf arr) F.ARR_STAT.inflight x.queue.length
      let lx := s.larr pf p.issue.logical
      let s := s.setLarr pf p.issue.logical { lx with
        chk := lx.chkPend.foldl (fun m e => m.writeNat (8 * e.1) 8 e.2) lx.chk, chkPend := [] }
      .next ((s.showWindow pf arr).launchDrains pf)
    else .next s
  | none => .next s

/-- DRAIN_REQUEST_LATCH (R95): the request of a pending drain is latched in the array island, and launched back at
once when nothing is ahead of it. -/
def execDrainRequestLatch (pf idx : Nat) (s : State) : Res :=
  match (s.facet pf).core.drains[idx]? with
  | none => .next s
  | some d =>
    let s1 := s.asyncCore pf (fun c => { c with drains := c.drains.map (fun e =>
      if e.seq = d.seq then { e with latched := true } else e) })
    .next (s1.launchDrains pf)

/-- R98: the slice results of a column combined, with the number of saturations. -/
def combineSlices (rs : List Int) : Int × Nat :=
  match rs.reverse with
  | [] => (0, 0)
  | r :: rest => rest.foldl (fun (acc : Int × Nat) x =>
      let a := sat32 (acc.1 + acc.1)
      let b := sat32 (a.1 + acc.1)
      let c := sat32 (b.1 + x)
      (c.1, acc.2 + b2n a.2 + b2n b.2 + b2n c.2)) (r, 0)

/-- fp32(value × 2^(s − 127)) rounded once (R73, R231). -/
def dequant (value : Int) (scale : Nat) : Nat :=
  r32 (fscale ((scale : Int) - 127) (ofInt value))

/-- A column of a bank as a drain returns it (R95, R98, R124, R231): its 32 bits, its poison, saturations. -/
def drainColumn (bs : List Bank) (dq : Bool) (j : Nat) : Nat × Bool × Nat :=
  let r := combineSlices (bs.map (fun k => k.get j))
  let poison := bs.any (fun k => k.cells.isPoison j || k.outBad)
  match bs with
  | [] => (0, false, 0)
  | k :: _ =>
    if k.entered then (addF (dequant r.1 k.scale) (Tab.getD k.outl j 0), poison, r.2)
    else if dq then (dequant r.1 k.scale, poison, r.2)
    else (toCode 32 r.1, poison, r.2)

/-- A column tile of a handle as a drain returns it: 1,024 columns. -/
def State.drainTile (s : State) (pf : Nat) (d : ADrain) (tile : Nat) : List (Nat × Bool × Nat) :=
  let sl := handleSlices d.handle
  let bs := (List.range sl).map (fun k => (s.larr pf (bits d.handle 6 0 + sl * tile + k)).bank d.bank)
  (List.range 1024).map (drainColumn bs d.dq)

/-- The words of data SRAM that poisoned columns poison (R231, R175). -/
def poisonedWords (a : Nat) (cols : List (Nat × Bool × Nat)) : List Nat :=
  ((List.range cols.length).filter (fun i => (cols.getD i (0, false, 0)).2.1)).map (fun i => (a + 4 * i) / 8)

/-- DRAIN_VECTOR_RETURN (R95, R98, R231): the vectors of a launched drain are latched in the facet and written to
their destinations. -/
def execDrainVectorReturn (pf idx : Nat) (s : State) : Res :=
  match (s.facet pf).core.drains[idx]? with
  | none => .next s
  | some d =>
    -- overlapping ranges in data SRAM are written in program order (R231)
    let held := d.toMem && (s.facet pf).core.drains.any (fun e => e.toMem && decide (e.seq < d.seq)
      && decide (e.dst < d.dst + d.bytes) && decide (d.dst < e.dst + e.bytes))
    if !d.launched || held then .next s
    else
      let tiles := if d.toMem then List.range (handleTiles d.handle) else [d.tile]
      let cols := tiles.flatMap (s.drainTile pf d)
      let bs := cols.flatMap (fun c => toBytes 4 c.1)
      let b0 := (s.larr pf (bits d.handle 6 0 + handleSlices d.handle * d.tile)).bank d.bank
      let put := fun (c : FCore) =>
        let c := { c with drains := c.drains.filter (fun e => decide (e.seq ≠ d.seq)) }
        if d.toMem then c.sramStore d.dst bs (poisonedWords d.dst cols)
        else (c.wrVBytes (d.dst * 512) (cols.flatMap (fun c => laneBytes (c.1, c.2.1)))).wrS d.sd ⟨BitVec.ofNat 64 b0.scale, b0.scaleP⟩
      let s := s.asyncCore pf put
      .next (s.bump (.FMT_STAT pf) F.FMT_STAT.int_sat (cols.foldl (fun t c => t + c.2.2) 0))

end Sys2Proof.Machine
end

