-- ==== Sys2Proof/Machine/Clocks.lean ====
section
/-! DEFINITION. Facet clocks (R34-R36), the reference clock (R37), populations and grants (R45-R49, R52). -/

namespace Sys2Proof.Machine

def State.setCtl (s : State) (c : Ctl) : State := { s with ctl := c }

/-- The set-point that a facet clock needs (R544): the voltage table's value (the nominal voltage where the table lists none, log entry
56) plus the margin. -/
def State.voltFor (s : State) (mhz : Nat) : Nat := Tab.getD s.power.volt mhz 700 + s.rd .PWR_CTL F.PWR_CTL.vf_margin

/-- The set-point of a die for the highest of its clocks, those waiting included (R544). -/
def State.dieVolt (s : State) (d : Nat) : Nat :=
  ((List.range 12).map (fun r =>
    let g := d * 12 + r
    let x := s.region g
    let c := s.rd (.REGION_CLK g) F.REGION_CLK.fclk_cur
    s.voltFor (max c (max (x.clkPend.getD 0) (x.clkWait.getD 0))))).foldl max 0

/-- A set-point sent over AVSBus (R544). -/
def State.setRail (s : State) (d mv : Nat) : State := (s.wr (.PWR_RAIL d) F.PWR_RAIL.vset mv).emit (.avs d mv)

/-- A clock asked for (R544): a lowering takes effect at once, a raise once the rail's set-point suffices. -/
def State.askClock (s : State) (g f : Nat) : State :=
  let x := s.region g
  let cur := x.clkPend.getD (s.rd (.REGION_CLK g) F.REGION_CLK.fclk_cur)
  if f = cur then s
  else if f < cur ∨ s.voltFor f ≤ s.rd (.PWR_RAIL (g / 12)) F.PWR_RAIL.vset then s.setRegion g { x with clkPend := some f, clkWait := none }
  else s.setRegion g { x with clkWait := some f }

/-- THERM_THROTTLE (R533): 0 entering, 1 leaving. -/
def State.throttleEvent (s : State) (g mhz way : Nat) : State := s.raise ⟨3, 0x181, g, 0xFFFF, [g, mhz, way]⟩

/-- FCLK_CHANGE (R34, R544, R578): a latched change takes effect; after a lowering the set-point is lowered. -/
def execFclkChange (g : Nat) (s : State) : Res :=
  let r := s.region g
  match r.clkPend with
  | none => .next s
  | some f =>
    let old := s.rd (.REGION_CLK g) F.REGION_CLK.fclk_cur
    let s := s.setRegion g { r with clkAcc := r.clkAcc + (if r.stopped then 0 else (s.time - r.clkFrom) * old), clkFrom := s.time
                                    clkChanges := r.clkChanges + 1, clkPend := none }
    let s := s.wr (.REGION_CLK g) F.REGION_CLK.fclk_cur f
    let s := if f < old ∧ s.on .PWR_CTL F.PWR_CTL.avs_en ∧ s.dieVolt (g / 12) < s.rd (.PWR_RAIL (g / 12)) F.PWR_RAIL.vset then
        s.setRail (g / 12) (s.dieVolt (g / 12)) else s
    if s.rd (.REGION_CLK g) F.REGION_CLK.fclk_design ≤ f ∧ s.on (.REGION_CLK g) F.REGION_CLK.throttled then
      .next ((s.wr (.REGION_CLK g) F.REGION_CLK.throttled 0).throttleEvent g f 1)
    else .next s

/-- REGION_CLK_WRITE (R36, R373): the value is rounded down to a multiple of 25 and clamped; the proofs are run again. -/
def execRegionClkWrite (g value : Nat) (s : State) : Res :=
  let v := min 1600 (max 400 (bits value 10 0 / 25 * 25))
  .next (s.wr (.REGION_CLK g) F.REGION_CLK.fclk_design v).rerun

/-- REFCLK_FAIL (R37): every island moves to the other clock; with none left the package stops. -/
def execRefclkFail (s : State) : Res :=
  let c := s.ctl
  if c.refFailed.contains (1 - c.refclk) then
    .next (s.setCtl { c with refFailed := insertNat c.refFailed c.refclk, stopped := true })
  else
    let s := s.setCtl { c with refFailed := insertNat c.refFailed c.refclk, refclk := 1 - c.refclk }
    .next (s.raise ⟨2, 0x106, 0xFFFF, 0xFFFF, []⟩)

def State.arb (s : State) (a : Nat) : Arb := Tab.getD s.ctl.arbs a Arb.reset
def State.setArb (s : State) (a : Nat) (x : Arb) : State := s.setCtl { s.ctl with arbs := Tab.put s.ctl.arbs a Arb.reset x }

/-- The arbiters an arbiter feeds, with the input it feeds there (R45). -/
def arbParents (a : Nat) : List (Nat × Nat) :=
  let n := a % 2 ^ 16
  match a / 2 ^ 16 with
  | 0 => [(1 * 2 ^ 16 + n / 17, n % 17)]
  | 1 => [(2 * 2 ^ 16 + n / 12, n % 12)]
  | 2 => [(3 * 2 ^ 16, n), (3 * 2 ^ 16 + 1, n)]
  | _ => []

/-- POPULATION_REFRESH (R47, R48, R52): populations latched from the active leaves (class, input) and from the children's
reports; their sum is reported. -/
def execPopulationRefresh (a : Nat) (active : List (Nat × Nat)) (s : State) : Res :=
  let reps := s.ctl.arbRep.filter (fun p => decide (p.1 / 4 / 2 ^ 16 = a))
  let base : Tab Nat := reps.foldl (fun t p => Tab.put t (p.1 % 4 * 2 ^ 16 + p.1 / 4 % 2 ^ 16) 0 (min 1023 p.2)) []
  let pops := active.foldl (fun t p => let k := p.1 % 4 * 2 ^ 16 + p.2 % 2 ^ 16; Tab.put t k 0 (min 1023 (Tab.getD t k 0 + 1))) base
  let s := s.setArb a { s.arb a with pops := pops }
  let sum := fun (k : Nat) => min 1023 ((pops.filter (fun p => decide (p.1 / 2 ^ 16 = k))).map Prod.snd).sum
  let s := (arbParents a).foldl (fun s p => (List.range 4).foldl (fun s k =>
    s.setCtl { s.ctl with arbRep := Tab.put s.ctl.arbRep ((p.1 * 2 ^ 16 + p.2) * 4 + k) 0 (sum k) }) s) s
  if a / 2 ^ 16 = 1 then
    let r := Reg.REGION_ARB_POP (a % 2 ^ 16)
    .next ((((s.wr r F.REGION_ARB_POP.pop_request (sum 0)).wr r F.REGION_ARB_POP.pop_response (sum 1)).wr r
      F.REGION_ARB_POP.pop_bulk (sum 2)).wr r F.REGION_ARB_POP.pop_barrier (sum 3))
  else .next s

/-- The class of a place in the rotation response, request, response, bulk (R46). -/
def rotClass (i : Nat) : Nat := [1, 0, 1, 2].getD (i % 4) 0

/-- The class granted next (R46): barrier/time first, once in 16 grants; else the rotation. -/
def Arb.pickClass (x : Arb) (can : Nat → Bool) : Option Nat :=
  if can 3 && decide (15 ≤ x.since) then some 3
  else ((List.range 4).map (fun i => rotClass (x.rot + i))).find? can

/-- The inputs in the order in which turns pass from the current one (R49). -/
def turnsFrom (cur : Nat) (inputs : List Nat) : List Nat := inputs.filter (fun i => decide (cur < i)) ++ inputs.filter (fun i => decide (i ≤ cur))

/-- Turns passed on until an input is granted (R49): the arbiter and the input. -/
def Arb.turn (k : Nat) (credit : Nat → Bool) : List Nat → Arb → Arb × Option Nat
  | [], x => (x, none)
  | i :: rest, x =>
    let key := k * 2 ^ 16 + i
    let d := Tab.getD x.defs key 0 + max 1 (Tab.getD x.pops key 0)
    let x := { x with defs := Tab.put x.defs key 0 d, cur := Tab.put x.cur k 0 (i + 1) }
    if credit i then (x, some i) else Arb.turn k credit rest x

/-- ARBITER_GRANT (R45, R46, R49): one flit of one input; `pending` lists class, input, flits pending, credit. -/
def execArbiterGrant (a : Nat) (pending : List (Nat × Nat × Nat × Bool)) (s : State) : Res :=
  let x := s.arb a
  let here := fun (k : Nat) => pending.filter (fun p => decide (p.1 = k) && decide (0 < p.2.2.1))
  match x.pickClass (fun k => (here k).any (fun p => p.2.2.2)) with
  | none => .next s
  | some k =>
    let ins := ((here k).map (fun p => p.2.1)).foldr (fun i l => insertNat l i) []
    let credit := fun (i : Nat) => (here k).any (fun p => decide (p.2.1 = i) && p.2.2.2)
    let c := Tab.getD x.cur k 0
    -- an input without flits loses its deficit when its turn ends
    let x := if c ≠ 0 ∧ !ins.contains (c - 1) then { x with defs := Tab.put x.defs (k * 2 ^ 16 + (c - 1)) 0 0 } else x
    let r := if c ≠ 0 ∧ ins.contains (c - 1) ∧ 1 ≤ Tab.getD x.defs (k * 2 ^ 16 + (c - 1)) 0 ∧ credit (c - 1) then (x, some (c - 1))
      else Arb.turn k credit (turnsFrom (c - 1) ins) x
    match r.2 with
    | none => .next (s.setArb a r.1)
    | some i =>
      let key := k * 2 ^ 16 + i
      let left := (here k).any (fun p => decide (p.2.1 = i) && decide (1 < p.2.2.1))
      let x := r.1
      let d := if left then Tab.getD x.defs key 0 - 1 else 0
      .next (s.setArb a { x with defs := Tab.put x.defs key 0 d, rot := if k = 3 then x.rot else (x.rot + 1) % 4
                                 since := if k = 3 then 0 else x.since + 1, last := some (k, i) })

end Sys2Proof.Machine
end

