-- ==== Sys2Proof/Machine/Events.lean ====
section
/-! DEFINITION. The event controller (R421-R433). -/

namespace Sys2Proof.Machine

/-- A source: shared, or private of an LC. -/
inductive Src where
  | shared (n : Nat)
  | priv (c n : Nat)
  deriving DecidableEq, Repr

/-- Private sources stand at 2^16 + LC * 64 + number. -/
def srcOf (k : Nat) : Src := if k < 2 ^ 16 then .shared k else .priv ((k - 2 ^ 16) / 64) ((k - 2 ^ 16) % 64)
def Src.key : Src → Nat
  | .shared n => n
  | .priv c n => 2 ^ 16 + c * 64 + n
def Src.reg : Src → Reg
  | .shared n => .EV_SRC n
  | .priv c n => .EV_PRIV c n
/-- The number under which a source is presented (R421). -/
def Src.number : Src → Nat
  | .shared n => n
  | .priv _ n => 0x1000 + n

/-- A source's fields. -/
def State.srcPending (s : State) (x : Src) : Bool := s.on x.reg F.EV_SRC.pending
def State.srcServed (s : State) (x : Src) : Bool := s.on x.reg F.EV_SRC.in_service
def State.srcOn (s : State) (x : Src) : Bool := s.on x.reg F.EV_SRC.enable
def State.srcFast (s : State) (x : Src) : Bool := s.on x.reg F.EV_SRC.cls
/-- The LC a source is routed to. -/
def State.srcLc (s : State) (x : Src) : Nat :=
  match x with
  | .shared n => s.rd (.EV_SRC n) F.EV_SRC.target
  | .priv c _ => c

/-- The sources of an LC from the one presented first (R425). -/
def State.sourcesOf (s : State) (c : Nat) : List Src :=
  ((List.range 64).reverse.map (Src.priv c)) ++ ((List.range 4096).reverse.map Src.shared).filter (fun x => decide (s.srcLc x = c))

/-- The source presented first of a class (R425). -/
def State.present (s : State) (c : Nat) (fast : Bool) : Option Src :=
  (s.sourcesOf c).find? (fun x => s.srcPending x && s.srcOn x && !s.srcServed x && (s.srcFast x == fast))

/-- An interrupt input falls when nothing of its class is presented. -/
def State.settleIrq (s : State) (c : Nat) : State :=
  if !s.on (.CORE_MAP c) F.CORE_MAP.valid then s
  else
    let core := s.rd (.CORE_MAP c) F.CORE_MAP.phys
    [false, true].foldl (fun s f =>
      if (s.present c f).isNone then s.setCtl { s.ctl with irq := Tab.erase s.ctl.irq (core * 2 + b2n f) } else s) s

/-- The conditions of a release hold (R428). -/
def State.releaseDue (s : State) (x : Src) : Bool :=
  let n := s.rd x.reg F.EV_SRC.pend_count
  let t := s.rd x.reg F.EV_SRC.coal_time
  decide (max 1 (s.rd x.reg F.EV_SRC.coal_count) ≤ n)
    || (decide (0 < n) && decide (t ≠ 0) && (match Tab.find? s.ctl.evFirst x.key with
      | some f => decide (f + t * 1000 ≤ s.sysClock)
      | none => false))

/-- A source released (R428). -/
def State.release (s : State) (x : Src) : State :=
  let s := (s.wr x.reg F.EV_SRC.pending 1).wr x.reg F.EV_SRC.pend_count 0
  s.setCtl { s.ctl with evFirst := Tab.erase s.ctl.evFirst x.key }

/-- A source released if its conditions hold and it is neither pending nor in service. -/
def State.tryRelease (s : State) (x : Src) : State :=
  if s.releaseDue x && !s.srcPending x && !s.srcServed x then s.release x else s

/-- A raise writes a record (R422): not service queues, software sources, private sources. -/
def writesRecord (k : Nat) : Bool := decide (k < 0x800) && !(decide (0x200 ≤ k) && decide (k < 0x240))

/-- A record's bytes (R423). -/
def Raise.record (r : Raise) (time : Nat) : List Byte :=
  let f := r.fields.map (fun x => x % 2 ^ 32)
  let w := if 5 ≤ f.length then (f.getD 0 0 % 2 ^ 16 + f.getD 1 0 % 2 ^ 16 * 2 ^ 16) :: f.drop 2 else f
  toBytes 2 r.src ++ toBytes 2 r.code ++ toBytes 4 (w.getD 3 0) ++ toBytes 8 time ++ toBytes 2 r.unit ++ toBytes 2 r.lf
    ++ toBytes 4 (w.getD 0 0) ++ toBytes 4 (w.getD 1 0) ++ toBytes 4 (w.getD 2 0)

/-- The record put into the ring of the LC the source is routed to (R423), and sent by the loupe. -/
def State.putRecord (s : State) (r : Raise) : State :=
  if !writesRecord r.src then s
  else
    let c := s.srcLc (.shared r.src)
    let q := Reg.EV_RING c
    let tail := s.rd q F.EV_RING.tail
    let rec_ := r.record s.sysClock
    let s := if s.on .LOUPE_CTL F.LOUPE_CTL.events then s.loupeSend 1 rec_ else s
    if (tail + 1) % 1024 = s.rd q F.EV_RING.head then s.bump q F.EV_RING.lost 1
    else ({ s with hub := s.hub.write (0x200000 + c * 0x8000 + tail * 32) rec_ }).wr q F.EV_RING.tail ((tail + 1) % 1024)

/-- EVENT_RAISE (R423, R428, R579): a raise latched, unless one of the same source was made before it. -/
def execEventRaise (idx : Nat) (s : State) : Res :=
  match s.raises[idx]? with
  | none => .next s
  | some r =>
    if (s.raises.take idx).any (fun q => decide (q.src = r.src)) then .next s
    else
      let x := srcOf r.src
      let s := { s with raises := s.raises.eraseIdx idx }
      -- an LC without a core: its private sources are not raised (R442)
      let dead := match x with | .priv c _ => !s.on (.CORE_MAP c) F.CORE_MAP.valid | _ => false
      if dead then .next s
      else
        let s := s.putRecord r
        let n := s.rd x.reg F.EV_SRC.pend_count
        let s := if n = 0 then s.setCtl { s.ctl with evFirst := Tab.set s.ctl.evFirst x.key s.sysClock } else s
        .next ((s.wr x.reg F.EV_SRC.pend_count (min 255 (n + 1))).tryRelease x)

/-- COAL_TIMER (R428). -/
def execCoalTimer (k : Nat) (s : State) : Res := .next (s.tryRelease (srcOf k))

/-- INTERRUPT_DELIVER (R424, R429): a release reaches the bound core's input; `asleep` tells that the core's clocks were
stopped. -/
def execInterruptDeliver (c : Nat) (fast asleep : Bool) (s : State) : Res :=
  if (s.present c fast).isNone || !s.on (.CORE_MAP c) F.CORE_MAP.valid then .next s
  else
    let core := s.rd (.CORE_MAP c) F.CORE_MAP.phys
    let s := s.setCtl { s.ctl with irq := Tab.set s.ctl.irq (core * 2 + b2n fast) 1 }
    .next (if asleep then s.bump (.EV_STAT c) F.EV_STAT.wakes 1 else s)

/-- A source claimed (R426). -/
def State.claimSrc (s : State) (c : Nat) (x : Src) : State :=
  let s := (s.wr x.reg F.EV_SRC.pending 0).wr x.reg F.EV_SRC.in_service 1
  let s := s.setCtl { s.ctl with evClaim := Tab.set s.ctl.evClaim x.key c }
  (s.bump (.EV_STAT c) F.EV_STAT.claims 1).settleIrq c

/-- A read of a claim register (R426). -/
def State.claim (s : State) (c : Nat) (fast : Bool) : State :=
  match s.present c fast with
  | none => s.emit (.read 0x1FFF false)
  | some x => (s.claimSrc c x).emit (.read x.number false)

/-- EV_CLAIM (R426). -/
def execEvClaim (c : Nat) (s : State) : Res := .next (s.claim c false)

/-- EV_CLAIMF (R426). -/
def execEvClaimf (c : Nat) (s : State) : Res := .next (s.claim c true)

/-- VECTOR_ACCEPT (R427): the core's acceptance claims a source and vectors to its entry. -/
def execVectorAccept (c : Nat) (fast : Bool) (s : State) : Res :=
  let m := Reg.EV_MODE c
  if !s.on m (if fast then F.EV_MODE.vec_fast else F.EV_MODE.vec_normal) then .next s
  else
    let base := s.rd m F.EV_MODE.vbase * 2 ^ 12
    match s.present c fast with
    | some x => .next ((s.claimSrc c x).emit (.vector c (base + x.number * 16)))
    | none => .next ((s.bump (.EV_STAT c) F.EV_STAT.spurious 1).emit (.vector c (base + 0x1040 * 16)))

/-- EV_COMPLETE (R426, R428, R430): accepted from the claiming LC only; a release whose conditions were met meanwhile
follows. -/
def execEvComplete (c n : Nat) (s : State) : Res :=
  let x : Src := if n < 0x1000 then .shared n else .priv c (n - 0x1000)
  if 0x1040 ≤ n ∨ !s.srcServed x ∨ Tab.getD s.ctl.evClaim x.key 16 ≠ c then .next s
  else
    let s := s.wr x.reg F.EV_SRC.in_service 0
    let s := s.setCtl { s.ctl with evClaim := Tab.erase s.ctl.evClaim x.key }
    .next (s.tryRelease x)

/-- EV_RAISE_WRITE (R433). -/
def execEvRaiseWrite (value : Nat) (s : State) : Res :=
  let n := bits value 12 0
  if bitAt value 63 then
    if n < 32 then .next (s.raise ⟨(Src.priv (bits value 51 48) n).key, 0, 0xFFFF, 0xFFFF, []⟩) else .next s
  else if 0x800 ≤ n ∧ n < 0x1000 then .next (s.raise ⟨n, 0, 0xFFFF, 0xFFFF, []⟩) else .next s

/-- EV_SRC_WRITE (R430, R431): target, class, enable and coalescing of a shared source. -/
def execEvSrcWrite (n value : Nat) (s : State) : Res :=
  if 4096 ≤ n then .next s
  else
    let r := Reg.EV_SRC n
    let old := s.srcLc (.shared n)
    let s := ((((s.wr r F.EV_SRC.coal_time (bits value 63 48)).wr r F.EV_SRC.coal_count (bits value 47 40)).wr r F.EV_SRC.target
      (bits value 19 16)).wr r F.EV_SRC.cls (bits value 11 11)).wr r F.EV_SRC.enable (bits value 0 0)
    .next (s.settleIrq old)

end Sys2Proof.Machine
end

