-- ==== Sys2Proof/Machine/Keccak.lean ====
section
/-! DEFINITION. SHAKE128, SHAKE256 and SHA3-512, which the spec names (R300, R365, R507, R508). -/

namespace Sys2Proof.Machine

/-- Rotation of a 64-bit lane to the left. -/
def rotl64 (x n : Nat) : Nat := (x * 2 ^ n) % 2 ^ 64 + x / 2 ^ (64 - n)

/-- A lane of the state, numbered x + 5 y. -/
def lane25 (a : List Nat) (x y : Nat) : Nat := a.getD (x % 5 + 5 * (y % 5)) 0

def kRho : List Nat := [0, 1, 62, 28, 27, 36, 44, 6, 55, 20, 3, 10, 43, 25, 39, 41, 45, 15, 21, 8, 18, 2, 61, 56, 14]

def kRound : List Nat :=
  [0x0000000000000001, 0x0000000000008082, 0x800000000000808A, 0x8000000080008000, 0x000000000000808B, 0x0000000080000001,
   0x8000000080008081, 0x8000000000008009, 0x000000000000008A, 0x0000000000000088, 0x0000000080008009, 0x000000008000000A]
  ++ [0x000000008000808B, 0x800000000000008B, 0x8000000000008089, 0x8000000000008003, 0x8000000000008002, 0x8000000000000080,
   0x000000000000800A, 0x800000008000000A, 0x8000000080008081, 0x8000000000008080, 0x0000000080000001, 0x8000000080008008]

/-- The column parities' effect. -/
def kTheta (a : List Nat) : List Nat :=
  let c := (List.range 5).map (fun x => (List.range 5).foldl (fun t y => t ^^^ lane25 a x y) 0)
  (List.range 25).map (fun i => a.getD i 0 ^^^ c.getD ((i % 5 + 4) % 5) 0 ^^^ rotl64 (c.getD ((i % 5 + 1) % 5) 0) 1)

/-- Rotation and transposition: lane (x, y) goes to (y, 2 x + 3 y). -/
def kRhoPi (a : List Nat) : List Nat :=
  (List.range 25).map (fun i =>
    -- the source of (X, Y) is x = X + 3 Y, y = X
    let x := (i % 5 + 3 * (i / 5)) % 5
    let y := i % 5
    rotl64 (lane25 a x y) (kRho.getD (x + 5 * y) 0))

/-- The nonlinear step. -/
def kChi (b : List Nat) : List Nat :=
  (List.range 25).map (fun i =>
    let x := i % 5
    let y := i / 5
    lane25 b x y ^^^ ((2 ^ 64 - 1 - lane25 b (x + 1) y) &&& lane25 b (x + 2) y))

/-- The permutation of 24 rounds. -/
def keccakF (a : List Nat) : List Nat :=
  kRound.foldl (fun a rc =>
    let b := kChi (kRhoPi (kTheta a))
    match b with
    | [] => []
    | x :: t => (x ^^^ rc) :: t) a

/-- A block absorbed. -/
def absorb (a : List Nat) (blk : List Byte) : List Nat :=
  keccakF ((List.range 25).map (fun i => a.getD i 0 ^^^ field blk (8 * i) 8))

/-- The padded message: suffix byte, zeros, final bit. -/
def sponge10 (rate suffix : Nat) (msg : List Byte) : List Byte :=
  let z := rate - msg.length % rate
  if z = 1 then msg ++ [BitVec.ofNat 8 (suffix + 128)]
  else msg ++ [BitVec.ofNat 8 suffix] ++ List.replicate (z - 2) 0 ++ [0x80]

/-- Blocks of `rate` bytes absorbed, `n` of them. -/
def absorbAll (rate : Nat) : Nat → List Nat → List Byte → List Nat
  | 0, a, _ => a
  | n + 1, a, bs => absorbAll rate n (absorb a (bs.take rate)) (bs.drop rate)

/-- Output blocks squeezed, `n` of them. -/
def squeeze (rate : Nat) : Nat → List Nat → List Byte
  | 0, _ => []
  | n + 1, a => (a.flatMap (toBytes 8)).take rate ++ squeeze rate n (keccakF a)

/-- A sponge of the Keccak family. -/
def sponge (rate suffix : Nat) (msg : List Byte) (out : Nat) : List Byte :=
  let p := sponge10 rate suffix msg
  (squeeze rate ((out + rate - 1) / rate) (absorbAll rate (p.length / rate) (List.replicate 25 0) p)).take out

def shake128 (msg : List Byte) (n : Nat) : List Byte := sponge 168 0x1F msg n
def shake256 (msg : List Byte) (n : Nat) : List Byte := sponge 136 0x1F msg n
def sha3_512 (msg : List Byte) : List Byte := sponge 72 0x06 msg 64

end Sys2Proof.Machine
end

