-- ==== Sys2Proof/Machine/KvOps.lean ====
section
/-! DEFINITION. HBM as its controllers serve it (R297, R299, R329, R451, R454) and the page pools' shared operations
(R288-R296). -/

namespace Sys2Proof.Machine

/-- Is a page pool enabled and initialized (R308)? -/
def State.poolOn (s : State) (sv : Nat) : Bool := s.on (.KV_POOL_CFG sv) F.KV_POOL_CFG.enable
def State.poolPages (s : State) (sv : Nat) : Nat := s.rd (.KV_POOL_CFG sv) F.KV_POOL_CFG.pages
/-- Bytes of a page (R288). -/
def State.pageBytes (s : State) (sv : Nat) : Nat := s.rd (.KV_POOL_CFG sv) F.KV_POOL_CFG.pg_units * 65536
/-- Positions of a page (R288). -/
def State.pageTokens (s : State) (sv : Nat) : Nat := 2 ^ s.rd (.KV_POOL_CFG sv) F.KV_POOL_CFG.pt_log2
/-- Bytes of a position (R309). -/
def State.posStride (s : State) (sv : Nat) : Nat := s.rd (.KV_POOL_STRIDE sv) F.KV_POOL_STRIDE.pos_stride
def State.poolBase (s : State) (sv : Nat) : Nat := s.rd (.KV_POOL_BASE sv) F.KV_POOL_BASE.addr * 65536
def State.descBase (s : State) (sv : Nat) : Nat := s.rd (.KV_POOL_DESC sv) F.KV_POOL_DESC.addr * 64
/-- HBM address of a page (R290). -/
def State.pageAddr (s : State) (sv x : Nat) : Nat := s.poolBase sv + x * s.pageBytes sv

/-- A page descriptor (R293). -/
structure PageDesc where
  refs : Nat
  state : Nat
  flags : Nat
  fill : Nat
  epoch : Nat
  link : Nat
  deriving DecidableEq, Repr

/-- The descriptor of a page, in HBM (R293). -/
def State.page (s : State) (sv x : Nat) : PageDesc :=
  let b := s.hbm.read (s.descBase sv + x * 16) 16
  ⟨field b 0 4, field b 4 1, field b 5 1, field b 6 2, field b 8 2, field b 12 4⟩

/-- The descriptor of a page written. -/
def State.setPage (s : State) (sv x : Nat) (d : PageDesc) : State :=
  s.hbmWrite (s.descBase sv + x * 16) (toBytes 4 d.refs ++ toBytes 1 d.state ++ toBytes 1 d.flags ++ toBytes 2 d.fill
    ++ toBytes 2 d.epoch ++ toBytes 2 0 ++ toBytes 4 d.link) false

/-- Start of a pool's token records (R294). -/
def State.tokenBase (s : State) (sv : Nat) : Nat := roundUp (s.descBase sv + s.poolPages sv * 16) 64

/-- HBM address of a position's token in a page's record (R294). -/
def State.tokenAddr (s : State) (sv x i : Nat) : Nat := s.tokenBase sv + (x * s.pageTokens sv + i) * 4

/-- The pool and page that hold an HBM address (R290). -/
def State.pageOf (s : State) (a : Nat) : Option (Nat × Nat) :=
  ((List.range 64).find? (fun sv => s.poolOn sv && decide (s.poolBase sv ≤ a)
      && decide (a < s.poolBase sv + s.poolPages sv * s.pageBytes sv))).map (fun sv => (sv, (a - s.poolBase sv) / s.pageBytes sv))

/-- A pool's free list, kept in link order. -/
def State.freeList (s : State) (sv : Nat) : List Nat := Tab.getD s.kv.free sv []

/-- The free list replaced, KV_POOL_STAT.free with it. -/
def State.setFree (s : State) (sv : Nat) (l : List Nat) : State :=
  ({ s with kv := { s.kv with free := Tab.put s.kv.free sv [] l } }).wr (.KV_POOL_STAT sv) F.KV_POOL_STAT.free l.length

/-- A page drawn from a pool's free list, entering a state (R292, R295). -/
def State.drawPage (s : State) (sv st flags epoch : Nat) : Option (State × Nat) :=
  match s.freeList sv with
  | [] => none
  | x :: rest => some ((s.setFree sv rest).setPage sv x ⟨1, st, flags, 0, epoch, 0xFFFFFFFF⟩, x)

/-- A page made FREE: it becomes the head of the free list (R303, log entry 41). -/
def State.freePage (s : State) (sv x : Nat) : State :=
  let l := s.freeList sv
  (s.setFree sv (x :: l)).setPage sv x ⟨0, 0, 0, 0, 0, l.headD 0xFFFFFFFF⟩

/-- A reference of a page given up; at zero the page is FREE (R303). -/
def State.dropRef (s : State) (sv x : Nat) : State :=
  let d := s.page sv x
  if d.refs ≤ 1 then s.freePage sv x else s.setPage sv x { d with refs := d.refs - 1 }

/-- The HBM channel of an address is fenced, or its die is (R451, R452). -/
def State.hbmLost (s : State) (a : Nat) : Bool :=
  s.hbm.isLost (a / 64)

/-- The enabled coded range whose slots hold an address (R329): range number, slot, sector. -/
def State.rangeOf (s : State) (a : Nat) : Option (Nat × Nat × Nat) :=
  let st := a / 2 ^ 37
  ((List.range 8).find? (fun k =>
      let base := s.rd (.PRISM_RANGE_BASE st k) F.PRISM_RANGE_BASE.addr * 4096
      s.on (.PRISM_RANGE_BASE st k) F.PRISM_RANGE_BASE.enable && decide (base ≤ a)
        && decide (a < base + s.rd (.PRISM_RANGE_SLOTS st k) F.PRISM_RANGE_SLOTS.slots * 4096))).map (fun k =>
    let base := s.rd (.PRISM_RANGE_BASE st k) F.PRISM_RANGE_BASE.addr * 4096
    (k, (a - base) / 4096, (a - base) % 4096 / 64))

/-- The code table of a service in a stack's controller (R311). -/
def State.kvTable (s : State) (st sv : Nat) : List Nat :=
  tableLens ((List.range 16).flatMap (fun w => toBytes 8 (s.reg (.KV_CODE st sv w))))

/-- The block of a sealed page that starts at an HBM address, decoded by the page codec (R297, R330). -/
def State.sealedBlock (s : State) (sv a : Nat) : BlkOut :=
  let st := a / 2 ^ 37
  decodeBlock ((Tab.getD s.kv.hdrs a []) ++ List.replicate (32 - (Tab.getD s.kv.hdrs a []).length) 0) (s.hbm.read a 4096) false
    (fun q => s.hbm.isPoison (a / 64 + q))
    (fun t => let l := s.kvTable st t; if tableValid l then some l else none) (fun t => decide (t = sv)) false

/-- A 64-byte sector as the controller serves it to a reader of some kind and number (R297, R329, R454), at an address
that is a multiple of 64. -/
def State.sectorRead (s : State) (kind num a : Nat) : State × List Byte × Bool :=
  let plain := fun (s : State) =>
    let u := a / 64
    if s.hbmLost a then (s, List.replicate 64 0, true)
    else if s.faults.hbmUe.contains u then
      let s := { s with hbm := s.hbm.setPoison u true, faults := { s.faults with hbmUe := s.faults.hbmUe.filter (fun k => decide (k ≠ u)) } }
      let s := s.cper ⟨clsContained, 0x0F, false, false, false, false, unitDesc 0x0B (a / 2 ^ 37) (a % 2 ^ 37 / 2 ^ 33) 0, 0, 0xFFFF, 0xFFFF,
        0x1C6, toBytes 8 a ++ toBytes 8 0⟩
      (s, s.hbm.read a 64, true)
    else if s.faults.hbmCe.contains u then
      let s := { s with faults := { s.faults with hbmCe := s.faults.hbmCe.filter (fun k => decide (k ≠ u)) } }
      (s.bump .FLT_STAT F.FLT_STAT.hbm_ce 1, s.hbm.read a 64, s.hbm.isPoison u)
    else (s, s.hbm.read a 64, s.hbm.isPoison u)
  let r := match s.rangeOf a with
    | some (k, i, q) =>
      let st := a / 2 ^ 37
      let base := s.rd (.PRISM_RANGE_BASE st k) F.PRISM_RANGE_BASE.addr * 4096
      let ha := base + s.rd (.PRISM_RANGE_SLOTS st k) F.PRISM_RANGE_SLOTS.slots * 4096 + i * 32
      let h := parseHdr (s.hbm.read ha 32)
      let p := s.hbm.rangePoison 64 ha 32
      if h.raw || decide (q < (h.codedLen + 63) / 64) then
        let r := plain s
        (r.1, r.2.1, r.2.2 || p)
      else (s.bump (.PRISM_RANGE_STAT st) F.PRISM_RANGE_STAT.skipped 1, List.replicate 64 0, p)
    | none => match s.pageOf a with
      | some (sv, x) =>
        if (s.page sv x).state = 3 then
          let o := a - s.pageAddr sv x
          let idx := o % s.posStride sv / 64 * s.pageTokens sv + o / s.posStride sv
          let b := s.sealedBlock sv (s.pageAddr sv x + idx / 64 * 4096)
          let s := if b.cls = 7 then s.poisonSeen 6 (a / 2 ^ 37) a else s
          (s, (b.bytes.drop (idx % 64 * 64)).take 64, decide (b.cls ≠ 0))
        else plain s
      | none => plain s
  if r.2.2 then (r.1.poisonSeen kind num a, r.2) else r

/-- A run of sectors read: bytes, and which sectors are poisoned. -/
def State.sectorsRead (s : State) (kind num a : Nat) : Nat → State × List (List Byte × Bool)
  | 0 => (s, [])
  | n + 1 =>
    let r := s.sectorRead kind num a
    let t := State.sectorsRead r.1 kind num (a + 64) n
    (t.1, r.2 :: t.2)

/-- A write of sectors to HBM: discarded where the channel is lost, or in a page that may not be written (R299, R451).
Answers whether a page refused it, with the page's service. -/
def State.sectorWrite (s : State) (a : Nat) (bs : List Byte) (poison : Bool) : State × Option Nat :=
  if s.hbmLost a then (s, none)
  else match s.pageOf a with
    | some (sv, x) =>
      let d := s.page sv x
      if d.state = 0 ∨ d.state = 3 ∨ (d.state = 2 ∧ d.link ≠ 0xFFFFFFFF) then
        (s.bump (.KV_POOL_STAT sv) F.KV_POOL_STAT.bad_write 1, some sv)
      else (s.hbmWrite a bs poison, none)
    | none => (s.hbmWrite a bs poison, none)

/-- Sectors written one after another; answers whether a page refused one. -/
def State.sectorsWrite (s : State) (a : Nat) : List (List Byte × Bool) → State × Option Nat
  | [] => (s, none)
  | b :: t =>
    let r := s.sectorWrite a b.1 b.2
    let q := State.sectorsWrite r.1 (a + 64) t
    (q.1, r.2.orElse (fun _ => q.2))

/-- A code of `l` bits of a symbol, most significant bit first (R318). -/
def codeBits (code l : Nat) : List Bool := (List.range l).map (fun i => bitAt code (l - 1 - i))

/-- The code of a symbol under a table (R320); none when it has no code. -/
def symCode (lens : List Nat) (tab : List (Nat × Nat × Nat)) (sym : List Nat) (x : Nat) : Option (List Bool) :=
  let l := lens.getD x 0
  if l = 0 then none
  else
    let e := tab.getD (l - 1) (0, 0, 0)
    some (codeBits (e.1 + (sym.findIdx (fun y => decide (y = x)) - e.2.2)) l)

/-- Bits packed into bytes from bit 7 down, the last byte filled with zero bits (R318). -/
def packBits (bs : List Bool) : List Byte :=
  (List.range ((bs.length + 7) / 8)).map (fun i =>
    BitVec.ofNat 8 ((List.range 8).foldl (fun t k => t * 2 + b2n (bs.getD (8 * i + k) false)) 0))

/-- A sub-stream's bits; none when a symbol has no code. -/
def encStream (lens : List Nat) (tab : List (Nat × Nat × Nat)) (sym : List Nat) : List Byte → Option (List Bool)
  | [] => some []
  | b :: t => match symCode lens tab sym b.toNat, encStream lens tab sym t with
    | some c, some r => some (c ++ r)
    | _, _ => none

/-- The sixteen sub-streams of a block; none when a symbol has no code. -/
def encStreams (lens : List Nat) (tab : List (Nat × Nat × Nat)) (sym : List Nat) (raw : List Byte) : Nat → Option (List (List Bool))
  | 0 => some []
  | n + 1 => match encStream lens tab sym (raw.take 256), encStreams lens tab sym (raw.drop 256) n with
    | some a, some t => some (a :: t)
    | _, _ => none

/-- A header's bytes (R315). -/
def hdrBytes (crc len : Nat) (raw : Bool) (table : Nat) (lens : List Nat) : List Byte :=
  toBytes 4 crc ++ toBytes 2 (len + b2n raw * 32768) ++ toBytes 1 table ++ toBytes 1 0
    ++ toBytes 24 (lens.foldr (fun l t => t * 4096 + l) 0)

/-- A block coded by a page codec (R296, R317, R330): header and slot bytes; raw when it cannot be coded. -/
def encodeBlock (lens : List Nat) (table : Nat) (raw : List Byte) : List Byte × List Byte :=
  let crc := crc32c raw
  let asRaw := (hdrBytes crc 0 true 0 (List.replicate 16 0), raw)
  if !tableValid lens then asRaw
  else
    let t := buildTable lens
    match encStreams lens t.1 t.2 raw 16 with
    | none => asRaw
    | some ss =>
      let ls := ss.map List.length
      let n := (ls.map upBytes).sum
      if 3584 < n ∨ ls.any (fun l => decide (l < 256) || decide (3072 < l)) then asRaw
      else (hdrBytes crc n false table ls, ss.flatMap packBits)

end Sys2Proof.Machine
end

