-- ==== Sys2Proof/Machine/Scalar.lean ====
section
/-! DEFINITION. The control slot and the scalar slots (R211-R219). -/

namespace Sys2Proof.Machine

/-- A scalar result from two registers (form SR, R214, R215): poisoned when a source is; `ctl` when a poisoned rb
raises POISON_CTL (shift counts, R190). -/
def srSlot (h : Hdr) (rd ra rb : Nat) (ctl : Bool) (op : Word64 → Word64 → Word64) (s : State) : State :=
  coreSlot h [1, 2] [(0, rd)] false (fun c w =>
    waitFor [c.pendS ra, c.pendS rb, c.pendS rd]
      (raiseIf [(ctl && (c.rdS rb).p, excPoisonCtl)]
        (.ok (w.wrS rd ⟨op (c.rdS ra).v (c.rdS rb).v, (c.rdS ra).p || (c.rdS rb).p⟩)))) s

/-- A scalar result from a register and imm32 (form SI, R214, R215); `illegal` for a shift count out of 0-63. -/
def siSlot (h : Hdr) (rd ra imm : Nat) (illegal : Bool) (op : Word64 → Word64 → Word64) (s : State) : State :=
  coreSlot h [1, 2] [(0, rd)] illegal (fun c w =>
    waitFor [c.pendS ra, c.pendS rd]
      (.ok (w.wrS rd ⟨op (c.rdS ra).v (BitVec.ofInt 64 (sext 32 imm)), (c.rdS ra).p⟩))) s

/-- A predicate result (R217). -/
def predSlot (h : Hdr) (pd : Nat) (illegal : Bool) (waits : FCore → List (Option Nat)) (bad : FCore → Bool)
    (val : FCore → PReg) (s : State) : State :=
  coreSlot h [1, 2] [(1, pd)] illegal (fun c w =>
    waitFor (waits c ++ [c.pendP pd]) (raiseIf [(bad c, excSync)] (.ok (w.wrP pd (val c))))) s

/-- The shift count of rb (R215): bits 5:0. -/
def shiftCount (b : Word64) : Nat := b.toNat % 64

def shlOp (a b : Word64) : Word64 := a <<< shiftCount b
def shrOp (a b : Word64) : Word64 := a >>> shiftCount b
def sraOp (a b : Word64) : Word64 := a.sshiftRight (shiftCount b)

/-- High 64 bits of the unsigned product (R215). -/
def mulhuOp (a b : Word64) : Word64 := BitVec.ofNat 64 (a.toNat * b.toNat / 2 ^ 64)

/-- Division (R216): by zero all ones; -2^63 by -1 is -2^63. -/
def divOp (a b : Word64) : Word64 := if b = 0 then BitVec.allOnes 64 else BitVec.ofInt 64 (a.toInt.tdiv b.toInt)
def divuOp (a b : Word64) : Word64 := if b = 0 then BitVec.allOnes 64 else BitVec.ofNat 64 (a.toNat / b.toNat)
/-- Remainder (R216): by zero the dividend; the sign of the dividend. -/
def remOp (a b : Word64) : Word64 := if b = 0 then a else BitVec.ofInt 64 (a.toInt.tmod b.toInt)
def remuOp (a b : Word64) : Word64 := if b = 0 then a else BitVec.ofNat 64 (a.toNat % b.toNat)

def minOp (a b : Word64) : Word64 := if a.toInt ≤ b.toInt then a else b
def maxOp (a b : Word64) : Word64 := if a.toInt ≤ b.toInt then b else a
def minuOp (a b : Word64) : Word64 := if a.toNat ≤ b.toNat then a else b
def maxuOp (a b : Word64) : Word64 := if a.toNat ≤ b.toNat then b else a

/-- The cond codes of R217. -/
def condHolds (cond : Nat) (a b : Word64) : Bool :=
  match cond with
  | 0 => decide (a = b)
  | 1 => decide (a ≠ b)
  | 2 => decide (a.toInt < b.toInt)
  | 3 => decide (b.toInt ≤ a.toInt)
  | 4 => decide (a.toNat < b.toNat)
  | _ => decide (b.toNat ≤ a.toNat)

/-- NOP (R210). -/
def execNop (h : Hdr) (s : State) : Res := .next (coreSlot h [0, 1, 2, 3, 4, 5, 6, 7] [] false (fun _ w => .ok w) s)

/-- BR (R183, R211): the next bundle is the target; a target beyond the program raises PC. -/
def execBr (h : Hdr) (target : Nat) (s : State) : Res :=
  .next (coreSlot h [0] [] false (fun c w =>
    raiseIf [(decide (8192 ≤ target) || decide (c.nBundles ≤ target), excPc)]
      (.ok { w with next := some target, loops := loopsAfterBranch target w.loops })) s)

/-- LOOP (R184, R212): a level opened with the count in `cnt`; a count of 0 skips the body. -/
def execLoop (h : Hdr) (cnt last : Nat) (s : State) : Res :=
  .next (coreSlot h [0] [] false (fun c w =>
    let n := (c.rdS cnt).v.toNat
    let poison := (c.rdS cnt).p
    waitFor [c.pendS cnt]
      (raiseIf [(poison, excPoisonCtl), (decide (last ≤ c.pc), excLoop),
          ((match c.loops with | l :: _ => decide (l.last < last) | [] => false), excLoop),
          (!poison && decide (n ≠ 0) && decide (4 ≤ c.loops.length), excLoop)]
        (if n = 0 then
          let p := loopEnd last w.loops
          .ok { w with next := some p.1, loops := p.2 }
        else .ok { w with loops := ⟨n, c.pc + 1, last⟩ :: w.loops }))) s)

/-- HALT (R213): issue stops; the facet enters HALT once older operations are complete (EXCEPTION_SETTLE). -/
def execHalt (h : Hdr) (s : State) : Res :=
  .next (coreSlot h [0] [] false (fun _ w => .ok { w with haltReq := true, loops := [] }) s)

/-- ADD (R215, modulo 2^64). -/
def execAdd (h : Hdr) (rd ra rb : Nat) (s : State) : Res := .next (srSlot h rd ra rb false (· + ·) s)

/-- SUB (R215, modulo 2^64). -/
def execSub (h : Hdr) (rd ra rb : Nat) (s : State) : Res := .next (srSlot h rd ra rb false (· - ·) s)

/-- AND (R215). -/
def execAnd (h : Hdr) (rd ra rb : Nat) (s : State) : Res := .next (srSlot h rd ra rb false (· &&& ·) s)

/-- OR (R215). -/
def execOr (h : Hdr) (rd ra rb : Nat) (s : State) : Res := .next (srSlot h rd ra rb false (· ||| ·) s)

/-- XOR (R215). -/
def execXor (h : Hdr) (rd ra rb : Nat) (s : State) : Res := .next (srSlot h rd ra rb false (· ^^^ ·) s)

/-- SHL (R215). -/
def execShl (h : Hdr) (rd ra rb : Nat) (s : State) : Res := .next (srSlot h rd ra rb true shlOp s)

/-- SHR (R215). -/
def execShr (h : Hdr) (rd ra rb : Nat) (s : State) : Res := .next (srSlot h rd ra rb true shrOp s)

/-- SRA (R215). -/
def execSra (h : Hdr) (rd ra rb : Nat) (s : State) : Res := .next (srSlot h rd ra rb true sraOp s)

/-- MUL (R215, low 64 bits). -/
def execMul (h : Hdr) (rd ra rb : Nat) (s : State) : Res := .next (srSlot h rd ra rb false (· * ·) s)

/-- MULHU (R215). -/
def execMulhu (h : Hdr) (rd ra rb : Nat) (s : State) : Res := .next (srSlot h rd ra rb false mulhuOp s)

/-- DIV (R215, R216). -/
def execDiv (h : Hdr) (rd ra rb : Nat) (s : State) : Res := .next (srSlot h rd ra rb false divOp s)

/-- DIVU (R215, R216). -/
def execDivu (h : Hdr) (rd ra rb : Nat) (s : State) : Res := .next (srSlot h rd ra rb false divuOp s)

/-- REM (R215, R216). -/
def execRem (h : Hdr) (rd ra rb : Nat) (s : State) : Res := .next (srSlot h rd ra rb false remOp s)

/-- REMU (R215, R216). -/
def execRemu (h : Hdr) (rd ra rb : Nat) (s : State) : Res := .next (srSlot h rd ra rb false remuOp s)

/-- MIN (R215). -/
def execMin (h : Hdr) (rd ra rb : Nat) (s : State) : Res := .next (srSlot h rd ra rb false minOp s)

/-- MAX (R215). -/
def execMax (h : Hdr) (rd ra rb : Nat) (s : State) : Res := .next (srSlot h rd ra rb false maxOp s)

/-- MINU (R215). -/
def execMinu (h : Hdr) (rd ra rb : Nat) (s : State) : Res := .next (srSlot h rd ra rb false minuOp s)

/-- MAXU (R215). -/
def execMaxu (h : Hdr) (rd ra rb : Nat) (s : State) : Res := .next (srSlot h rd ra rb false maxuOp s)

/-- ADDI (R215). -/
def execAddi (h : Hdr) (rd ra imm : Nat) (s : State) : Res := .next (siSlot h rd ra imm false (· + ·) s)

/-- ANDI (R215). -/
def execAndi (h : Hdr) (rd ra imm : Nat) (s : State) : Res := .next (siSlot h rd ra imm false (· &&& ·) s)

/-- ORI (R215). -/
def execOri (h : Hdr) (rd ra imm : Nat) (s : State) : Res := .next (siSlot h rd ra imm false (· ||| ·) s)

/-- XORI (R215). -/
def execXori (h : Hdr) (rd ra imm : Nat) (s : State) : Res := .next (siSlot h rd ra imm false (· ^^^ ·) s)

/-- SHLI (R215). -/
def execShli (h : Hdr) (rd ra imm : Nat) (s : State) : Res := .next (siSlot h rd ra imm (decide (64 ≤ imm)) shlOp s)

/-- SHRI (R215). -/
def execShri (h : Hdr) (rd ra imm : Nat) (s : State) : Res := .next (siSlot h rd ra imm (decide (64 ≤ imm)) shrOp s)

/-- SRAI (R215). -/
def execSrai (h : Hdr) (rd ra imm : Nat) (s : State) : Res := .next (siSlot h rd ra imm (decide (64 ≤ imm)) sraOp s)

/-- MULI (R215). -/
def execMuli (h : Hdr) (rd ra imm : Nat) (s : State) : Res := .next (siSlot h rd ra imm false (· * ·) s)

/-- LI (R215): imm47 zero-extended, never poisoned. -/
def execLi (h : Hdr) (rd imm : Nat) (s : State) : Res :=
  .next (coreSlot h [1, 2] [(0, rd)] false (fun c w =>
    waitFor [c.pendS rd] (.ok (w.wrS rd ⟨BitVec.ofNat 64 (imm % 2 ^ 47), false⟩))) s)

/-- LIS (R215): imm47 sign-extended, never poisoned. -/
def execLis (h : Hdr) (rd imm : Nat) (s : State) : Res :=
  .next (coreSlot h [1, 2] [(0, rd)] false (fun c w =>
    waitFor [c.pendS rd] (.ok (w.wrS rd ⟨BitVec.ofInt 64 (sext 47 imm), false⟩))) s)

/-- LIH (R215): (rd mod 2^47) + imm17 * 2^47; keeps the poison of rd. -/
def execLih (h : Hdr) (rd imm : Nat) (s : State) : Res :=
  .next (coreSlot h [1, 2] [(0, rd)] false (fun c w =>
    waitFor [c.pendS rd]
      (.ok (w.wrS rd ⟨BitVec.ofNat 64 ((c.rdS rd).v.toNat % 2 ^ 47 + imm % 2 ^ 17 * 2 ^ 47), (c.rdS rd).p⟩))) s)

/-- CMP (R217). -/
def execCmp (h : Hdr) (pd ra rb cond : Nat) (s : State) : Res :=
  .next (predSlot h pd (decide (6 ≤ cond)) (fun c => [c.pendS ra, c.pendS rb]) (fun _ => false)
    (fun c => ⟨condHolds cond (c.rdS ra).v (c.rdS rb).v, (c.rdS ra).p || (c.rdS rb).p⟩) s)

/-- CMPI (R217). -/
def execCmpi (h : Hdr) (pd ra cond imm : Nat) (s : State) : Res :=
  .next (predSlot h pd (decide (6 ≤ cond)) (fun c => [c.pendS ra]) (fun _ => false)
    (fun c => ⟨condHolds cond (c.rdS ra).v (BitVec.ofInt 64 (sext 32 imm)), (c.rdS ra).p⟩) s)

/-- PLOG (R217): bit 2 * pa + pb of the table; a source that met an oversize message raises SYNC (R244). -/
def execPlog (h : Hdr) (pd pa pb table : Nat) (s : State) : Res :=
  .next (predSlot h pd false (fun c => [c.pendP pa, c.pendP pb])
    (fun c => (decide (pa ≠ 0) && c.recvBad.contains pa) || (decide (pb ≠ 0) && c.recvBad.contains pb))
    (fun c => ⟨bitAt table (2 * b2n (c.rdP pa).v + b2n (c.rdP pb).v), (c.rdP pa).p || (c.rdP pb).p⟩) s)

/-- Bytes of a size code (R218). -/
def sizeBytes (size : Nat) : Nat := 2 ^ (size % 4)

/-- LD (R218): an aligned load, zero- or sign-extended, with the poison of its word (R175). -/
def execLd (h : Hdr) (rt ra size : Nat) (sx : Bool) (imm : Nat) (s : State) : Res :=
  .next (coreSlot h [1, 2] [(0, rt)] false (fun c w =>
    let n := sizeBytes size
    let a := localAddr (c.rdS ra).v 24 imm
    let poison := (c.rdS ra).p
    waitFor [c.pendS ra, c.pendS rt, if poison then none else c.pendMem a n]
      (raiseIf [(poison, excPoisonCtl), (!poison && !sramOk a n n, excAddress)]
        (let w := w.eccRange h.pf a n
         let x := w.sram.readNat a n
         .ok (w.wrS rt ⟨if sx then BitVec.ofInt 64 (sext (8 * n) x) else BitVec.ofNat 64 x, w.sram.rangePoison 8 a n⟩)))) s)

/-- ST (R218): an aligned store; poison and the merge of a partial word by R175. -/
def execSt (h : Hdr) (rt ra size : Nat) (sx : Bool) (imm : Nat) (s : State) : Res :=
  .next (coreSlot h [1, 2] [] sx (fun c w =>
    let n := sizeBytes size
    let a := localAddr (c.rdS ra).v 24 imm
    let poison := (c.rdS ra).p
    let v := c.rdS rt
    waitFor [c.pendS ra, c.pendS rt]
      (raiseIf [(poison, excPoisonCtl), (!poison && !sramOk a n n, excAddress)]
        (let w := if n = 8 then w else w.eccRange h.pf a n
         let was := decide (n < 8) && w.sram.rangePoison 8 a n
         .ok (w.sramStore a (toBytes n v.v.toNat) (if v.p || was then [a / 8] else []))))) s)

/-- The cycle counter of a facet (R170): thousandths of cycles of the region's clock since the facet's reset,
with the clock's free phase (log entry 8). -/
def State.cycles (s : State) (pf : Nat) : Nat :=
  let g := regionOf pf
  let r := Tab.getD s.regions g Region.reset
  let mhz := if r.stopped then 0 else s.rd (.REGION_CLK g) F.REGION_CLK.fclk_cur
  (r.clkAcc + (s.time - r.clkFrom) * mhz + Config.clockPhase g r.clkChanges % 1000) / 1000 - (s.facet pf).fcBase

/-- The system time copy of a facet (R170): the time base delayed by 2 fc. -/
def State.timeCopy (s : State) (pf : Nat) : Nat :=
  let mhz := s.rd (.REGION_CLK (regionOf pf)) F.REGION_CLK.fclk_cur
  s.reg .SYS_TIME - (2000 + mhz - 1) / mhz

/-- RDC (R219): the cycle counter, the system time copy, the LF or the bound service; never poisoned. -/
def execRdc (h : Hdr) (rd sel : Nat) (s : State) : Res :=
  .next (coreSlot h [1, 2] [(0, rd)] (decide (4 ≤ sel)) (fun c w =>
    let x := match sel with
      | 0 => s.cycles h.pf
      | 1 => s.timeCopy h.pf
      | 2 => s.lfOf h.pf
      | _ => s.rd (.FAC_BIND h.pf) F.FAC_BIND.service
    waitFor [c.pendS rd] (.ok (w.wrS rd ⟨BitVec.ofNat 64 x, false⟩))) s)

end Sys2Proof.Machine
end

