-- ==== Sys2Proof/Machine/Takeover.lean ====
section
/-! DEFINITION. The fence of a facet and the takeover of its LF by the mirror facet (R449, R451, R453). -/

namespace Sys2Proof.Machine

/-- The mirror facet of a region (R5). -/
def mirrorPf (g : Nat) : Nat := g * 17 + 16

/-- The facet that holds an LF (R6, R412): no number of 768 or more is an LF. -/
def State.pfOf (s : State) (lf : Nat) : Option Nat :=
  if lf < 768 ∧ s.on (.LF_MAP lf) F.LF_MAP.valid = true then some (s.rd (.LF_MAP lf) F.LF_MAP.pf) else none

/-- The mirror facet can take an LF: not fenced, in RESET, holding none (R453). -/
def State.mirrorFree (s : State) (g : Nat) : Bool :=
  let m := mirrorPf g
  !(s.facet m).fenced && decide (s.lfOf m = 0x3FF) && decide (s.facState m = 0)

/-- The steps in flight on a facet, each reported failed (R362, R453). -/
def State.failSteps (s : State) (pf : Nat) : State :=
  let c := (s.facet pf).core
  let coming := s.serve.sending.filter (fun x => decide (x.pf = pf))
  let steps := (c.step.toList ++ c.dq ++ coming.map Sending.desc).map Desc.step
  { s with noc := { s.noc with reports := s.noc.reports ++ steps.map (fun n => (s.lfOf pf, n, false)) }
           serve := { s.serve with sending := s.serve.sending.filter (fun x => decide (x.pf ≠ pf)) } }

/-- The staged arrays of a facet dropped (R407, R453). -/
def State.dropStaged (s : State) (pf : Nat) : State :=
  let l := Tab.getD s.staged pf []
  let s := l.foldl (fun s x => (if s.arrState pf x.phys = 4 then s.setArrState pf x.phys 2 else s).stagedLost pf x.epoch) s
  let s := { s with staged := Tab.put s.staged pf [] [] }
  (s.wr (.FAC_EPOCH pf) F.FAC_EPOCH.staged 0).wr (.FAC_EPOCH pf) F.FAC_EPOCH.staged_epoch 0

/-- A mirror run in progress in a region ended (R453, R461). -/
def State.dropRun (s : State) (g : Nat) : State := s.setRegion g { s.region g with mr := none }

/-- A mirror run in progress in a region voided and counted (R461). -/
def State.voidRun (s : State) (g : Nat) : State :=
  if (s.region g).mr.isSome then (s.dropRun g).bump (.MR_STAT g) F.MR_STAT.void 1 else s

/-- A facet fenced (R449, R453): its steps fail, its LF passes to the region's mirror facet or is lost, its staged
arrays and the region's mirror run are dropped; the map entry follows when the new holder is bound, or 1 s later. -/
def State.fenceFacet (s : State) (pf cause : Nat) (payload : List Byte) : State :=
  if (s.facet pf).fenced then s
  else
    let g := regionOf pf
    let m := mirrorPf g
    let lf := s.lfOf pf
    let takes := decide (lf ≠ 0x3FF) && decide (m ≠ pf) && s.mirrorFree g
    let s := s.failSteps pf
    let s := s.setFacet pf { s.facet pf with fenced := true, bun := none, stop := none, bar := none
                                             core := { (s.facet pf).core with step := none, dq := [] } }
    let s := s.wr (.FAC_STAT pf) F.FAC_STAT.dq_depth 0
    let s := s.dropStaged pf
    let s := if takes then s.voidRun g else s.dropRun g
    let s := s.wr (.FAC_BIND pf) F.FAC_BIND.lf 0x3FF
    let desc := unitDesc 3 pf 0 0
    let s := if lf = 0x3FF then s
      else if takes then (s.wr (.FAC_BIND m) F.FAC_BIND.lf lf).wr (.LF_MAP lf) F.LF_MAP.pf m
      else s.wr (.LF_MAP lf) F.LF_MAP.valid 0
    let lost := decide (lf ≠ 0x3FF) && !takes
    let s := { s with faults := { s.faults with late := s.faults.late ++ [(desc, s.time + 1000000000)] } }
    let s := s.fenceReport desc (if lost then clsCapacity else clsUnit) cause (if lf = 0x3FF then 0xFFFF else lf) payload
    if lost then s.raise ⟨6, 0x1C2, 0xFFFF, 0xFFFF, [desc, 1]⟩
    else if takes then s.raise ⟨6, 0x1C1, 0xFFFF, 0xFFFF, [unitDesc 5 g 0 0]⟩ else s

/-- The shadow column of a facet fenced (R260): enable cleared and held, recorded in the map. -/
def State.fenceShadow (s : State) (pf cause : Nat) : State :=
  let f := s.facet pf
  if f.shadowFenced then s
  else
    let s := s.setFacet pf { f with shadowFenced := true }
    let s := s.wr (.TEN_SHADOW pf) F.TEN_SHADOW.enable 0
    s.recordFence (unitDesc 4 pf 0 0) clsUnit cause

end Sys2Proof.Machine
end

