-- ==== Sys2Proof/Machine/TensorOps.lean ====
section
/-! DEFINITION. The tensor unit's shared operations: operand descriptors (R233), staging (R249), the arithmetic of a cell
(R70, R71), the mask (R278-R280), the mask session (R285). -/

namespace Sys2Proof.Machine

/-- The pairs of R69 with the rates of R235: float?, ACC32 rate, ACC16 rate where allowed. -/
def tmmPair (fa fb : Nat) : Option (Bool × Nat × Option Nat) :=
  if (fa = 9 ∧ fb = 9) ∨ (fa = 8 ∧ fb = 8) then some (true, 1024, none)
  else if (fa = 6 ∨ fa = 7) ∧ (fb = 6 ∨ fb = 7) then some (true, 2048, some 4096)
  else if fa = 5 ∧ fb = 5 then some (true, 4096, some 8192)
  else if fa = 1 ∧ fb = 1 then some (false, 4096, some 8192)
  else if (fa = 0 ∧ fb = 2) ∨ (fa = 2 ∧ fb = 0) then some (false, 4096, some 8192)
  else if fa = 2 ∧ fb = 2 then some (false, 2048, none)
  else none

/-- Formats that R60 block-scales. -/
def scalable (f : Nat) : Bool := [1, 2, 5, 6, 7].contains f

/-- The fields of an operand descriptor (R233). -/
def dCoded (d : Nat) : Bool := bitAt d 63
def dScaled (d : Nat) : Bool := bitAt d 62
def dTrans (d : Nat) : Bool := bitAt d 61
def dStride (d : Nat) : Nat := bits d 60 47
def dSaddr (d : Nat) : Nat := bits d 46 24
def dAddr (d : Nat) : Nat := bits d 22 0

/-- Bytes of a row or column of `k` elements before padding (R233). -/
def rowBytes (fmt k : Nat) : Nat := if fmt = 0 then (k + 4) / 5 else (k * fmtBits fmt + 7) / 8

/-- A packed row or column (R233). -/
def packedRow (fmt k : Nat) : Nat := roundUp (rowBytes fmt k) 64

/-- Rows of an operand as it lies in memory, and elements per row: over k when trans is set. -/
def opRows (d k mn : Nat) : Nat := if dTrans d then k else mn
def opCols (d k : Nat) : Nat := if dTrans d then 64 else k

/-- Bytes of a decoded operand image (R249, R314). -/
def imageBytes (d fmt k mn : Nat) : Nat := opRows d k mn * packedRow fmt (opCols d k)

/-- Blocks of a coded operand (R328). -/
def blockCount (d fmt k mn : Nat) : Nat := (imageBytes d fmt k mn + 4095) / 4096

/-- Distance of a raw operand's rows. -/
def rowStep (d fmt k : Nat) : Nat := if dStride d = 0 then packedRow fmt (opCols d k) else dStride d * 64

/-- The scale array of an operand (R233): its bytes. -/
def scaleBytes (k mn : Nat) : Nat := mn * ((k + 31) / 32)

/-- The source ranges of an operand (R250). -/
def opRanges (d fmt k mn : Nat) : List (Nat × Nat) :=
  (if dCoded d then
      let n := blockCount d fmt k mn
      [(dAddr d, n * 4096 + n * 32)]
    else (List.range (opRows d k mn)).map (fun r => (dAddr d + r * rowStep d fmt k, rowBytes fmt (opCols d k))))
  ++ (if dScaled d then [(dSaddr d, scaleBytes k mn)] else [])

/-- A descriptor whose ranges or alignment break R172 (R233, R328). -/
def opAddrBad (d fmt k mn : Nat) : Bool :=
  decide (dAddr d % 64 ≠ 0) || (dCoded d && decide (dAddr d % 4096 ≠ 0))
    || (opRanges d fmt k mn).any (fun g => decide (0x600000 < g.1 + g.2))

/-- A descriptor that raises ILLEGAL_FORMAT (R233). -/
def opFormatBad (isB : Bool) (d fmt : Nat) : Bool :=
  (dTrans d && (!isB || decide (fmt = 0) || decide (fmtBits fmt = 4) || dScaled d))
    || (dCoded d && (decide (dStride d ≠ 0) || dTrans d))
    || (dScaled d && !scalable fmt)

/-- Bytes of data SRAM with the poison of their words. -/
def FCore.sramBytes (c : FCore) (a n : Nat) : List (Byte × Bool) :=
  (List.range n).map (fun i => (c.sram.byte (a + i), c.sram.isPoison ((a + i) / 8)))

/-- Bytes put into an operand image with their poison. -/
def imgWrite (m : Mem) (a : Nat) : List (Byte × Bool) → Mem
  | [] => m
  | b :: t => imgWrite ((m.setByte a b.1).setPoison a b.2) (a + 1) t

/-- A raw operand's elements and any operand's scale bytes staged from data SRAM (R249, R328). -/
def stage (c : FCore) (d fmt k mn : Nat) : Staged :=
  let p := packedRow fmt (opCols d k)
  let img := if dCoded d then Mem.empty else
    (List.range (opRows d k mn)).foldl (fun m r =>
      imgWrite m (r * p) (c.sramBytes (dAddr d + r * rowStep d fmt k) (rowBytes fmt (opCols d k)))) Mem.empty
  let img := if dScaled d then imgWrite img (2 ^ 24) (c.sramBytes (dSaddr d) (scaleBytes k mn)) else img
  ⟨d, fmt, k, mn, img, opRanges d fmt k mn, true⟩

/-- The blocks of a coded operand still to be decoded (R328). -/
def opBlocks (isB : Bool) (d fmt k mn : Nat) : List Blk :=
  if dCoded d then
    let n := blockCount d fmt k mn
    (List.range n).map (fun i => ⟨isB, i, dAddr d + i * 4096, dAddr d + n * 4096 + i * 32⟩)
  else []

/-- Is the operand retained (R249)? -/
def retained (r : Option Staged) (d fmt k mn : Nat) : Bool :=
  match r with
  | some x => x.valid && decide (x.desc = d) && decide (x.fmt = fmt) && decide (x.k = k) && decide (x.mn = mn)
  | none => false

/-- Element (i, k) of a staged operand: row or column i; none when poisoned (R57, R60, R189). -/
def Staged.elem (s : Staged) (i k : Nat) : Option FVal :=
  let p := packedRow s.fmt (opCols s.desc s.k)
  let r := if dTrans s.desc then k else i
  let j := if dTrans s.desc then i else k
  if s.fmt = 0 then
    let a := r * p + j / 5
    if s.img.isPoison a then none
    else match t5Decode (s.img.byte a).toNat with
      | some t => some (ofInt (t.getD (j % 5) 0))
      | none => none
  else
    let nb := fmtBits s.fmt
    let a := r * p + j * nb / 8
    if s.img.rangePoison 1 a ((nb + 7) / 8) then none
    else if nb = 4 then elemVal s.fmt (bits (s.img.byte a).toNat (4 * (j % 2) + 3) (4 * (j % 2)))
    else elemVal s.fmt (s.img.readNat a (nb / 8))

/-- The scale byte of element (i, k) (R60, R69): 127 unscaled; none when poisoned or 0xFF. -/
def Staged.scale (s : Staged) (i k : Nat) : Option Nat :=
  if dScaled s.desc then
    let a := 2 ^ 24 + i * ((s.k + 31) / 32) + k / 32
    if s.img.isPoison a ∨ s.img.byte a = 255 then none else some (s.img.byte a).toNat
  else some 127

/-- A row of elements with their scale bytes; none when any is poisoned. -/
def Staged.row (s : Staged) (i : Nat) : Option (List (FVal × Nat)) :=
  (List.range s.k).foldr (fun k acc => match s.elem i k, s.scale i k, acc with
    | some v, some e, some l => some ((v, e) :: l)
    | _, _, _ => none) (some [])

/-- T5 bytes in the range 243-255 among an operand's unpoisoned bytes (R57). -/
def Staged.t5Bad (s : Staged) : Nat :=
  if s.fmt = 0 then
    (List.range s.mn).foldl (fun t i => t + (List.range (rowBytes 0 s.k)).countP (fun b =>
      let a := i * packedRow 0 s.k + b
      !s.img.isPoison a && decide (243 ≤ (s.img.byte a).toNat))) 0
  else 0

/-- Invalid scale bytes of an operand (R60). -/
def Staged.scaleBad (s : Staged) : Nat :=
  if dScaled s.desc then
    (List.range (scaleBytes s.k s.mn)).countP (fun b => !s.img.isPoison (2 ^ 24 + b) && decide (s.img.byte (2 ^ 24 + b) = 255))
  else 0

/-- What a cell's accumulation answers: its 32 bits, saturations, chunk positions that overflowed (R71, R72). -/
structure CellRes where
  bits : Nat
  sats : Nat
  beyond : List Nat
  deriving DecidableEq, Repr

/-- A value added to an FP32 cell with one rounding. -/
def addCellF (cell : Nat) (x : FVal) : Nat := r32 (fadd (f32 cell) x)

/-- An integer added to an INT32 cell, saturating (R72). -/
def addCellI (r : CellRes) (x : Int) : CellRes :=
  let q := sat32 (sext 32 r.bits + x)
  { r with bits := toCode 32 q.1, sats := r.sats + b2n q.2 }

/-- An exact product of a pair. -/
def pairProd (x : (FVal × Nat) × (FVal × Nat)) : FVal := fmul x.1.1 x.2.1
/-- An exact integer product of a pair. -/
def pairInt (x : (FVal × Nat) × (FVal × Nat)) : Int := (toInt x.1.1).getD 0 * (toInt x.2.1).getD 0
/-- The exponent of a pair's scales (R70). -/
def pairScale (x : (FVal × Nat) × (FVal × Nat)) : Int := (x.1.2 : Int) + x.2.2 - 254
/-- The sum of integer products. -/
def sumInt (xs : List ((FVal × Nat) × (FVal × Nat))) : Int := xs.foldl (fun t x => t + pairInt x) 0
/-- The scale exponent of a chunk or block: that of its first pair. -/
def headScale (xs : List ((FVal × Nat) × (FVal × Nat))) : Int := (xs.head?.map pairScale).getD 0

/-- The exact sum's magnitude is 65,520 or more (R71). -/
def overflows (x : FVal) : Bool := match fcmp (fabs x) (ofInt 65520) with
  | some .lt => false
  | none => false
  | _ => true

/-- A float chunk (R71): its narrow FP16 sum, or, when it overflows, the sequential FP32 sum; and whether it did. -/
def floatChunk (xs : List ((FVal × Nat) × (FVal × Nat))) : FVal × Bool :=
  let r := xs.foldl (fun (acc : Nat × Bool) x =>
    let sum := fadd (fp16.decode acc.1) (pairProd x)
    (fp16.encode sum, acc.2 || overflows sum)) (0, false)
  if r.2 then (f32 (xs.foldl (fun acc x => addCellF acc (pairProd x)) 0), true) else (fp16.decode r.1, false)

/-- A cell's accumulation of its products (R70, R71): `flt` a float pair, `scaled` a block-scaled pair, `chunk` the ACC16
chunk length, 0 under ACC32. -/
def accumulate (flt scaled : Bool) (chunk : Nat) (start : Nat) (xs : List ((FVal × Nat) × (FVal × Nat))) : CellRes :=
  let r0 : CellRes := ⟨start, 0, []⟩
  if chunk = 0 then
    if flt then { r0 with bits := xs.foldl (fun acc x => addCellF acc (fscale (pairScale x) (pairProd x))) start }
    else if scaled then
      { r0 with bits := (pieces 32 xs.length xs).foldl (fun acc b => addCellF acc (fscale (headScale b) (ofInt (sumInt b)))) start }
    else xs.foldl (fun r x => addCellI r (pairInt x)) r0
  else
    let c := if scaled then min chunk 32 else chunk
    let cs := pieces c xs.length xs
    ((List.range cs.length).zip cs).foldl (fun r q =>
      if flt then
        let f := floatChunk q.2
        { r with bits := addCellF r.bits (fscale (headScale q.2) f.1), beyond := if f.2 then r.beyond ++ [q.1] else r.beyond }
      else if scaled then { r with bits := addCellF r.bits (fscale (headScale q.2) (ofInt (sumInt q.2))) }
      else addCellI r (sumInt q.2)) r0

/-- Cell (i, j) of tile t: its place in the tile memory. -/
def cellIdx (t i j : Nat) : Nat := (t * 32 + i) * 64 + j

/-- A tile cell read. -/
def FCore.cell (c : FCore) (t i j : Nat) : Nat × Bool := (c.t.readNat (cellIdx t i j * 4) 4, c.t.isPoison (cellIdx t i j))

/-- A tile cell written. -/
def FCore.setCell (c : FCore) (t i j : Nat) (x : Nat × Bool) : FCore :=
  { c with t := (c.t.writeNat (cellIdx t i j * 4) 4 x.1).setPoison (cellIdx t i j) x.2 }

/-- A tile set to +0 in every cell, with poison clear (R234). -/
def FCore.clearTile (c : FCore) (t : Nat) : FCore :=
  (List.range 2048).foldl (fun c i => c.setCell t (i / 64) (i % 64) (0, false)) c

/-- The value of a chunk code (R261). -/
def chunkLen (code : Nat) : Nat := if code = 0 then 16 else if code = 2 then 64 else 32

/-- Mask descriptor fields (R278), by row, column and node. -/
def mQpos (d : List Byte) (i : Nat) : Nat := field d (4 * i) 4
def mQseg (d : List Byte) (i : Nat) : Nat := field d (128 + 2 * i) 2
def mKseg (d : List Byte) (j : Nat) : Nat := field d (192 + 2 * j) 2
def mBase (d : List Byte) : Nat := field d 320 4 % 2 ^ 24
def mFlag (d : List Byte) (b : Nat) : Bool := bitAt (field d 324 1) b
def mNodes (d : List Byte) : Nat := field d 325 1
def mParent (d : List Byte) (t : Nat) : Nat := field d (328 + t) 1
def mTreeRow (d : List Byte) (i : Nat) : Bool := bitAt (mQpos d i) 31
def mNode (d : List Byte) (i : Nat) : Nat := bits (mQpos d i) 29 24

/-- A node and its ancestors, at most `n` of them (R279). -/
def ancestors (d : List Byte) (t : Nat) : Nat → List Nat
  | 0 => []
  | n + 1 => t :: (if mParent d t = 0xFF then [] else ancestors d (mParent d t) n)

/-- An invalid mask descriptor (R280). -/
def maskBad (d : List Byte) : Bool :=
  let tree := mFlag d 2
  let n := mNodes d
  (List.range 32).any (fun i => bitAt (mQpos d i) 30) || decide (bits (field d 320 4) 31 24 ≠ 0)
    || decide (8 ≤ field d 324 1) || decide (field d 326 2 ≠ 0) || decide (ofBytes (d.drop 392) ≠ 0)
    || (tree && (decide (n = 0) || decide (64 < n))) || (!tree && decide (n ≠ 0))
    || (tree && decide (mParent d 0 ≠ 0xFF))
    || (tree && (List.range 64).any (fun t => decide (n ≤ t) && decide (mParent d t ≠ 0xFF)))
    || (tree && (List.range n).any (fun t => decide (1 ≤ t) && decide (t ≤ mParent d t)))
    || (tree && (List.range n).any (fun t => decide (16 < (ancestors d t 64).length)))
    || (List.range 32).any (fun i => mTreeRow d i && (!tree || decide (n ≤ mNode d i)))

/-- Cell (i, j) of a masked TMM with key index k = rk + j visible (R279). -/
def visible (d : List Byte) (i j k : Nat) : Bool :=
  let tree := mTreeRow d i
  let base := mBase d
  let causal := !mFlag d 0 || tree || decide (k ≤ mQpos d i % 2 ^ 24)
  let seg := !mFlag d 1 || (tree && decide (base ≤ k)) || decide (mKseg d j = mQseg d i)
  let tr := !mFlag d 2 || decide (k < base) || (tree && decide (k < base + 64) && (ancestors d (mNode d i) 16).contains (k - base))
  causal && seg && tr

/-- A mask session closed (R285): its empty rows counted. -/
def State.closeSession (s : State) (pf : Nat) : State :=
  let x := (s.facet pf).core.session
  if x.isOpen then
    let s := s.bump (.ATT_STAT pf) F.ATT_STAT.sessions 1
    let s := if x.runs = 0 then s
      else s.bump (.ATT_STAT pf) F.ATT_STAT.empty_rows ((List.range x.maxM).countP (fun i => !bitAt x.rows i))
    s.asyncCore pf (fun c => { c with session := ⟨false, 0, 0, 0⟩ })
  else s

end Sys2Proof.Machine
end

