-- ==== Sys2Proof/Machine/Tensor.lean ====
section
/-! DEFINITION. The tensor slot (R232-R237), the tensor queue (R235, R255), the shadow column (R256-R260) and its
registers. -/

namespace Sys2Proof.Machine

/-- The tensor queue has room (R186). -/
def FCore.tqRoom (c : FCore) : Bool := decide (c.tq.length < 4)

/-- An operation put into the tensor queue, or the wait for room (R181, R185). -/
def tqPush (c w : FCore) (o : TOp) : SlotRes :=
  if c.tqRoom then .ok { w with seq := w.seq + 1, tq := w.tq ++ [o] } else .stall 1

/-- A slot value's header (R177). -/
def slotHead (h : Hdr) (op : Nat) : Nat := op * 2 ^ 58 + h.pred * 2 ^ 54 + b2n h.pneg * 2 ^ 53

/-- TMM (R232-R236): m and n are the counts of rows and columns. -/
def execTmm (h : Hdr) (td fa fb : Nat) (acc16 clr : Bool) (sa sb sk m n : Nat) (mask : Bool) (rk : Nat) (s : State) : Res :=
  .next (coreSlot h [5] [] false (fun c w =>
    let a := c.rdS sa
    let b := c.rdS sb
    let kk := c.rdS sk
    let r := c.rdS rk
    let da := a.v.toNat
    let db := b.v.toNat
    let k := kk.v.toNat
    let pair := tmmPair fa fb
    let noPair := match pair with
      | none => true
      | some p => acc16 && p.2.2.isNone
    let flt := (pair.map (fun p => p.1)).getD false
    let scaled := (!a.p && dScaled da) || (!b.p && dScaled db)
    -- a poisoned descriptor tells nothing of the result kind (R190)
    let kind : Option Nat := if flt || scaled then some 1 else if a.p || b.p then none else some 2
    let held := c.kinds.getD td 0
    let kindBad := match kind with
      | some x => (!clr && decide (held ≠ 0) && decide (held ≠ x)) || (mask && decide (x = 2))
      | none => false
    let addrBad := fun (q : SReg) (fmt mn : Nat) => !q.p && !kk.p && decide (k ≠ 0) && decide (k ≤ 131072) && opAddrBad q.v.toNat fmt k mn
    let word := slotHead h 1 + td * 2 ^ 51 + fa * 2 ^ 47 + fb * 2 ^ 43 + b2n acc16 * 2 ^ 42 + b2n clr * 2 ^ 41 + sa * 2 ^ 35
      + sb * 2 ^ 29 + sk * 2 ^ 23 + (m - 1) * 2 ^ 18 + (n - 1) * 2 ^ 12 + b2n mask * 2 ^ 11 + rk * 2 ^ 5
    waitFor [c.pendS sa, c.pendS sb, c.pendS sk, if mask then c.pendS rk else none]
      (raiseIf [(noPair, excIllegalFormat), (!a.p && opFormatBad false da fa, excIllegalFormat),
          (!b.p && opFormatBad true db fb, excIllegalFormat), (!kk.p && decide (131072 < k), excIllegalFormat),
          (kindBad, excIllegalFormat), (addrBad a fa m, excAddress), (addrBad b fb n, excAddress),
          (a.p || b.p || kk.p || (mask && r.p), excPoisonCtl)]
        (tqPush c { w with kinds := setNth w.kinds td (kind.getD 0) }
          (.tmm ⟨td, fa, fb, acc16, clr, da, db, k, m, n, mask, r.v.toNat, word, c.seq⟩)))) s)

/-- TCLR (R234). -/
def execTclr (h : Hdr) (td : Nat) (s : State) : Res :=
  .next (coreSlot h [5] [] false (fun c w => tqPush c { w with kinds := setNth w.kinds td 0 } (.tclr td)) s)

/-- Formats a tile drain delivers (R237). -/
def drainFmt (df : Nat) : Bool := [2, 3, 4, 6, 7, 8, 9, 10].contains df

/-- TDRNV (R237): rows is the count of rows. -/
def execTdrnv (h : Hdr) (vd td df rows : Nat) (clr : Bool) (s : State) : Res :=
  let d : TDrain := ⟨td, df, rows, clr, false, vd, 0⟩
  .next (coreSlot h [5] (vGroup vd d.regs) (decide (32 < vd + d.regs) && drainFmt df) (fun c w =>
    waitFor ((List.range d.regs).map (fun i => c.pendV (vd + i)))
      (raiseIf [(!drainFmt df, excIllegalFormat)]
        (tqPush c (if clr then { w with kinds := setNth w.kinds td 0 } else w) (.drain { d with seq := c.seq })))) s)

/-- TDRNM (R237). -/
def execTdrnm (h : Hdr) (ra td df rows : Nat) (clr : Bool) (s : State) : Res :=
  .next (coreSlot h [5] [] false (fun c w =>
    let a := c.rdS ra
    let d : TDrain := ⟨td, df, rows, clr, true, a.v.toNat, c.seq⟩
    waitFor [c.pendS ra]
      (raiseIf [(!drainFmt df, excIllegalFormat), (a.p, excPoisonCtl),
          (!a.p && drainFmt df && !sramOk a.v.toNat d.bytes 64, excAddress)]
        (tqPush c (if clr then { w with kinds := setNth w.kinds td 0 } else w) (.drain d)))) s)

/-- TMSK (R278, R281). -/
def execTmsk (h : Hdr) (vs : Nat) (s : State) : Res :=
  .next (coreSlot h [5] [] false (fun c w =>
    waitFor [c.pendV vs]
      (let bs := c.vBytes vs 512
       tqPush c w (.tmsk (bs.map Prod.fst) (bs.any Prod.snd)))) s)

/-- An older drain into data SRAM still has to write a source range of the TMM (R187). -/
def FCore.operandHeld (c : FCore) (o : TmmOp) : Bool :=
  let rs := if o.k = 0 then [] else opRanges o.da o.fa o.k o.m ++ opRanges o.db o.fb o.k o.n
  rs.any (fun g =>
    c.drains.any (fun d => d.toMem && decide (d.seq < o.seq) && decide (d.dst < g.1 + g.2) && decide (g.1 < d.dst + d.bytes))
      || c.moving.any (fun d => d.toMem && decide (d.seq < o.seq) && decide (d.dst < g.1 + g.2) && decide (g.1 < d.dst + d.bytes)))

/-- The staging time of an operand that is not retained (R251, R325). -/
def stageTime (c : FCore) (d fmt k mn : Nat) : Nat :=
  if dCoded d then
    (opBlocks false d fmt k mn).foldl (fun t b => t + (if (parseHdr (c.sram.read b.hdr 32)).raw then 64 else 128)) 0
  else (imageBytes d fmt k mn + (if dScaled d then scaleBytes k mn else 0) + 63) / 64

/-- The kind a TMM gives its tile (R69). -/
def tmmKind (o : TmmOp) : Nat :=
  if ((tmmPair o.fa o.fb).map (fun p => p.1)).getD false || dScaled o.da || dScaled o.db then 1 else 2

/-- T5 bytes and scale bytes that are invalid in an operand just staged (R57, R60), counted. -/
def State.countStaged (s : State) (pf : Nat) (x : Staged) : State :=
  let s := if dCoded x.desc then s else s.bump (.FMT_STAT pf) F.FMT_STAT.t5_invalid x.t5Bad
  s.bump (.FMT_STAT pf) F.FMT_STAT.scale_invalid x.scaleBad

/-- The occupancy of a TMM begins (R249-R252, R256): what is not retained is staged, the shadow column copies its start
values. -/
def beginTmm (s : State) (pf : Nat) (o : TmmOp) : State :=
  let c0 := (s.facet pf).core
  let ra := retained c0.retA o.da o.fa o.k o.m
  let rb := retained c0.retB o.db o.fb o.k o.n
  let r := Reg.TEN_SHADOW pf
  let col := if s.on r F.TEN_SHADOW.enable ∧ o.k ≠ 0 then some (s.rd r F.TEN_SHADOW.rot % o.n) else none
  let chunk := if o.acc16 then chunkLen (s.rd (.ACC16_CTL pf) F.ACC16_CTL.chunk) else 0
  let rate := match tmmPair o.fa o.fb with
    | some p => if o.acc16 then p.2.2.getD p.2.1 else p.2.1
    | none => 1
  let comp := (o.k * 2048 + rate - 1) / rate
  let st := (if ra then 0 else stageTime c0 o.da o.fa o.k o.m) + (if rb then 0 else stageTime c0 o.db o.fb o.k o.n)
  let stall := if o.k = 0 then 0 else max comp st - comp
  let empty : Staged := ⟨0, 0, 0, 0, Mem.empty, [], false⟩
  let go := fun (c : FCore) =>
    let c := { c with tq := c.tq.drop 1, tint := setNth c.tint o.td (tmmKind o) }
    let c := if o.clr then c.clearTile o.td else c
    if o.k = 0 then { c with exec := some ⟨o, empty, empty, [], chunk, none, [], none, 0, 0, none⟩ }
    else
      let c := if ra then c else (opRanges o.da o.fa o.k o.m).foldl (fun c g => c.eccRange pf g.1 g.2) c
      let c := if rb then c else (opRanges o.db o.fb o.k o.n).foldl (fun c g => c.eccRange pf g.1 g.2) c
      let a := if ra then c.retA.getD empty else stage c o.da o.fa o.k o.m
      let b := if rb then c.retB.getD empty else stage c o.db o.fb o.k o.n
      let start := match col with
        | some j => (List.range o.m).map (fun i => c.cell o.td i j)
        | none => []
      { c with
        retA := if ra then c.retA else if imageBytes o.da o.fa o.k o.m ≤ 65536 then some a else none
        retB := if rb then c.retB else if imageBytes o.db o.fb o.k o.n ≤ 65536 then some b else none
        exec := some ⟨o, a, b, (if ra then [] else opBlocks false o.da o.fa o.k o.m) ++ (if rb then [] else opBlocks true o.db o.fb o.k o.n),
          chunk, col, start, none, 0, stall, none⟩ }
  -- the operand port's reads meet latent errors as any read does (R175)
  let eff := (go { c0 with eff := [] }).eff
  let s := s.asyncCore pf (fun c => { go c with eff := c.eff })
  let s := eff.foldl (fun s e => match e with
    | .bump r f n => s.bump r f n
    | .raise x => s.raiseRec x
    | _ => s) s
  match (s.facet pf).core.exec with
  | none => s
  | some x =>
    if o.k = 0 then s
    else
      let s := if ra then s else s.countStaged pf x.a
      let s := if rb then s else s.countStaged pf x.b
      s.bump (.TEN_STAT pf) F.TEN_STAT.reuse (b2n ra + b2n rb)

/-- TENSOR_OP_BEGIN (R235, R255, R281, R580): the operation at the front of the tensor queue begins: a TMM its occupancy,
a TCLR or TMSK its work, a drain its way along the drain path; each waits for what R187 and R254 order before it. -/
def execTensorOpBegin (pf : Nat) (s : State) : Res :=
  let c := (s.facet pf).core
  match c.tq with
  | [] => .next s
  | .tmm o :: _ =>
    if c.exec.isSome || c.moving.any (fun d => decide (d.td = o.td)) || c.operandHeld o then .next s
    else .next (beginTmm s pf o)
  | .tclr td :: _ =>
    if c.exec.isSome || c.moving.any (fun d => decide (d.td = td)) then .next s
    else .next (s.asyncCore pf (fun c => { c with tq := c.tq.drop 1, tint := setNth c.tint td 0 }.clearTile td))
  | .drain d :: _ =>
    if (c.exec.map (fun x => decide (x.op.td = d.td))).getD false || c.moving.any (fun e => e.clr && decide (e.td = d.td)) then .next s
    else .next (s.asyncCore pf (fun c => { c with tq := c.tq.drop 1, moving := c.moving ++ [d] }))
  | .tmsk bs p :: _ =>
    if c.exec.isSome then .next s
    else
      let s := s.closeSession pf
      .next (s.asyncCore pf (fun c => { c with tq := c.tq.drop 1, mask := bs, maskPoison := p, session := ⟨true, 0, 0, 0⟩ }))

/-- One cell of a TMM (R234, R189): the accumulation onto its start value, or poison. -/
def tmmCell (o : TmmOp) (chunk : Nat) (start : Nat × Bool) (a b : Option (List (FVal × Nat))) : Nat × Bool × CellRes :=
  match start.2, a, b with
  | false, some xs, some ys =>
    let flt := ((tmmPair o.fa o.fb).map (fun p => p.1)).getD false
    let r := accumulate flt (dScaled o.da || dScaled o.db) chunk start.1 (xs.zip ys)
    (r.bits, false, r)
  | _, _, _ => (start.1, true, ⟨start.1, 0, []⟩)

/-- A poisoned cell keeps its poison when no element is read; K = 0 reads none (R234). -/
def TExec.result (x : TExec) (c : FCore) : List (Nat × Nat × (Nat × Bool × CellRes)) :=
  if x.op.k = 0 then []
  else
    let rows := (List.range x.op.m).map (fun i => (i, x.a.row i))
    let cols := (List.range x.op.n).map (fun j => (j, x.b.row j))
    rows.flatMap (fun r => cols.map (fun q => (r.1, q.1, tmmCell x.op x.chunk (c.cell x.op.td r.1 q.1) r.2 q.2)))

/-- An error mask over cells applied to a value (a tensor cell's fault, R256). -/
def errMask (errs : List (Nat × Nat)) (i : Nat) : Nat := (errs.filter (fun e => decide (e.1 = i))).foldl (fun t e => t ^^^ (e.2 % 2 ^ 32)) 0

/-- The end of a TMM (R235, R236, R280, R285): its mask applied, its counters, the unit free. -/
def finishTmm (s : State) (pf : Nat) (x : TExec) : State :=
  let o := x.op
  let c0 := (s.facet pf).core
  let s := s.bump (.TEN_STAT pf) F.TEN_STAT.tmm 1
  let f := s.facet pf
  let t := addStall f.tenFc x.stall
  let s := (s.setFacet pf { f with tenFc := t.2 }).bump (.TEN_STAT pf) F.TEN_STAT.stall t.1
  let done := fun (c : FCore) => { c with
    exec := none
    retA := if o.k = 0 then c.retA else c.retA.map (fun r => { x.a with valid := r.valid })
    retB := if o.k = 0 then c.retB else c.retB.map (fun r => { x.b with valid := r.valid }) }
  if !o.mask then s.asyncCore pf done
  else if c0.maskPoison || maskBad c0.mask then
    let s := s.bump (.ATT_STAT pf) F.ATT_STAT.bad_desc 1
    s.asyncCore pf (fun c => (List.range (o.m * 64)).foldl (fun c q =>
      c.setCell o.td (q / 64) (q % 64) ((c.cell o.td (q / 64) (q % 64)).1, true)) (done c))
  else
    let vis := fun i j => decide (j < o.n) && visible c0.mask i j (o.rk + j)
    s.asyncCore pf (fun c =>
      let c := (List.range (o.m * 64)).foldl (fun c q =>
        if vis (q / 64) (q % 64) then c else c.setCell o.td (q / 64) (q % 64) (0xFF800000, (c.cell o.td (q / 64) (q % 64)).2)) (done c)
      let rows := (List.range o.m).filter (fun i => (List.range 64).any (vis i))
      if c.session.isOpen then
        { c with session := { c.session with
            rows := rows.foldl (fun b i => if bitAt b i then b else b + 2 ^ i) c.session.rows
            maxM := max c.session.maxM o.m, runs := c.session.runs + 1 } }
      else c)

/-- TMM_COMPLETE (R234, R235, R256): the occupancy ends, the tile takes its results, the shadow column compares.
`tileErr` (cell and bits) and `shadowErr` (row and bits) are the faults of tile and shadow cells. -/
def execTmmComplete (pf : Nat) (tileErr shadowErr : List (Nat × Nat)) (s : State) : Res :=
  let f := s.facet pf
  match f.core.exec with
  | none => .next s
  | some x =>
    if !x.todo.isEmpty || x.held.isSome then .next s
    else
      let o := x.op
      let inj6 := s.injArmed 6 (unitDesc 3 pf 0 0) && x.col.isSome
      let inj7 := s.injArmed 7 (unitDesc 3 pf 0 0) && x.col.isSome
      let tileErr := if inj6 then (x.col.getD 0, 1) :: tileErr else tileErr
      let shadowErr := if inj7 then (0, 1) :: shadowErr else shadowErr
      let x := if inj6 || inj7 then { x with inj := some s.injDry } else x
      let s := if inj6 || inj7 then s.injDone else s
      let res := x.result f.core
      let sats := res.foldl (fun t r => t + r.2.2.2.2.sats) 0
      let beyond := (res.flatMap (fun r => r.2.2.2.2.beyond)).eraseDups.length
      let s := s.bump (.FMT_STAT pf) F.FMT_STAT.int_sat sats
      let s := s.bump (.FMT_STAT pf) F.FMT_STAT.acc16_fallback beyond
      let masked := o.mask && !(f.core.maskPoison || maskBad f.core.mask)
      let put := fun (c : FCore) => res.foldl (fun c r =>
        c.setCell o.td r.1 r.2.1 (r.2.2.1 ^^^ errMask tileErr (r.1 * 64 + r.2.1),
        -- a cell that the mask excludes takes no poison (R189)
        if masked && !visible f.core.mask r.1 r.2.1 (o.rk + r.2.1) then (c.cell o.td r.1 r.2.1).2 else r.2.2.2.1)) c
      let s := s.asyncCore pf put
      match x.col with
      | none => .next (finishTmm s pf x)
      | some j =>
        let tile := (List.range o.m).map (fun i => (s.facet pf).core.cell o.td i j)
        let shadow := (List.range o.m).map (fun i =>
          match (res.find? (fun r => decide (r.1 = i) && decide (r.2.1 = j))) with
          | some r => (r.2.2.1 ^^^ errMask shadowErr i, r.2.2.2.1)
          | none => (0, true))
        let r := Reg.TEN_SHADOW pf
        let s := s.wr r F.TEN_SHADOW.rot ((s.rd r F.TEN_SHADOW.rot + 1) % 64)
        let f := s.facet pf
        let s := if f.checkLow + 1 = 2 ^ 20 then (s.setFacet pf { f with checkLow := 0 }).bump r F.TEN_SHADOW.checks 1
          else s.setFacet pf { f with checkLow := f.checkLow + 1 }
        let differ := (tile.zip shadow).any (fun p => !p.1.2 && !p.2.2 && decide (p.1.1 ≠ p.2.1))
        if differ then
          .next (s.asyncCore pf (fun c => { c with exec := some { x with held := some shadow, time := s.timeCopy pf } }))
        else .next (finishTmm s pf x)

/-- The start, tile, shadow or replay values of a signature (R264): 32 words. -/
def sigWords (xs : List (Nat × Bool)) : List Byte := ((List.range 32).map (fun i => (xs.getD i (0, false)).1)).flatMap (toBytes 4)

/-- The operand bytes a replay reads (R258): the rows of A, then column j of B, each in k order. -/
def TExec.replayBytes (x : TExec) (j : Nat) : List Byte :=
  let rowOf := fun (st : Staged) (i : Nat) =>
    let p := packedRow st.fmt (opCols st.desc st.k)
    if dTrans st.desc then
      let w := fmtBits st.fmt / 8
      (List.range st.k).flatMap (fun k => st.img.read (k * p + i * w) w)
    else st.img.read (i * p) (rowBytes st.fmt st.k)
  (List.range x.op.m).flatMap (rowOf x.a) ++ rowOf x.b j

/-- A failure signature captured (R258, R264). -/
def State.captureSig (s : State) (pf : Nat) (x : TExec) (j : Nat) (tile shadow replay : List (Nat × Bool)) : State :=
  let o := x.op
  let bs := x.replayBytes j
  let hdr := toBytes 8 o.word ++ toBytes 8 o.da ++ toBytes 8 o.db ++ toBytes 4 o.k ++ toBytes 1 j ++ toBytes 1 o.m ++ toBytes 1 o.n
    ++ toBytes 1 (b2n o.acc16 + 2 * b2n o.mask) ++ toBytes 8 (s.facet pf).core.stepNo ++ toBytes 8 x.time ++ List.replicate 16 0
    ++ sigWords x.start ++ sigWords tile ++ sigWords shadow ++ sigWords replay ++ List.replicate 192 0
  let s := s.setFacet pf { s.facet pf with sig := some ⟨hdr, bs.take 4096⟩ }
  (s.wr (.TEN_SIG_CTL pf) F.TEN_SIG_CTL.full 1).wr (.TEN_SIG_CTL pf) F.TEN_SIG_CTL.truncated (b2n (decide (4096 < bs.length)))

/-- The signature window's bytes as a record's payload (R474): its header, then its operand bytes. -/
def State.sigPayload (s : State) (pf : Nat) : List Byte := match (s.facet pf).sig with
  | some g => g.header ++ g.operands
  | none => []

/-- The signature window released (R258, R475). -/
def State.releaseSig (s : State) (pf : Nat) : State :=
  let s := s.setFacet pf { s.facet pf with sig := none }
  (s.wr (.TEN_SIG_CTL pf) F.TEN_SIG_CTL.full 0).wr (.TEN_SIG_CTL pf) F.TEN_SIG_CTL.truncated 0

/-- A record of the shadow column, which releases a captured signature when auto_release is set (R472, R475). -/
def State.shadowRecord (s : State) (pf cls det unit code : Nat) (confirmed captured inj : Bool) : State :=
  let trunc := captured && s.on (.TEN_SIG_CTL pf) F.TEN_SIG_CTL.truncated
  let s := s.cper ⟨cls, det, inj, confirmed, trunc, false, unit, (s.facet pf).core.stepNo, s.lfField pf,
    s.rd (.FAC_BIND pf) F.FAC_BIND.service, code, if captured then s.sigPayload pf else []⟩
  if captured ∧ s.on .FLT_EXPORT F.FLT_EXPORT.auto_release then s.releaseSig pf else s

/-- SHADOW_REPLAY_DONE (R257-R260): the replay agrees with the shadow, with the tile or with neither; `err` are faults
of the replay's cells. -/
def execShadowReplayDone (pf : Nat) (err : List (Nat × Nat)) (s : State) : Res :=
  let f := s.facet pf
  match f.core.exec with
  | none => .next s
  | some x =>
    match x.held, x.col with
    | some shadow, some j =>
      let o := x.op
      let tile := (List.range o.m).map (fun i => f.core.cell o.td i j)
      let b := x.b.row j
      let replay := (List.range o.m).map (fun i =>
        let r := tmmCell o x.chunk (x.start.getD i (0, true)) (x.a.row i) b
        (r.1 ^^^ errMask err i, r.2.1))
      let same := fun (xs : List (Nat × Bool)) => (xs.zip replay).all (fun p => p.1.2 || p.2.2 || decide (p.1.1 = p.2.1))
      let r := Reg.TEN_SHADOW pf
      let step := f.core.stepNo
      let dry := decide (x.inj = some true)
      let inj := x.inj.isSome
      let putCol := fun (s : State) (g : Nat → Nat × Bool) => s.asyncCore pf (fun c =>
        (List.range o.m).foldl (fun c i => c.setCell o.td i j (g i)) c)
      if same shadow then
        let s := if dry then s else (s.bump r F.TEN_SHADOW.confirmations 1).wr r F.TEN_SHADOW.confirmed
          (min 2 (s.rd r F.TEN_SHADOW.confirmed + 1))
        let captured := !s.on (.TEN_SIG_CTL pf) F.TEN_SIG_CTL.full
        let s := putCol s (fun i => replay.getD i (0, true))
        let s := if captured then s.captureSig pf x j tile shadow replay else s
        let s := s.raise (facEvent pf 0x40D (s.lfField pf) [o.td, j, step, b2n captured])
        let s := s.shadowRecord pf clsRecovered 6 (unitDesc 3 pf 0 0) 0x40D true captured inj
        let s := finishTmm s pf x
        .next (if !dry && decide (s.rd r F.TEN_SHADOW.confirmed = 2) then s.fenceFacet pf 6 (s.sigPayload pf) else s)
      else if same tile then
        let s := if dry then s else (s.bump r F.TEN_SHADOW.shadow_faults 1).wr r F.TEN_SHADOW.sfaults
          (min 2 (s.rd r F.TEN_SHADOW.sfaults + 1))
        let s := s.raise (facEvent pf 0x40E (s.lfField pf) [j])
        let s := s.shadowRecord pf clsRecovered 7 (unitDesc 4 pf 0 0) 0x40E false false inj
        let s := finishTmm s pf x
        .next (if !dry && decide (s.rd r F.TEN_SHADOW.sfaults = 2) then s.fenceShadow pf 7 else s)
      else
        let s := s.bump r F.TEN_SHADOW.unresolved 1
        let s := putCol s (fun i => ((tile.getD i (0, true)).1, true))
        let s := s.raise (facEvent pf 0x40F (s.lfField pf) [o.td, j, step])
        let s := s.shadowRecord pf clsContained 6 (unitDesc 3 pf 0 0) 0x40F false false inj
        .next (finishTmm s pf x)
    | _, _ => .next s

/-- The elements a tile drain delivers (R237, R65, R66): codes in df with their poison, saturations, lost NaNs. -/
def tileElems (c : FCore) (isInt : Bool) (d : TDrain) : List ((Nat × Bool) × Conv) :=
  (List.range (d.rows * 64)).map (fun q =>
    let x := c.cell d.td (q / 64) (q % 64)
    let sf := if isInt then 4 else 10
    if sf = d.df then (x, ⟨x.1, false, false⟩)
    else
      let v := if isInt then ofInt (sext 32 x.1) else f32 x.1
      let r := convert v d.df
      ((r.code, x.2), r))

/-- TILE_DRAIN_COMPLETE (R237, R255): a tile drain on the drain path has written its data. `tileInt` follows from the
operations on the tile. -/
def execTileDrainComplete (pf idx : Nat) (s : State) : Res :=
  let c := (s.facet pf).core
  match c.moving[idx]? with
  | none => .next s
  | some d =>
    let held := d.toMem && ((c.moving.take idx).any (fun e => e.toMem && decide (e.dst < d.dst + d.bytes) && decide (d.dst < e.dst + e.bytes))
      || c.drains.any (fun e => e.toMem && decide (e.seq < d.seq) && decide (e.dst < d.dst + d.bytes) && decide (d.dst < e.dst + e.bytes)))
    if held then .next s
    else
      let isInt := decide (c.tint.getD d.td 0 = 2)
      let es := tileElems c isInt d
      let bs := packElems (fmtBits d.df) (es.map Prod.fst)
      let fill := bs ++ List.replicate (d.regs * 512 - bs.length) ((0 : Byte), false)
      let put := fun (c : FCore) =>
        let c := { c with moving := c.moving.filter (fun e => decide (e.seq ≠ d.seq)) }
        let c := if d.toMem then c.sramStore d.dst (bs.map Prod.fst) (poisonWords d.dst bs) else c.wrVBytes (d.dst * 512) fill
        if d.clr then { c.clearTile d.td with tint := setNth c.tint d.td 0 } else c
      let s := s.asyncCore pf put
      let good := es.filter (fun e => !e.1.2)
      let s := s.bump (.FMT_STAT pf) F.FMT_STAT.int_sat (good.countP (fun e => e.2.sat))
      .next (s.bump (.FMT_STAT pf) F.FMT_STAT.nan_lost (good.countP (fun e => e.2.lost)))

/-- ACC16_CTL_WRITE (R252, R261). -/
def execAcc16CtlWrite (pf value : Nat) (s : State) : Res :=
  let st := s.facState pf
  if st = 0 ∨ st = 1 ∨ st = 5 then
    .next (if value % 4 = 3 then s else s.wr (.ACC16_CTL pf) F.ACC16_CTL.chunk value)
  else .next (s.wr (.FAC_STAT pf) F.FAC_STAT.bind_reject 1)

/-- TEN_SHADOW_WRITE (R260, R263): the counters take the values written, enable unless the column is fenced. -/
def execTenShadowWrite (pf value : Nat) (s : State) : Res :=
  let r := Reg.TEN_SHADOW pf
  let s1 := s.wr r F.TEN_SHADOW.checks (bits value 47 32)
  let s2 := s1.wr r F.TEN_SHADOW.unresolved (bits value 31 24)
  let s3 := s2.wr r F.TEN_SHADOW.shadow_faults (bits value 23 16)
  let s4 := s3.wr r F.TEN_SHADOW.confirmations (bits value 15 8)
  .next (if (s.facet pf).shadowFenced then s4 else s4.wr r F.TEN_SHADOW.enable (bits value 63 63))

/-- SIG_WINDOW_RELEASE (R258, R264): a write of 1 to TEN_SIG_CTL.full. -/
def execSigWindowRelease (pf : Nat) (s : State) : Res := .next (s.releaseSig pf)

end Sys2Proof.Machine
end

