-- ==== Sys2Proof/Machine/Movement.lean ====
section
/-! DEFINITION. The movement slot (R238-R242), its completions, the SRAM windows (R176), and the blocks the prism decodes
(R324-R328). -/

namespace Sys2Proof.Machine

/-- What the ECC of data SRAM launches takes effect at once (R175). -/
def applyEcc (s : State) (eff : List Eff) : State :=
  eff.foldl (fun s e => match e with
    | .bump r f n => s.bump r f n
    | .raise x => s.raiseRec x
    | _ => s) s

/-- Words of a facet's data SRAM met by a reader outside the core (R175). -/
def State.eccPort (s : State) (pf a n : Nat) : State :=
  let eff := (FCore.eccRange pf { (s.facet pf).core with eff := [] } a n).eff
  applyEcc (s.asyncCore pf (fun c => { FCore.eccRange pf c a n with eff := c.eff })) eff

/-- Data SRAM read through a port, with the poison of its words (R173, R175). -/
def State.portRead (s : State) (pf a n : Nat) : State × List (Byte × Bool) :=
  let s := s.eccPort pf a n
  (s, (s.facet pf).core.sramBytes a n)

/-- Data SRAM written through a port in whole words (R173, R175). -/
def State.portWrite (s : State) (pf a : Nat) (bs : List (Byte × Bool)) : State :=
  s.asyncCore pf (fun c => c.sramStore a (bs.map Prod.fst) (poisonWords a bs))

/-- Bytes the spec leaves unspecified (R188), poisoned. -/
def State.freeBytes (s : State) (point n : Nat) : State × List (Byte × Bool) :=
  ({ s with free := s.free + n }, (List.range n).map (fun i => (BitVec.ofNat 8 (Config.freeValue point (s.free + i)), true)))

/-- Sectors of bytes (R454): 64 bytes each, poisoned when a byte is. -/
def sectorsOf (bs : List (Byte × Bool)) : List (List Byte × Bool) :=
  (List.range ((bs.length + 63) / 64)).map (fun i =>
    let b := (bs.drop (i * 64)).take 64
    (b.map Prod.fst, b.any Prod.snd))

/-- The bytes of sectors. -/
def bytesOf (l : List (List Byte × Bool)) : List (Byte × Bool) := l.flatMap (fun p => p.1.map (fun b => (b, p.2)))

/-- Start of the SRAM windows (R176). -/
def windowBase : Nat := 0x400000000000

/-- The facet an SRAM window range reaches (R176, R239), or the LF and the first local address outside. -/
def State.windowOf (s : State) (a n : Nat) : Except (Nat × Nat) (Nat × Nat) :=
  if a < windowBase then .error (0xFFFF, a % 0x800000)
  else
    let lf := (a - windowBase) / 0x800000
    let loc := (a - windowBase) % 0x800000
    match (if lf < 1024 then s.pfOf lf else none) with
    | none => .error (lf, loc)
    | some pf => if loc + n ≤ 0x600000 then .ok (pf, loc) else .error (lf, max loc 0x600000)

/-- FAC_WINDOW (R176, R206): source 0xF, access 0 read, 1 write. -/
def State.windowEvent (s : State) (lf loc access : Nat) : State := s.raise ⟨0xF, 0x10C, 0xFFFF, lf, [loc, access]⟩

/-- A window write that reaches a facet voids the mirror run between its snapshot and its SCOMMIT (R461). -/
def State.windowTouch (s : State) (pf : Nat) : State :=
  match (s.region (regionOf pf)).mr with
  | some m => if m.slot = pf % 17 ∧ m.phase ≤ 1 then s.voidRun (regionOf pf) else s
  | none => s

/-- A byte range of HBM read by sectors (R240). -/
def State.rangeRead (s : State) (kind num a n : Nat) : State × List (Byte × Bool) :=
  let a0 := a / 64 * 64
  let r := s.sectorsRead kind num a0 ((a + n + 63) / 64 - a / 64)
  (r.1, ((bytesOf r.2).drop (a - a0)).take n)

/-- The movement queue has room (R186, R580): sixteen wait behind the operation in progress. -/
def FCore.mqRoom (c : FCore) : Bool := decide (c.mq.length < 17)

/-- An operation put into the movement queue, or the wait for room. -/
def mqPush (c w : FCore) (o : MOp) : SlotRes :=
  if c.mqRoom then .ok { w with seq := w.seq + 1, mq := w.mq ++ [o] } else .stall 2

/-- MCPY (R239). -/
def execMcpy (h : Hdr) (tag dir : Nat) (posted : Bool) (rl rr rn : Nat) (s : State) : Res :=
  .next (coreSlot h [6] [] (posted && (decide (dir = 0) || decide (dir = 3))) (fun c w =>
    let l := c.rdS rl
    let r := c.rdS rr
    let n := c.rdS rn
    let nv := n.v.toNat
    waitFor [c.pendS rl, c.pendS rr, c.pendS rn]
      (raiseIf [(!n.p && (decide (nv % 64 ≠ 0) || decide (4194304 < nv)), excAddress),
          (!l.p && decide (l.v.toNat % 64 ≠ 0), excAddress), (!r.p && decide (r.v.toNat % 64 ≠ 0), excAddress),
          (!l.p && !n.p && decide (0x600000 < l.v.toNat + nv), excAddress), (l.p || r.p || n.p, excPoisonCtl)]
        (if nv = 0 then .ok w
        else mqPush c w ⟨tag, posted, c.step.map Desc.step, .copy dir l.v.toNat r.v.toNat nv, 0, c.seq⟩))) s)

/-- A page-walk descriptor (R240). -/
structure Walk where
  list : Nat
  pool : Nat
  pos0 : Nat
  count : Nat
  units : Nat
  ptLog : Nat
  stride : Nat
  off : Nat
  len : Nat
  deriving DecidableEq, Repr

/-- The fields of a page-walk descriptor (R240). -/
def walkOf (bs : List Byte) : Walk :=
  ⟨field bs 0 8, field bs 8 8, field bs 16 4, field bs 20 4, field bs 24 4, field bs 28 1, field bs 32 4, field bs 36 4, field bs 40 4⟩

/-- A descriptor's conditions, a poisoned field left out (R190, R240). -/
def walkBad (bs : List Byte) (p : Nat → Nat → Bool) : Bool :=
  let w := walkOf bs
  (!p 20 4 && decide (65536 < w.count)) || (!p 28 1 && (decide (w.ptLog < 4) || decide (8 < w.ptLog)))
    || (!p 32 4 && decide (w.stride % 64 ≠ 0)) || (!p 36 4 && decide (w.off % 64 ≠ 0)) || (!p 40 4 && decide (w.len % 64 ≠ 0))
    || (!p 29 3 && decide (field bs 29 3 ≠ 0)) || (!p 44 468 && ((bs.drop 44).any (fun b => decide (b ≠ 0))))

/-- MPAGE (R240). -/
def execMpage (h : Hdr) (tag dir : Nat) (posted : Bool) (rl vdesc : Nat) (s : State) : Res :=
  .next (coreSlot h [6] [] (posted && decide (dir = 0)) (fun c w =>
    let l := c.rdS rl
    let vb := c.vBytes vdesc 512
    let bs := vb.map Prod.fst
    let p := fun i n => ((vb.drop i).take n).any Prod.snd
    let k := walkOf bs
    let n := k.count * k.len
    waitFor [c.pendS rl, c.pendV vdesc]
      (raiseIf [(walkBad bs p, excAddress), (!l.p && decide (l.v.toNat % 64 ≠ 0), excAddress),
          (!l.p && !p 20 4 && !p 40 4 && decide (0x600000 < l.v.toNat + n), excAddress), (l.p || p 0 44, excPoisonCtl)]
        (if n = 0 then .ok w
        else mqPush c w ⟨tag, posted, c.step.map Desc.step, .page dir l.v.toNat bs, 0, c.seq⟩))) s)

/-- MDEC (R241): the headers follow the slots, as in every coded region (R314, R328). -/
def execMdec (h : Hdr) (tag rs rd rn : Nat) (s : State) : Res :=
  .next (coreSlot h [6] [] false (fun c w =>
    let a := c.rdS rs
    let d := c.rdS rd
    let n := c.rdS rn
    let nv := n.v.toNat
    waitFor [c.pendS rs, c.pendS rd, c.pendS rn]
      (raiseIf [(!a.p && decide (a.v.toNat % 4096 ≠ 0), excAddress), (!d.p && decide (d.v.toNat % 4096 ≠ 0), excAddress),
          (!a.p && !n.p && decide (0x600000 < a.v.toNat + nv * 4128), excAddress),
          (!d.p && !n.p && decide (0x600000 < d.v.toNat + nv * 4096), excAddress), (a.p || d.p || n.p, excPoisonCtl)]
        (if nv = 0 then .ok w
        else mqPush c w ⟨tag, false, c.step.map Desc.step, .dec a.v.toNat d.v.toNat nv, 0, c.seq⟩))) s)

/-- MWAIT (R242, R188). -/
def execMwait (h : Hdr) (mask : Nat) (s : State) : Res :=
  .next (coreSlot h [6] [] false (fun c w =>
    waitFor [if c.mq.any (fun o => bitAt mask o.tag) then some 2 else none]
      (raiseIf [(c.mfault.any (fun t => bitAt mask t), excMovement)] (.ok w))) s)

/-- Local bytes an operation reads. -/
def MOp.source (o : MOp) : Option (Nat × Nat) :=
  match o.kind with
  | .copy dir rl _ rn => if dir = 1 ∨ dir = 2 then some (rl, rn) else none
  | .page dir rl d => if dir = 1 then some (rl, (walkOf d).count * (walkOf d).len) else none
  | .dec rs _ rn => some (rs, rn * 4128)

/-- An older drain into data SRAM still has to write what the operation reads (R187). -/
def FCore.moveHeld (c : FCore) (o : MOp) : Bool :=
  match o.source with
  | none => false
  | some (a, n) =>
    c.drains.any (fun d => d.toMem && decide (d.seq < o.seq) && decide (d.dst < a + n) && decide (a < d.dst + d.bytes))
      || c.tdrains.any (fun d => d.toMem && decide (d.seq < o.seq) && decide (d.dst < a + n) && decide (a < d.dst + d.bytes))

/-- The step of an operation reported failed (R299). -/
def State.failStep (s : State) (pf : Nat) (step : Option Nat) : State :=
  match step with
  | some n => { s with noc := { s.noc with reports := s.noc.reports ++ [(s.lfOf pf, n, false)] } }
  | none => s

/-- HBM written by a movement operation; a page that may not be written fails the step (R299). -/
def State.moveWrite (s : State) (pf : Nat) (step : Option Nat) (a : Nat) (bs : List (Byte × Bool)) : State :=
  let r := s.sectorsWrite a (sectorsOf bs)
  if r.2.isSome then r.1.failStep pf step else r.1

/-- A failed operation (R188): its tag faults, a local destination holds unspecified poisoned data. -/
def State.moveFail (s : State) (pf tag : Nat) (dst : Option (Nat × Nat)) : State :=
  let s := s.asyncCore pf (fun c => { c with mfault := c.mfault ++ [tag] })
  match dst with
  | none => s
  | some (a, n) =>
    let r := s.freeBytes 188 n
    r.1.portWrite pf a r.2

/-- The transfer of an MCPY (R239). -/
def State.runCopy (s : State) (pf : Nat) (o : MOp) (dir rl rr rn : Nat) : State :=
  if dir = 0 then
    if 2 ^ 40 < rr + rn then s.moveFail pf o.tag (some (rl, rn))
    else
      let r := s.sectorsRead 3 pf rr (rn / 64)
      r.1.portWrite pf rl (bytesOf r.2)
  else if dir = 1 then
    if 2 ^ 40 < rr + rn then s.moveFail pf o.tag none
    else
      let r := s.portRead pf rl rn
      r.1.moveWrite pf o.step rr r.2
  else if dir = 2 then
    match s.windowOf rr rn with
    | .error e => (s.moveFail pf o.tag none).windowEvent e.1 e.2 1
    | .ok t =>
      let r := s.portRead pf rl rn
      (r.1.portWrite t.1 t.2 r.2).windowTouch t.1
  else match s.windowOf rr rn with
    | .error e => (s.moveFail pf o.tag (some (rl, rn))).windowEvent e.1 e.2 0
    | .ok t =>
      let r := s.portRead t.1 t.2 rn
      r.1.portWrite pf rl r.2

/-- The HBM addresses an MPAGE reaches in turn (R240); none where the walk fails. -/
def State.walk (s : State) (pf : Nat) (k : Walk) : Nat → Nat → State × Option (List Nat)
  | 0, _ => (s, some [])
  | n + 1, q =>
    let ea := k.list + 4 * (q / 2 ^ k.ptLog)
    if 2 ^ 40 < ea + 4 then (s, none)
    else
      let r := s.rangeRead 3 pf ea 4
      let pg := ofBytes (r.2.map Prod.fst)
      let a := k.pool + pg * k.units * 65536 + q % 2 ^ k.ptLog * k.stride + k.off
      if pg = 0xFFFFFFFF ∨ r.2.any Prod.snd ∨ 2 ^ 40 < a + k.len then (r.1, none)
      else
        let t := State.walk r.1 pf k n (q + 1)
        (t.1, t.2.map (fun l => a :: l))

/-- Positions gathered into the facet. -/
def State.gather (s : State) (pf rl len : Nat) : List Nat → State
  | [] => s
  | a :: t =>
    let r := s.rangeRead 3 pf a len
    State.gather (r.1.portWrite pf rl r.2) pf (rl + len) len t

/-- Positions scattered to HBM. -/
def State.scatter (s : State) (pf : Nat) (step : Option Nat) (rl len : Nat) : List Nat → State
  | [] => s
  | a :: t =>
    let r := s.portRead pf rl len
    State.scatter (r.1.moveWrite pf step a r.2) pf step (rl + len) len t

/-- The transfer of an MPAGE (R240). -/
def State.runPage (s : State) (pf : Nat) (o : MOp) (dir rl : Nat) (desc : List Byte) : State :=
  let k := walkOf desc
  let r := s.walk pf k k.count k.pos0
  match r.2 with
  | none => r.1.moveFail pf o.tag (if dir = 0 then some (rl, k.count * k.len) else none)
  | some l => if dir = 0 then r.1.gather pf rl k.len l else r.1.scatter pf o.step rl k.len l

/-- MOVEMENT_OP_COMPLETE (R188, R239-R242): the operation's transfer, its completion, and the report of a posted write
(R24). -/
def execMovementOpComplete (pf idx : Nat) (s : State) : Res :=
  let c := (s.facet pf).core
  match c.mq[idx]? with
  | none => .next s
  | some o =>
    let ready := match o.kind with
      | .dec _ _ rn => decide (rn ≤ o.blk)
      | _ => !c.moveHeld o
    if !ready then .next s
    else
      let s := s.asyncCore pf (fun c => { c with mq := c.mq.filter (fun x => decide (x.seq ≠ o.seq)) })
      let s := match o.kind with
        | .copy dir rl rr rn => s.runCopy pf o dir rl rr rn
        | .page dir rl d => s.runPage pf o dir rl d
        | .dec _ _ _ => s
      .next (match o.posted, o.step with
        | true, some n => { s with serve := { s.serve with kvReports := s.serve.kvReports ++ [(s.rd (.FAC_BIND pf) F.FAC_BIND.service, n)] } }
        | _, _ => s)

/-- PRISM_BLOCK_DECODE (R324-R328): the next block of the operand being staged (reader 0, the tensor unit) or of the first
MDEC in the movement queue (reader 1). -/
def execPrismBlockDecode (pf reader : Nat) (s : State) : Res :=
  let c := (s.facet pf).core
  let inj := s.injArmed 0x0D (unitDesc 3 pf 0 0)
  if reader = 0 then
    match c.exec with
    | none => .next s
    | some x => match x.todo with
      | [] => .next s
      | b :: rest =>
        let raw := (parseHdr (c.sram.read b.hdr 32)).raw
        let s := if inj then s.injDone else s
        let s := (s.eccPort pf b.slot 4096).eccPort pf b.hdr 32
        let c := (s.facet pf).core
        let o := s.facBlock pf c b.slot b.hdr inj
        let s := s.prismCount pf raw o b.slot 0
        let beyond := if raw then 0 else o.time - 128
        let f := s.facet pf
        let t := addStall f.prismFc beyond
        let s := (s.setFacet pf { f with prismFc := t.2 }).bump (.PRISM_STAT pf) F.PRISM_STAT.stall t.1
        let put := fun (y : Staged) => { y with img := imgWrite y.img (b.idx * 4096) (o.bytes.map (fun v => (v, decide (o.cls ≠ 0)))) }
        let last := !rest.any (fun q => q.isB == b.isB)
        let y := if b.isB then put x.b else put x.a
        let s := if last then s.bump (.FMT_STAT pf) F.FMT_STAT.t5_invalid y.t5Bad else s
        .next (s.asyncCore pf (fun c => { c with exec := some { x with
          todo := rest, stall := x.stall + beyond
          a := if b.isB then x.a else y
          b := if b.isB then y else x.b } }))
  else
    match c.mq.find? (fun o => match o.kind with | .dec _ _ rn => decide (o.blk < rn) | _ => false) with
    | none => .next s
    | some o => match o.kind with
      | .dec rs rd rn =>
        if c.moveHeld o then .next s
        else
          let slot := rs + o.blk * 4096
          let hdr := rs + rn * 4096 + o.blk * 32
          let s := if inj then s.injDone else s
          let s := (s.eccPort pf slot 4096).eccPort pf hdr 32
          let c := (s.facet pf).core
          let raw := (parseHdr (c.sram.read hdr 32)).raw
          let x := s.facBlock pf c slot hdr inj
          let s := s.prismCount pf raw x slot 1
          let f := s.facet pf
          let t := addStall f.prismFc (if raw then 0 else x.time - 128)
          let s := (s.setFacet pf { f with prismFc := t.2 }).bump (.PRISM_STAT pf) F.PRISM_STAT.stall t.1
          let s := s.portWrite pf (rd + o.blk * 4096) (x.bytes.map (fun v => (v, decide (x.cls ≠ 0))))
          .next (s.asyncCore pf (fun c => { c with mq := c.mq.map (fun q => if q.seq = o.seq then { q with blk := q.blk + 1 } else q) }))
      | _ => .next s

/-- WINDOW_READ (R176): a core's read through an SRAM window; refused, it answers zero with poison. -/
def execWindowRead (addr n : Nat) (s : State) : Res :=
  if addr < windowBase ∨ windowBase + 768 * 0x800000 ≤ addr then .fault (.unmapped addr)
  else match s.windowOf addr n with
    | .error e => .next ((s.windowEvent e.1 e.2 0).emit (.read 0 true))
    | .ok t =>
      let r := s.portRead t.1 t.2 n
      .next (r.1.emit (.read (ofBytes (r.2.map Prod.fst)) (r.2.any Prod.snd)))

/-- WINDOW_WRITE (R176, R454): a core's write through an SRAM window; a word written in part is merged (R175). -/
def execWindowWrite (addr : Nat) (data : List Byte) (poison : Bool) (s : State) : Res :=
  if addr < windowBase ∨ windowBase + 768 * 0x800000 ≤ addr then .fault (.unmapped addr)
  else match s.windowOf addr data.length with
    | .error e => .next (s.windowEvent e.1 e.2 1)
    | .ok t =>
      let a0 := t.2 / 8 * 8
      let a1 := (t.2 + data.length + 7) / 8 * 8
      -- a word written in part is read first
      let s := if t.2 = a0 then s else s.eccPort t.1 a0 8
      let s := if t.2 + data.length = a1 then s else s.eccPort t.1 (a1 - 8) 8
      let old := (s.facet t.1).core.sramBytes a0 (a1 - a0)
      let part := fun i => (decide (i < 8) && decide (a0 ≠ t.2)) || (decide (a1 - a0 - 8 ≤ i) && decide (t.2 + data.length ≠ a1))
      let new := old.mapIdx (fun i b =>
        let v := if t.2 ≤ a0 + i ∧ a0 + i < t.2 + data.length then data.getD (a0 + i - t.2) 0 else b.1
        (v, poison || (part i && b.2)))
      .next ((s.portWrite t.1 a0 new).windowTouch t.1)

end Sys2Proof.Machine
end

