-- ==== Sys2Proof/Machine/Sync.lean ====
section
/-! DEFINITION. The sync slot (R243-R246), messages, credits and barriers (R244, R246). -/

namespace Sys2Proof.Machine

/-- A system facet's value in a scalar register (R484): of this package its LF, of another package all its fields. -/
def sysFacet (v : Nat) : Nat := if bitAt v 24 then v % 2 ^ 25 else v % 1024

/-- Is the LF held by a facet bound to the service (R199, R244)?  A facet of another package is taken as placed (R484). -/
def State.placed (s : State) (service v : Nat) : Bool :=
  if bitAt v 24 then true
  else match s.pfOf (v % 1024) with
    | none => false
    | some p => s.on (.FAC_BIND p) F.FAC_BIND.bound && decide (s.rd (.FAC_BIND p) F.FAC_BIND.service = service)

/-- STEP (R193, R243, R405): the oldest descriptor taken, staged arrays of its epoch bound first. -/
def execStep (h : Hdr) (vd rd : Nat) (s : State) : Res :=
  .next (slotStep h [7] [(2, vd), (0, rd)] false (fun _ c w =>
    waitFor [c.pendV vd, c.pendS rd, if c.dq.isEmpty then some 5 else none]
      (match c.dq with
      | [] => .ok w
      | d :: t =>
        let bs := (d.bytes ++ List.replicate 512 0).take 512
        let w := (w.wrVBytes (vd * 512) (bs.map (fun b => (b, false)))).wrS rd ⟨BitVec.ofNat 64 d.step, false⟩
        .ok { w with dq := t, step := some d, vwCount := []
                     eff := w.eff ++ [.rebind d.epoch, .wr (.FAC_STAT h.pf) F.FAC_STAT.dq_depth t.length] })) s)

/-- Products, outlier additions and array drains of the facet all complete (R196). -/
def State.arraysQuiet (s : State) (pf : Nat) : Bool :=
  !s.arrs.any (fun e => decide (e.1 / 256 = pf) && (!e.2.queue.isEmpty || e.2.run.isSome))
    && (Tab.getD s.outJobs pf []).isEmpty && (s.facet pf).core.drains.isEmpty

/-- Tensor operations, sends, receives and the movement operations that `posted` does not excuse all complete. -/
def FCore.unitsQuiet (c : FCore) (posted : Bool) : Bool :=
  c.tq.isEmpty && c.exec.isNone && c.moving.isEmpty && c.sends.isEmpty && c.mq.all (fun o => posted && o.posted)

/-- The mask session's close within a bundle (R285). -/
def closeInBundle (pf : Nat) (w : FCore) : FCore :=
  if w.session.isOpen then
    { w with session := ⟨false, 0, 0, 0⟩
             eff := w.eff ++ [.bump (.ATT_STAT pf) F.ATT_STAT.sessions 1]
               ++ (if w.session.runs = 0 then [] else
                 [.bump (.ATT_STAT pf) F.ATT_STAT.empty_rows ((List.range w.session.maxM).countP (fun i => !bitAt w.session.rows i))]) }
  else w

/-- SCOMMIT (R196, R188, R244, R285): waits for every earlier operation, then reports the step. -/
def execScommit (h : Hdr) (s : State) : Res :=
  .next (slotStep h [7] [] false (fun s c w =>
    waitFor [if s.arraysQuiet h.pf && c.unitsQuiet true && c.recvs.isEmpty then none else some 3]
      (raiseIf [(!c.mfault.isEmpty, excMovement), (!c.recvBad.isEmpty, excSync)]
        (let w := closeInBundle h.pf w
         match c.step with
         | none => .ok w
         | some d => .ok { w with step := none, eff := w.eff ++ [.bump (.FAC_STAT h.pf) F.FAC_STAT.steps 1, .report (s.lfOf h.pf) d.step] }))) s)

/-- The send queue has room (R186, R580): four wait behind the transfer in progress. -/
def FCore.sendRoom (c : FCore) : Bool := decide (c.sends.countP (fun x => !x.left) < 5)

/-- The words of a byte string that carry poison. -/
def poisonIdx (bs : List (Byte × Bool)) : List Nat :=
  (List.range (bs.length / 8)).filter (fun i => ((bs.drop (8 * i)).take 8).any Prod.snd)

/-- SEND (R244, R484): its data is read in R, after drains into the buffer (R187). -/
def execSend (h : Hdr) (rl ra rn chan : Nat) (s : State) : Res :=
  .next (slotStep h [7] [] false (fun s c w =>
    let l := c.rdS rl
    let a := c.rdS ra
    let n := c.rdS rn
    let av := a.v.toNat
    let nv := n.v.toNat
    waitFor [c.pendS rl, c.pendS ra, c.pendS rn, if c.sendRoom then none else some 3,
        if a.p || n.p || decide (65536 < nv) then none else c.pendMem av nv]
      (raiseIf [(!a.p && decide (av % 64 ≠ 0), excAddress), (!a.p && !n.p && decide (0x600000 < av + nv), excAddress),
          (l.p || a.p || n.p, excPoisonCtl), (!n.p && (decide (nv < 64) || decide (65536 < nv) || decide (nv % 64 ≠ 0)), excSync),
          (!l.p && !s.placed (s.rd (.FAC_BIND h.pf) F.FAC_BIND.service) l.v.toNat, excSync)]
        (let w := w.eccRange h.pf av nv
         let bs := w.sramBytes av nv
         let dst := sysFacet l.v.toNat
         .ok { w with sends := w.sends ++ [⟨dst, chan, false⟩]
                      eff := w.eff ++ [.send ⟨s.lfOf h.pf, dst, chan, c.step.map Desc.step, bs.map Prod.fst, poisonIdx bs⟩] }))) s)

/-- A message meets its RECV (R244): written to the buffer's front, or discarded when it is too long. -/
def FCore.deliver (c : FCore) (r : RecvOp) (m : SyncMsg) : FCore :=
  if r.len < m.data.length then { c with recvBad := if c.recvBad.contains r.pd then c.recvBad else c.recvBad ++ [r.pd] }
  else (c.sramStore r.addr m.data (m.poison.map (fun w => r.addr / 8 + w))).wrP r.pd ⟨true, !m.poison.isEmpty⟩

/-- RECV (R244): the next message from the LF on the channel; one already arrived is written at once. -/
def execRecv (h : Hdr) (pd ra rn rs chan : Nat) (s : State) : Res :=
  .next (slotStep h [7] [(1, pd)] false (fun s c w =>
    let a := c.rdS ra
    let n := c.rdS rn
    let x := c.rdS rs
    let av := a.v.toNat
    let nv := n.v.toNat
    let src := sysFacet x.v.toNat
    let r : RecvOp := ⟨pd, av, nv, src, chan⟩
    waitFor [c.pendS ra, c.pendS rn, c.pendS rs, c.pendP pd, if c.recvs.length < 4 then none else some 3]
      (raiseIf [(!a.p && decide (av % 64 ≠ 0), excAddress), (!a.p && !n.p && decide (0x600000 < av + nv), excAddress),
          (a.p || n.p || x.p, excPoisonCtl),
          (!x.p && !s.placed (s.rd (.FAC_BIND h.pf) F.FAC_BIND.service) x.v.toNat, excSync)]
        (let hit := fun (m : SyncMsg) => decide (m.src = src) && decide (m.chan = chan)
         if c.recvs.any (fun q => decide (q.src = src) && decide (q.chan = chan)) then .ok { w with recvs := w.recvs ++ [r] }
         else match w.rxq.find? hit with
           | none => .ok { w with recvs := w.recvs ++ [r] }
           | some m => .ok ({ w with rxq := w.rxq.eraseP hit }.deliver r m)))) s)

/-- SOUT (R245): logits toward the sampler of the hub that owns the entry. -/
def execSout (h : Hdr) (re ra rn ro : Nat) (s : State) : Res :=
  .next (slotStep h [7] [] false (fun s c w =>
    let e := c.rdS re
    let a := c.rdS ra
    let n := c.rdS rn
    let o := c.rdS ro
    let av := a.v.toNat
    let nv := n.v.toNat
    waitFor [c.pendS re, c.pendS ra, c.pendS rn, c.pendS ro, if c.sendRoom then none else some 3,
        if a.p || n.p || decide (0x600000 < nv) then none else c.pendMem av nv]
      (raiseIf [(!a.p && decide (av % 64 ≠ 0), excAddress), (!a.p && !n.p && decide (0x600000 < av + nv), excAddress),
          (e.p || a.p || n.p || o.p, excPoisonCtl), (!n.p && (decide (nv = 0) || decide (nv % 64 ≠ 0)), excSync)]
        (let w := w.eccRange h.pf av nv
         let bs := w.sramBytes av nv
         let vals := (List.range (nv / 4)).map (fun i =>
           let b := (bs.drop (4 * i)).take 4
           (ofBytes (b.map Prod.fst), b.any Prod.snd))
         .ok { w with sends := w.sends ++ [⟨2 ^ 32 + e.v.toNat, 0, false⟩]
                      eff := w.eff ++ [.logits ⟨e.v.toNat, o.v.toNat, c.step.map Desc.step,
                        s.rd (.FAC_BIND h.pf) F.FAC_BIND.service, h.pf, vals⟩] }))) s)

/-- A facet that presents a BAR has issued it (R246). -/
def State.barIssue (s : State) (h : Hdr) (id rn : Nat) : State :=
  let f := s.facet h.pf
  let c := f.core
  let r := c.rdS rn
  let p := c.rdP h.pred
  if s.issuing h.pf && f.bar.isNone && decide (h.slot = 7) && decide (c.pc < c.nBundles) && (c.pendP h.pred).isNone && !p.p && (p.v != h.pneg)
      && (c.pendS rn).isNone && !r.p && decide (1 < r.v.toNat) then
    s.setFacet h.pf { f with bar := some (id, r.v.toNat, 0) }
  else s

/-- BAR (R246): waits in R until its barrier is released; different rn for one id raise SYNC at release. -/
def execBar (h : Hdr) (id rn : Nat) (s : State) : Res :=
  .next (slotStep h [7] [] false (fun s c w =>
    let r := c.rdS rn
    let st : Nat := ((s.facet h.pf).bar.map (fun b => b.2.2)).getD 0
    waitFor [c.pendS rn, if r.p || decide (r.v.toNat ≤ 1) || decide (st ≠ 0) then none else some 3]
      (raiseIf [(r.p, excPoisonCtl), (!r.p && decide (1 < r.v.toNat) && decide (st = 2), excSync)]
        (.ok { w with eff := w.eff ++ [.barDone] }))) (s.barIssue h id rn))

/-- The facets of a service waiting in a barrier of a step (R246), with the rn each named. -/
def State.barWaiters (s : State) (service id step : Nat) : List (Nat × Nat) :=
  s.facets.filterMap (fun e => match e.2.bar with
    | some (i, rn, 0) =>
      if i = id ∧ s.rd (.FAC_BIND e.1) F.FAC_BIND.service = service ∧ s.on (.FAC_BIND e.1) F.FAC_BIND.bound
          ∧ e.2.core.stepNo = step then some (e.1, rn) else none
    | _ => none)

/-- BARRIER_RELEASE (R246). -/
def execBarrierRelease (service id step : Nat) (s : State) : Res :=
  let l := s.barWaiters service id step
  if l.any (fun x => decide (x.2 ≤ l.length)) then
    let st := if l.all (fun x => decide (x.2 = (l.headD (0, 0)).2)) then 1 else 2
    .next (l.foldl (fun s x => s.setFacet x.1 { s.facet x.1 with bar := (s.facet x.1).bar.map (fun b => (b.1, b.2.1, st)) }) s)
  else .next s

/-- Is a message discarded on arrival (R581)? -/
def FCore.dropsMsg (c : FCore) (step : Option Nat) : Bool :=
  match step with
  | none => false
  | some n => (match c.dropStep with | some d => decide (n ≤ d) | none => false) || c.dropList.contains n

/-- MESSAGE_ARRIVE (R244, R581): the next message from an LF on a channel reaches the facet. -/
def execMessageArrive (pf src chan : Nat) (s : State) : Res :=
  let mine := fun (m : SyncMsg) => decide (m.src = src) && decide (m.chan = chan) && !bitAt m.dst 24 && decide (s.pfOf m.dst = some pf)
  match s.noc.msgs.find? mine with
  | none => .next s
  | some m =>
    let s := { s with noc := { s.noc with msgs := s.noc.msgs.eraseP mine } }
    let s := match s.pfOf src with
      | some p => s.asyncCore p (fun c => c.sendLeft m.dst chan)
      | none => s
    let take := fun (r : RecvOp) => decide (r.src = src) && decide (r.chan = chan)
    .next (s.asyncCore pf (fun c =>
      if c.dropsMsg m.step then c
      else match c.recvs.find? take with
        | some r => { c with recvs := c.recvs.eraseP take }.deliver r m
        | none => { c with rxq := c.rxq ++ [m] }))

/-- SEND_CREDIT_RETURN (R244): a SEND whose data has left completes. -/
def execSendCreditReturn (pf idx : Nat) (s : State) : Res :=
  match (s.facet pf).core.sends[idx]? with
  | some ⟨_, _, true⟩ => .next (s.asyncCore pf (fun c => { c with sends := c.sends.eraseIdx idx }))
  | _ => .next s

end Sys2Proof.Machine
end

