-- ==== Sys2Proof/Machine/FacetCtl.lean ====
section
/-! DEFINITION. Program load (R197, R198), control of a facet (R199-R203, R411), exceptions and how they settle (R192,
R213, R581). -/

namespace Sys2Proof.Machine

/-- FAC_LOAD_GO (R198): accepted in RESET or IDLE; elsewhere error code 1 without loading. -/
def execFacLoadGo (pf : Nat) (s : State) : Res :=
  let st := s.facState pf
  if st = 0 ∨ st = 1 then
    .next ((s.setFacState pf 2).wr (.FAC_LOAD_CTL pf) F.FAC_LOAD_CTL.busy 1)
  else .next ((s.wr (.FAC_LOAD_CTL pf) F.FAC_LOAD_CTL.error 1).raise (facEvent pf 0x40C (s.lfField pf) [1]))

/-- The header of a program image (R197). -/
structure Image where
  prog : Nat
  bundles : Nat
  entry : Nat
  prismLen : Nat
  dataLen : Nat
  dataDst : Nat
  crc : Nat
  deriving DecidableEq, Repr

/-- The header's fields (R197). -/
def imageOf (b : List Byte) : Image :=
  ⟨field b 8 2, field b 10 2, field b 12 2, field b 16 4, field b 20 4, field b 24 4, field b 28 4⟩

/-- The first error of a header (R198), 0 for none. -/
def imageError (v : Variant) (b : List Byte) : Nat :=
  let i := imageOf b
  let bit := match v with | .zlp440 => 0 | .zlp240 => 1
  if field b 0 4 ≠ 0x5A465031 ∨ field b 4 2 ≠ 1 ∨ 4 ≤ field b 6 1 ∨ field b 7 1 ≠ 0 ∨ field b 14 2 ≠ 0 ∨ field b 32 32 ≠ 0 then 2
  else if !bitAt (field b 6 1) bit then 3
  else if i.bundles = 0 ∨ 8192 < i.bundles ∨ i.bundles ≤ i.entry ∨ 65536 < i.prismLen ∨ 0x600000 < i.dataDst + i.dataLen then 4
  else 0

/-- Bytes of an image copied to its places (R198): bundles, tables, initial data, as far as they were read. -/
def FCore.loadImage (c : FCore) (i : Image) (body : List Byte) : FCore :=
  let nb := min i.bundles (body.length / 64)
  let imem := (List.range nb).foldl (fun m k => Tab.put m k 0 (BitVec.ofNat 512 (field body (64 * k) 64))) c.imem
  let c := { c with imem := imem, imemUe := c.imemUe.filter (fun k => decide (nb ≤ k)), nBundles := i.bundles, prism := c.prism.write 0 ((body.drop (64 * i.bundles)).take i.prismLen)
                    retA := none, retB := none }
  let d := (body.drop (64 * i.bundles + i.prismLen)).take i.dataLen
  if d.isEmpty then c else c.sramStore i.dataDst d []

/-- All 256 code tables validated (R320, R321). -/
def State.validateTables (s : State) (pf : Nat) : State :=
  (List.range 4).foldl (fun s k =>
    s.wr (.PRISM_TBL_VALID pf k) F.PRISM_TBL_VALID.valid
      ((List.range 64).foldl (fun x t =>
        if tableValid (tableLens ((s.facet pf).core.prism.read ((k * 64 + t) * 128) 128)) then x + 2 ^ t else x) 0)) s

/-- The end of a load with an error code, 0 for success (R198). -/
def State.loadEnd (s : State) (pf : Nat) (code : Nat) (i : Image) : State :=
  let s := (s.wr (.FAC_LOAD_CTL pf) F.FAC_LOAD_CTL.busy 0).wr (.FAC_LOAD_CTL pf) F.FAC_LOAD_CTL.error code
  let s := (s.setFacState pf 1).wr (.FAC_CTL pf) F.FAC_CTL.stop 0
  let s := s.wr (.FAC_BIND pf) F.FAC_BIND.prog_id (if code = 0 then i.prog else 0)
  if code = 0 then (s.wr (.FAC_CTL pf) F.FAC_CTL.entry i.entry).raise (facEvent pf 0x40B (s.lfField pf) [i.prog])
  else s.raise (facEvent pf 0x40C (s.lfField pf) [code])

/-- FAC_LOAD_DONE (R198, R321): header checked, image copied, tables validated, CRC checked. -/
def execFacLoadDone (pf : Nat) (s : State) : Res :=
  if s.facState pf ≠ 2 then .next s
  else
    let a := s.rd (.FAC_LOAD_SRC pf) F.FAC_LOAD_SRC.addr * 64
    let h := s.rangeRead 3 pf a 64
    let s := h.1
    let hb := h.2.map Prod.fst
    let i := imageOf hb
    let e := imageError s.variant hb
    if h.2.any Prod.snd then .next ((s.validateTables pf).loadEnd pf 6 i)
    else if e ≠ 0 then .next ((s.validateTables pf).loadEnd pf e i)
    else
      let n := 64 * i.bundles + i.prismLen + i.dataLen
      let b := s.rangeRead 3 pf (a + 64) n
      let s := b.1
      -- the copy ends at the first poisoned sector
      let good := (b.2.takeWhile (fun x => !x.2)).map Prod.fst
      let s := s.asyncCore pf (fun c => c.loadImage i good)
      let s := s.validateTables pf
      let code := if good.length < n then 6 else if crc32c (hb.take 28 ++ hb.drop 32 ++ good) = i.crc then 0 else 5
      .next (s.loadEnd pf code i)

/-- Execution starts at FAC_CTL.entry in RUN (R199, R200). -/
def State.startAtEntry (s : State) (pf : Nat) : State :=
  let e := s.rd (.FAC_CTL pf) F.FAC_CTL.entry
  let s := s.asyncCore pf (fun c => { c with pc := e, loops := [] })
  (s.setFacState pf 3).wr (.FAC_STAT pf) F.FAC_STAT.pc e

/-- FAC_RUN (R199, R200): from IDLE or HALT, with a program loaded. -/
def execFacRun (pf : Nat) (s : State) : Res :=
  let st := s.facState pf
  if (st = 1 ∨ st = 5) ∧ s.rd (.FAC_BIND pf) F.FAC_BIND.prog_id ≠ 0 ∧ (s.facet pf).stop.isNone ∧ !(s.facet pf).fenced then
    .next (s.startAtEntry pf)
  else .next s

/-- FAC_STOP (R199, R200). -/
def execFacStop (pf : Nat) (s : State) : Res := .next (s.wr (.FAC_CTL pf) F.FAC_CTL.stop 1)

/-- FAC_RESET (R200): issue stops; the reset follows once every launched operation has completed. -/
def execFacReset (pf : Nat) (s : State) : Res :=
  .next ((s.setFacet pf { s.facet pf with bun := none, stop := some .reset }).wr (.FAC_CTL pf) F.FAC_CTL.reset 1)

/-- The map entries of fenced facets of a region, appended when the facet that holds the LF is bound (R450, R453). -/
def State.appendLate (s : State) (pf : Nat) : State :=
  let mine := fun (e : Nat × Nat) => decide (regionOf (bits e.1 55 40) = regionOf pf)
  let l := s.faults.late.filter mine
  let s := { s with faults := { s.faults with late := s.faults.late.filter (fun e => !mine e) } }
  l.foldl (fun s e => s.appendMap e.1) s

/-- FAC_BIND_WRITE (R199, R203, R450): service and bound, in IDLE only. -/
def execFacBindWrite (pf value : Nat) (s : State) : Res :=
  if s.facState pf = 1 then
    let s := (s.wr (.FAC_BIND pf) F.FAC_BIND.service (bits value 5 0)).wr (.FAC_BIND pf) F.FAC_BIND.bound (bits value 7 7)
    .next (if bitAt value 7 ∧ s.lfOf pf ≠ 0x3FF ∧ pf % 17 = 16 then s.appendLate pf else s)
  else .next (s.wr (.FAC_STAT pf) F.FAC_STAT.bind_reject 1)

/-- FAC_EPOCH_WRITE (R411): refused when it removes the service's current or old epoch. -/
def execFacEpochWrite (pf value : Nat) (s : State) : Res :=
  let r := Reg.FAC_EPOCH pf
  let sv := s.rd (.FAC_BIND pf) F.FAC_BIND.service
  let a := bits value 63 48
  let b := bits value 47 32
  let live := fun e => decide (e ≠ 0) && (decide (e = s.rd (.EP_STAT sv) F.EP_STAT.cur) || decide (e = s.rd (.EP_STAT sv) F.EP_STAT.old))
  let gone := fun e => live e && decide (e ≠ a) && decide (e ≠ b)
  if gone (s.rd r F.FAC_EPOCH.ep_a) || gone (s.rd r F.FAC_EPOCH.ep_b) then .next (s.wr (.FAC_STAT pf) F.FAC_STAT.bind_reject 1)
  else .next ((s.wr r F.FAC_EPOCH.ep_a a).wr r F.FAC_EPOCH.ep_b b)

/-- EXCEPTION (R191, R192): the bundle in R raises a cause at a slot. -/
def execException (pf slot cause : Nat) (s : State) : Res :=
  if s.issuing pf ∧ 1 ≤ cause ∧ cause ≤ 10 then .next (takeException s pf slot cause) else .next s

/-- Movement, sync and dispatch state settled on an exception or HALT (R581). -/
def FCore.settle (c : FCore) : FCore :=
  let cut := c.step.map Desc.step
  { c with recvs := [], recvBad := [], mfault := [], loops := [], step := none
           rxq := c.rxq.filter (fun m => match cut, m.step with | some k, some n => decide (k < n) | _, _ => true)
           dropStep := match cut, c.dropStep with | some k, some d => some (max k d) | some k, none => some k | none, d => d }

/-- The step in progress, and the descriptors of the queue when `all`, reported failed (R192, R581). -/
def State.reportFailed (s : State) (pf : Nat) (all : Bool) : State :=
  let c := (s.facet pf).core
  let l := (c.step.toList ++ (if all then c.dq else [])).map Desc.step
  { s with noc := { s.noc with reports := s.noc.reports ++ l.map (fun n => (s.lfOf pf, n, false)) } }

/-- A facet reset (R169, R581): registers zero, loop levels clear, PC at entry; memories kept. -/
def FCore.afterReset (c : FCore) (entry : Nat) : FCore :=
  { FCore.reset with
    pc := entry, sram := c.sram, latentCe := c.latentCe, latentUe := c.latentUe, imem := c.imem, imemUe := c.imemUe, nBundles := c.nBundles, prism := c.prism
    seq := c.seq, dropStep := c.dropStep, dropList := c.dropList ++ c.dq.map Desc.step }

/-- A facet reset takes place (R169, R581, R285). -/
def State.resetFacet (s : State) (pf : Nat) : State :=
  let s := (s.reportFailed pf true).closeSession pf
  let f := s.facet pf
  let e := s.rd (.FAC_CTL pf) F.FAC_CTL.entry
  let base := f.fcBase + s.cycles pf
  let s := s.setFacet pf { f with core := f.core.afterReset e, bun := none, stop := none, bar := none, fcBase := base }
  let s := (s.wr (.FAC_STAT pf) F.FAC_STAT.dq_depth 0).wr (.FAC_STAT pf) F.FAC_STAT.pc e
  (s.setFacState pf 0).wr (.FAC_CTL pf) F.FAC_CTL.reset 0

/-- EXCEPTION_SETTLE (R192, R213, R200, R581): every launched operation has completed. -/
def execExceptionSettle (pf : Nat) (s : State) : Res :=
  let f := s.facet pf
  if !(s.arraysQuiet pf && f.core.unitsQuiet false) || decide (s.facState pf = 2) then .next s
  else match f.stop with
    | none => .next s
    | some .reset => .next (s.resetFacet pf)
    | some k =>
      let s := s.reportFailed pf false
      let s := s.setFacet pf { s.facet pf with core := (s.facet pf).core.settle, stop := none, bar := none, bun := none }
      let again := match k with
        | .exc c => decide (c ≠ excFetch) && s.on (.FAC_CTL pf) F.FAC_CTL.exc_restart
        | _ => false
      .next (if again then s.startAtEntry pf else s.setFacState pf 5)

end Sys2Proof.Machine
end

