-- ==== Sys2Proof/Machine/SidePath.lean ====
section
/-! DEFINITION. Bindings and converters under software (R96, R101-R107), the outlier lane (R122-R125) and the check
window (R128, R129). -/

namespace Sys2Proof.Machine

/-- ARR_MAP_WRITE (R96, R101): a write of ARR_MAP_n naming a MIRROR array waits for the product in flight; another
is refused. -/
def execArrMapWrite (pf n value : Nat) (s : State) : Res :=
  let p := value % 256
  if s.variant.logicals ≤ n then .next s
  else if s.variant.arrays ≤ p ∨ s.arrState pf p ≠ 2 then .next (s.mapReject pf (n * 8))
  else
    let x := s.larr pf n
    .next ((s.setLarr pf n { x with bind := some (p, false) }).wr (.ARR_MAP pf n) F.ARR_MAP.pending 1)

/-- The array bound to a logical one runs no product. -/
def State.betweenProducts (s : State) (pf n : Nat) : Bool := (s.parr pf (s.physOf pf n)).run.isNone

/-- BINDING_APPLY (R96, R102): between two products of the logical array a waiting binding of software takes effect (a
refresh's is REFRESH_REBIND).  One whose
array another binding has taken meanwhile is refused (log entry 33). -/
def execBindingApply (pf n : Nat) (s : State) : Res :=
  let x := s.larr pf n
  match x.bind with
  | none => .next s
  | some (p, refresh) =>
    if refresh || !s.betweenProducts pf n then .next s
    else if s.arrState pf p = 2 then .next (s.bindArray pf n p 2)
    else .next (((s.setLarr pf n { x with bind := none }).wr (.ARR_MAP pf n) F.ARR_MAP.pending 0).mapReject pf (n * 8))

/-- AP_CEILING_WRITE (R103): a write of ARR_CTL; the ceiling is read at each plane's header. -/
def execApCeilingWrite (pf value : Nat) (s : State) : Res :=
  let s := s.wr (.ARR_CTL pf) F.ARR_CTL.ap_ceiling value
  .next (if bitAt value 7 then s.wr (.ARR_CTL pf) F.ARR_CTL.map_reject 0 else s)

/-- ARR_WIN_SEL_WRITE (R105). -/
def execArrWinSelWrite (pf value : Nat) (s : State) : Res :=
  if s.variant.arrays ≤ value % 256 then .next (s.mapReject pf 0x1040)
  else .next (s.wr (.ARR_WIN_SEL pf) F.ARR_WIN_SEL.phys value)

/-- The array the converter and calibration windows show (R105). -/
def State.winArr (s : State) (pf : Nat) : Nat := s.rd (.ARR_WIN_SEL pf) F.ARR_WIN_SEL.phys

/-- A software write of CONV_MAP_n is accepted (R106). -/
def State.mapWriteOk (s : State) (pf a n c : Nat) : Bool :=
  (decide (c = n) && !s.on (.CONV_STAT pf a n) F.CONV_STAT.fence)
    || (decide (256 ≤ c) && decide (c < 264) && decide (s.rd (.CONV_STAT pf a c) F.CONV_STAT.role = 1))

/-- CONV_MAP_WRITE (R106), through the converter window. -/
def execConvMapWrite (pf n value : Nat) (s : State) : Res :=
  let a := s.winArr pf
  let c := value % 512
  if s.mapWriteOk pf a n c then
    let x := s.parr pf a
    let s := s.setParr pf a { x with pendMap := x.pendMap.filter (fun e => decide (e.1 ≠ n)) ++ [(n, c)] }
    .next (s.wr (.CONV_MAP pf a n) F.CONV_MAP.pending 1)
  else .next (s.mapReject pf (0x2000 + n * 8))

/-- The array is at a plane boundary (R84): no replay is under way, and no plane. -/
def PArr.atBoundary (x : PArr) : Bool :=
  match x.run with
  | some p => match p.settle with
    | some (.replay _ _) => false
    | _ => true
  | none => true

/-- A software map write taking effect (R106): the converter serves the position, and the mirror that served it
before is free again. -/
def State.applyMap (s : State) (pf a n c : Nat) : State :=
  let old := s.srv pf a n
  let s := s.wr (.CONV_MAP pf a n) F.CONV_MAP.pending 0
  if !s.mapWriteOk pf a n c || decide (old = c) then s
  else
    let s := s.wr (.CONV_MAP pf a n) F.CONV_MAP.srv c
    let s := if old = 0x1FF then s
      else if 256 ≤ old then s.setConv pf a old 1 0x1FF
      else s.wr (.CONV_STAT pf a old) F.CONV_STAT.serves 0x1FF
    s.setConv pf a c (if 256 ≤ c then 2 else 0) n

/-- CONV_MAP_APPLY (R106): at a plane boundary the waiting software writes take effect. -/
def execConvMapApply (pf arr : Nat) (s : State) : Res :=
  let x := s.parr pf arr
  if !x.atBoundary || x.pendMap.isEmpty then .next s
  else
    let s := s.setParr pf arr { x with pendMap := [] }
    .next ((x.pendMap.foldl (fun s e => s.applyMap pf arr e.1 e.2) s).countFree pf arr)

/-- A mirror converter can be freed for a fence: FREE, or lent (R89, R107). -/
def State.mirrorFreeable (s : State) (pf a : Nat) : Bool :=
  !(s.mirrorsIn pf a 1).isEmpty || !(s.mirrorsIn pf a 3).isEmpty

/-- A write of 1 to CONV_STAT_n.fence is accepted (R107). -/
def State.fenceOk (s : State) (pf a n : Nat) : Bool :=
  !s.on (.CONV_STAT pf a n) F.CONV_STAT.fence
    && (decide (s.rd (.CONV_STAT pf a n) F.CONV_STAT.serves = 0x1FF) || s.mirrorFreeable pf a)

/-- A converter fence waits for the next plane boundary (R107, R148). -/
def State.queueFence (s : State) (pf a n : Nat) : State :=
  let x := s.parr pf a
  if x.pendFence.contains n then s else s.setParr pf a { x with pendFence := x.pendFence ++ [n] }

/-- CONV_FENCE_WRITE (R107), through the converter window. -/
def execConvFenceWrite (pf n : Nat) (s : State) : Res :=
  let a := s.winArr pf
  if s.fenceOk pf a n then .next (s.queueFence pf a n) else .next (s.mapReject pf (0x2800 + n * 8))

/-- CONVERTER_FENCE_APPLY (R89, R107): at a plane boundary the waiting fences take effect. -/
def execConverterFenceApply (pf arr : Nat) (s : State) : Res :=
  let x := s.parr pf arr
  if !x.atBoundary || x.pendFence.isEmpty then .next s
  else
    let s := s.setParr pf arr { x with pendFence := [] }
    .next (x.pendFence.foldl (fun s c => s.fenceConv pf arr c 0) s)

/-- The trits of a row of an array by column. -/
def PArr.row (x : PArr) (r : Nat) : Tab Int :=
  x.w.filterMap (fun e => if e.1 / 1024 = r then some (e.1 % 1024, e.2) else none)

/-- The residue of a row over a group (R123). -/
def rowResidue (row : Tab Int) (g : Nat) : Nat :=
  ((row.foldl (fun (t : Int) e => if e.1 / 256 = g then t + e.2 else t) 0) % 64).toNat

/-- A row agrees with the check store in every group (R123). -/
def rowOk (chk : Mem) (row : Tab Int) (r : Nat) : Bool :=
  (List.range 4).all (fun g => decide (rowResidue row g = checkValue chk r g))

/-- A golden row of 205 bytes as trits by column; none where a byte is invalid (R57, R117). -/
def goldRow (bs : List Byte) : Option (Tab Int) :=
  if bs.any (fun b => decide (243 ≤ b.toNat)) then none
  else some ((List.range 1024).filterMap (fun j =>
    let t := goldTrit bs 0 j
    if t = 0 then none else some (j, t)))

/-- The terms of one listed row added to a column tile (R124): `rows` are the slice rows, t_0 first. -/
def addTerms (k : Bank) (rows : List (Tab Int)) (x : Nat) : Bank :=
  let w := fun j => rows.foldr (fun (row : Tab Int) (acc : Int) => acc * 3 + Tab.getD row j 0) 0
  let cols := (rows.flatMap (fun row => row.map Prod.fst)).eraseDups
  cols.foldl (fun k j =>
    if w j = 0 then k
    else { k with outl := Tab.put k.outl j 0 (addF (Tab.getD k.outl j 0) (mulF (r32 (ofInt (w j))) (x * 2 ^ 16)))
                  entered := true }) k

/-- The banks of a handle as a CLEAR issue with a list leaves its outlier accumulators (R124). -/
def State.clearOutliers (s : State) (pf : Nat) (j : OutJob) : State :=
  if j.started || j.issue.acc then s
  else (List.range j.count).foldl (fun s k =>
    let x := s.larr pf (j.base + k)
    let b := x.bank j.issue.bank
    s.setLarr pf (j.base + k) (x.setBank j.issue.bank { b with outl := [], entered := false, outBad := false })) s

/-- One listed row's terms added to every column tile whose row reads are good (R124, R125); `rows k` is the row of the
handle's k-th array, none where its golden row failed. -/
def State.addRow (s : State) (pf : Nat) (j : OutJob) (x : Nat) (rows : Nat → Option (Tab Int)) : State :=
  (List.range (j.count / j.issue.slices)).foldl (fun s t =>
    let ks := (List.range j.issue.slices).map (fun i => t * j.issue.slices + i)
    if ks.all (fun k => (rows k).isSome) then
      let n := j.base + t * j.issue.slices
      let lx := s.larr pf n
      s.setLarr pf n (lx.setBank j.issue.bank (addTerms (lx.bank j.issue.bank) (ks.map (fun k => (rows k).getD [])) x))
    else s) s

/-- The first outlier job of a facet after its front row has been settled. -/
def State.nextOutRow (s : State) (pf : Nat) (j : OutJob) (rest : List OutJob) : State :=
  let rows := j.rows.drop 1
  let l := if rows.isEmpty then rest else { j with rows := rows, started := true, gold := [] } :: rest
  ({ s with outJobs := Tab.put s.outJobs pf [] l }).launchDrains pf

/-- The row of the handle's k-th array as its cells hold it. -/
def State.cellRow (s : State) (pf : Nat) (j : OutJob) (k r : Nat) : Tab Int := (s.parr pf (s.physOf pf (j.base + k))).row r

/-- A row waits for a drain that is to read the bank before the issue changes it (R95). -/
def State.outHeld (s : State) (pf : Nat) (j : OutJob) : Bool :=
  (List.range j.count).any (fun k => (s.facet pf).core.olderDrain (j.base + k) j.issue.bank j.issue.seq)

/-- OUTLIER_ROW_READ (R123): the next listed row is read in every array of the handle and checked; `bad1` and `bad2`
name the arrays (by their place in the handle) whose first and second read a sense error spoils.  A row that fails
twice waits for the golden copy. -/
def execOutlierRowRead (pf : Nat) (bad1 bad2 : List Nat) (s : State) : Res :=
  match Tab.getD s.outJobs pf [] with
  | [] => .next s
  | j :: rest =>
    match j.rows with
    | [] => .next (s.nextOutRow pf j rest)
    | (r, x) :: _ =>
      if !j.gold.isEmpty || s.outHeld pf j then .next s
      else
        let s := s.clearOutliers pf j
        let ok := fun k => rowOk (s.larr pf (j.base + k)).chk (s.cellRow pf j k r) r
        let f1 := (List.range j.count).filter (fun k => bad1.contains k || !ok k)
        let f2 := f1.filter (fun k => bad2.contains k || !ok k)
        let s := s.bump (.SP_ERR pf) F.SP_ERR.reread f1.length
        let s := s.bump (.SP_ERR pf) F.SP_ERR.row_gold f2.length
        if f2.isEmpty then .next ((s.addRow pf j x (fun k => some (s.cellRow pf j k r))).nextOutRow pf j rest)
        else .next { s with outJobs := Tab.put s.outJobs pf [] ({ j with gold := f2, started := true } :: rest) }

/-- OUTLIER_GOLD_ROW (R123): the golden row arrives; poison, an invalid byte or no golden copy poisons the bank and
adds no terms. -/
def execOutlierGoldRow (pf : Nat) (s : State) : Res :=
  match Tab.getD s.outJobs pf [] with
  | [] => .next s
  | j :: rest =>
    match j.rows with
    | [] => .next s
    | (r, x) :: _ =>
      if j.gold.isEmpty then .next s
      else
        let read := fun k =>
          let q := Reg.GOLD_BASE pf (j.base + k)
          let a := s.rd q F.GOLD_BASE.addr * 64 + 205 * r
          (s.on q F.GOLD_BASE.valid, s.hbm.read a 205, s.hbm.rangePoison 64 a 205)
        let gold := fun k =>
          let q := read k
          if q.1 && !q.2.2 then goldRow q.2.1 else none
        let bad := j.gold.filter (fun k => (gold k).isNone)
        let s1 := bad.foldl (fun s k =>
          let q := read k
          let inv := if q.1 then q.2.1.countP (fun b => decide (243 ≤ b.toNat)) else 0
          let s := s.bump (.FMT_STAT pf) F.FMT_STAT.t5_invalid inv
          let n := j.base + k
          let lx := s.larr pf n
          let s := s.setLarr pf n (lx.setBank j.issue.bank { lx.bank j.issue.bank with outBad := true })
          s.goldFail pf n 0xFF) s
        .next ((s1.addRow pf j x (fun k => if j.gold.contains k then gold k else some (s.cellRow pf j k r))).nextOutRow pf j rest)

/-- CHK_WIN_SEL_WRITE (R128). -/
def execChkWinSelWrite (pf value : Nat) (s : State) : Res :=
  if s.variant.logicals ≤ value % 128 then .next s
  else .next (s.wr (.CHK_WIN_SEL pf) F.CHK_WIN_SEL.logical value)

/-- CHECK_WINDOW_WRITE (R129): a word of the selected entry, between two products of the logical array. -/
def execCheckWindowWrite (pf word value : Nat) (s : State) : Res :=
  let n := s.rd (.CHK_WIN_SEL pf) F.CHK_WIN_SEL.logical
  let x := s.larr pf n
  if 384 ≤ word then .next s
  else if s.betweenProducts pf n then .next (s.setLarr pf n { x with chk := x.chk.writeNat (8 * word) 8 value })
  else .next (s.setLarr pf n { x with chkPend := x.chkPend ++ [(word, value)] })

end Sys2Proof.Machine
end

