-- ==== Sys2Proof/Machine/Calib.lean ====
section
/-! DEFINITION. Calibration: trims (R137-R139), runs (R141, R142), attempts (R143-R149), the calibration store (R158). -/

namespace Sys2Proof.Machine

/-- The region temperature in 1/16 °C (R160). -/
def State.regionTemp (s : State) (g : Nat) : Int := sext 16 (s.rd (.CAL_REGION_STAT g) F.CAL_REGION_STAT.t_now)

/-- The write window (R155): 15-80 °C. -/
def State.writeWindow (s : State) (g : Nat) : Bool := decide (240 ≤ s.regionTemp g) && decide (s.regionTemp g ≤ 1280)

/-- The facets of a region (R5). -/
def facetsOf (g : Nat) : List Nat := (List.range 17).map (· + g * 17)

/-- TRIM_RECOMPUTE (R139). -/
def execTrimRecompute (g : Nat) (s : State) : Res :=
  let r := s.region g
  .next (s.setRegion g { r with trimSeq := r.trimSeq + 1, trimTemp := s.regionTemp g })

/-- TRIM_APPLY (R139): at a plane boundary every converter takes the trims of the last recomputation, a calibrating one
those of its new sets. -/
def execTrimApply (pf arr : Nat) (s : State) : Res :=
  let x := s.parr pf arr
  let r := s.region (regionOf pf)
  if x.trimSeq = r.trimSeq || !x.atBoundary then .next s
  else
    let s := s.setParr pf arr { x with trimSeq := r.trimSeq }
    .next ((List.range 264).foldl (fun s n =>
      match x.shadows.find? (fun w => decide (w.conv = n)) with
      | some w => s.setTrims pf arr n w.newLo w.newHi r.trimTemp
      | none => s.ownTrims pf arr n r.trimTemp) s)

/-- The start conditions of a run (R141). -/
def State.calDue (s : State) (g : Nat) : Bool :=
  let c := Reg.CAL_REGION_CTL g
  let r := s.region g
  s.on c F.CAL_REGION_CTL.enable && !s.on c F.CAL_REGION_CTL.hold && r.cal.isNone && !r.tripped && !s.regionCold g &&
    (if r.firstRun then (facetsOf g).any (fun pf => decide (s.lfOf pf ≠ 0x3FF))
    else
      let d := s.regionTemp g - sext 16 (s.rd (.CAL_REGION_STAT g) F.CAL_REGION_STAT.t_ref)
      decide (s.rd (.CAL_REGION_TLAST g) F.CAL_REGION_TLAST.time + s.rd c F.CAL_REGION_CTL.min_gap * 1000000000 ≤ s.reg .SYS_TIME)
        && (s.on c F.CAL_REGION_CTL.start || decide (max 8 (s.rd c F.CAL_REGION_CTL.dt_cal) < d.natAbs)))

/-- CAL_RUN_START (R141, R142). -/
def execCalRunStart (g : Nat) (s : State) : Res :=
  if !s.calDue g then .next s
  else
    let covered := (facetsOf g).flatMap (fun pf =>
      ((List.range s.variant.arrays).filter (fun a => decide (s.arrState pf a = 1))).map (fun a => (pf, a)))
    let s := (s.wr (.CAL_REGION_STAT g) F.CAL_REGION_STAT.t_ref (s.rd (.CAL_REGION_STAT g) F.CAL_REGION_STAT.t_now)).wr
      (.CAL_REGION_STAT g) F.CAL_REGION_STAT.running 1
    let s := s.wr (.CAL_REGION_TLAST g) F.CAL_REGION_TLAST.time (s.reg .SYS_TIME)
    let s := s.wr (.CAL_REGION_CTL g) F.CAL_REGION_CTL.start 0
    let s := s.setRegion g { s.region g with cal := some ⟨s.reg .SYS_TIME, covered, 0, 0, 0⟩, firstRun := false }
    .next { s with arrs := s.arrs.filterMap (fun e =>
      if regionOf (e.1 / 256) = g then
        let x := { e.2 with conv := [] }
        if x = PArr.reset then none else some (e.1, x)
      else some e) }

/-- The run's record changed. -/
def State.onRun (s : State) (g : Nat) (f : CalRun → CalRun) : State := s.setRegion g { s.region g with cal := (s.region g).cal.map f }

/-- A converter that a run attempts: SERVICE, REPLACING, or in its shadow window (R142). -/
def State.attempted (s : State) (pf a n : Nat) : Bool :=
  let r := s.rd (.CONV_STAT pf a n) F.CONV_STAT.role
  decide (r = 0) || decide (r = 2) || decide (r = 4)

/-- The converters of an array that the run attempts and that have no result (R142). -/
def State.openConvs (s : State) (pf a : Nat) : List Nat :=
  let x := s.parr pf a
  (List.range 264).filter (fun n => !(Tab.getD x.conv n ConvStat.zero).done
    && (s.attempted pf a n || x.wantShadow.any (fun w => decide (w.1 = n))))

/-- The end of a region's run (R142, R160, R166). -/
def State.endRun (s : State) (g : Nat) : State :=
  match (s.region g).cal with
  | none => s
  | some c =>
    let s := s.setRegion g { s.region g with cal := none }
    let s := (s.wr (.CAL_REGION_STAT g) F.CAL_REGION_STAT.running 0).bump (.CAL_REGION_STAT g) F.CAL_REGION_STAT.runs 1
    s.raise (regionEvent g 0x203 [c.accepted, c.rejected, c.deferred])

/-- An array's part of the run has ended (R164): counted, and the run with the last of them. -/
def State.endArray (s : State) (pf a : Nat) : State :=
  let g := regionOf pf
  match (s.region g).cal with
  | none => s
  | some c =>
    if c.covered.contains (pf, a) then
      let s := s.onRun g (fun c => { c with covered := c.covered.erase (pf, a) })
      let s := (s.bump (.ARR_CAL pf a) F.ARR_CAL.runs 1).wr (.ARR_CAL_TIME pf a) F.ARR_CAL_TIME.time (s.reg .SYS_TIME)
      if c.covered.erase (pf, a) = [] then s.endRun g else s
    else s

/-- The array's part ends once every attempted converter has a result (R142). -/
def State.checkArray (s : State) (pf a : Nat) : State :=
  if (s.openConvs pf a).isEmpty && (s.parr pf a).shadows.isEmpty then s.endArray pf a else s

/-- A rejected attempt (R148): counted, and the third in a row fences the converter. -/
def State.calReject (s : State) (pf a n outcome : Nat) : State :=
  let g := regionOf pf
  let r := Reg.CONV_CAL pf a n
  let s := s.calResult pf a n outcome
  let s := (s.bump r F.CONV_CAL.fail_count 1).bump (.ARR_CAL pf a) F.ARR_CAL.fails 1
  let s := s.onRun g (fun c => { c with rejected := c.rejected + 1 })
  let s := s.raise (regionEvent g 0x201 [pf, a, n, outcome])
  let k := s.rd r F.CONV_CAL.fail_consec + 1
  if k < 3 then s.wr r F.CONV_CAL.fail_consec k
  else
    let s := s.wr r F.CONV_CAL.fail_consec 0
    let ok := s.fenceOk pf a n
    let s := if ok then s.queueFence pf a n else s
    s.raise (regionEvent g 0x202 [pf, a, n, b2n ok])

/-- An attempt DEFERRED (R142, R148). -/
def State.calDefer (s : State) (pf a n : Nat) : State :=
  let s := (s.calResult pf a n 4).bump (.ARR_CAL pf a) F.ARR_CAL.deferrals 1
  s.onRun (regionOf pf) (fun c => { c with deferred := c.deferred + 1 })

/-- CAL_RUN_TIMEOUT (R142): 2^34 st after its start the run ends, attempts without a result DEFERRED. -/
def execCalRunTimeout (g : Nat) (s : State) : Res :=
  match (s.region g).cal with
  | none => .next s
  | some c =>
    if s.reg .SYS_TIME < c.start + 2 ^ 34 then .next s
    else .next (c.covered.foldl (fun s q =>
      let l := s.openConvs q.1 q.2
      let s := ((s.parr q.1 q.2).shadows).foldl (fun s w =>
        (s.endShadow q.1 q.2 w).ownTrims q.1 q.2 w.conv (s.trimTemp q.1)) s
      let x := s.parr q.1 q.2
      let s := if x.wantShadow.isEmpty then s else s.setParr q.1 q.2 { x with wantShadow := [] }
      let s := l.foldl (fun s n => s.calDefer q.1 q.2 n) s
      (s.countFree q.1 q.2).endArray q.1 q.2) s)

/-- The sets that bracket a temperature (R143). -/
def bracket (t : Int) : List Nat :=
  let q := trimSeg t
  if q.2 = 0 then [q.1] else [q.1, q.1 + 1]

/-- Sets 0-3 or 4-7 with corrections added to the sets of a list (R143). -/
def addSets (half : Nat) (x : Nat) (js : List Nat) (dO dG : Int) : Nat :=
  js.foldl (fun x j =>
    if j / 4 = half then
      let k := 16 * (j % 4)
      let y := setBits x (k + 7) k (toCode 8 (sext 8 (bits x (k + 7) k) + dO))
      setBits y (k + 15) (k + 8) (toCode 8 (sext 8 (bits x (k + 15) (k + 8)) + dG))
    else x) x

/-- The corrections of a full window (R143): none when it is deferred. -/
def estimate (c : ConvStat) (kappa : Nat) : Option (Int × Int) :=
  if c.m0 < 4096 then none
  else some (roundDiv (32 * (kappa : Int) * c.a0) (256 * c.m0), if c.m2 < 4096 then 0 else roundDiv ((kappa : Int) * c.a1) c.m2)

/-- Plausibility of a changed set (R144). -/
def plausible (lo hi : Nat) (dO dG oF gF : Int) (j : Nat) : Bool :=
  let o := setOff lo hi j + dO
  let g := setGain lo hi j + dG
  decide (oF - 12 ≤ o) && decide (o ≤ oF + 12) && decide (-128 ≤ o) && decide (o ≤ 127)
    && decide (-128 ≤ g) && decide (g ≤ 127) && decide (3 * (256 + gF) ≤ 4 * (256 + g)) && decide (4 * (256 + g) ≤ 5 * (256 + gF))

/-- CAL_WINDOW_FULL (R136, R143, R144): the estimate of a full window, and its plausibility. -/
def execCalWindowFull (pf arr conv : Nat) (s : State) : Res :=
  let g := regionOf pf
  let x := s.parr pf arr
  let c := Tab.getD x.conv conv ConvStat.zero
  match (s.region g).cal with
  | none => .next s
  | some run =>
    let role := s.rd (.CONV_STAT pf arr conv) F.CONV_STAT.role
    if s.on (.CAL_REGION_CTL g) F.CAL_REGION_CTL.hold || !run.covered.contains (pf, arr) || c.done || decide (c.count < 2 ^ 22)
        || decide (2 < role) || x.wantShadow.any (fun w => decide (w.1 = conv)) then .next s
    else match estimate c (s.rd (.CAL_REGION_CTL g) F.CAL_REGION_CTL.kappa) with
      | none => .next ((s.calDefer pf arr conv).checkArray pf arr)
      | some (dO, dG) =>
        let lo := s.reg (.CONV_SETLO pf arr conv)
        let hi := s.reg (.CONV_SETHI pf arr conv)
        let js := bracket (s.regionTemp g)
        let oF := sext 8 (s.rd (.CONV_CAL pf arr conv) F.CONV_CAL.o_fact)
        let gF := sext 8 (s.rd (.CONV_CAL pf arr conv) F.CONV_CAL.g_fact)
        if js.all (plausible lo hi dO dG oF gF) then
          .next (s.setParr pf arr { x with wantShadow := x.wantShadow ++ [(conv, addSets 0 lo js dO dG, addSets 1 hi js dO dG)] })
        else .next ((s.calReject pf arr conv 2).checkArray pf arr)

/-- The waiting attempt of the lowest converter (R145). -/
def PArr.nextShadow (x : PArr) : Option (Nat × Nat × Nat) :=
  x.wantShadow.foldl (fun b w => match b with
    | none => some w
    | some v => if w.1 < v.1 then some w else some v) none

/-- SHADOW_WINDOW_START (R145, R147): at a plane boundary, a mirror lent to a converter, or a free mirror shadowing. -/
def execShadowWindowStart (pf arr : Nat) (s : State) : Res :=
  let g := regionOf pf
  let x := s.parr pf arr
  if !x.atBoundary || s.on (.CAL_REGION_CTL g) F.CAL_REGION_CTL.hold then .next s
  else match x.nextShadow with
    | none => .next s
    | some (n, lo, hi) =>
      let role := s.rd (.CONV_STAT pf arr n) F.CONV_STAT.role
      let rest := x.wantShadow.filter (fun w => decide (w.1 ≠ n))
      if role = 1 then
        match (List.range 256).find? (fun p => decide (s.rd (.CONV_STAT pf arr (s.srv pf arr p)) F.CONV_STAT.role = 0)) with
        | none => .next s
        | some p =>
          let w : Shadow := ⟨n, s.srv pf arr p, p, 0, false, lo, hi, true, 1⟩
          let s := s.setParr pf arr { x with wantShadow := rest, shadows := x.shadows ++ [w] }
          let s := (s.wr (.CONV_STAT pf arr n) F.CONV_STAT.role 4).setTrims pf arr n lo hi (s.trimTemp pf)
          .next (s.countFree pf arr)
      else if role = 0 ∨ role = 2 then
        let free := s.mirrorsIn pf arr 1
        if free.length < 3 ∨ s.rd (.CAL_REGION_CTL g) F.CAL_REGION_CTL.par + 1 ≤ x.shadows.length then .next s
        else
          let m := free.headD 256
          let p := s.rd (.CONV_STAT pf arr n) F.CONV_STAT.serves
          let w : Shadow := ⟨n, m, p, 0, false, lo, hi, false, role⟩
          let s := s.setParr pf arr { x with wantShadow := rest, shadows := x.shadows ++ [w] }
          let s := s.setConv pf arr m 3 p
          let s := s.wr (.CONV_MAP pf arr p) F.CONV_MAP.srv m
          let s := (s.wr (.CONV_STAT pf arr n) F.CONV_STAT.role 4).setTrims pf arr n lo hi (s.trimTemp pf)
          .next (s.countFree pf arr)
      -- a converter fenced meanwhile has no attempt left (R149)
      else .next (((s.setParr pf arr { x with wantShadow := rest }).calResult pf arr n 5).checkArray pf arr)

/-- CAL_ATTEMPT_END (R146-R148): at a plane boundary a shadow window ends ACCEPTED or REJ_SHADOW. -/
def execCalAttemptEnd (pf arr conv : Nat) (s : State) : Res :=
  let g := regionOf pf
  let x := s.parr pf arr
  match x.shadows.find? (fun w => decide (w.conv = conv)) with
  | none => .next s
  | some w =>
    if !x.atBoundary || (!w.differs && decide (w.compared < 2 ^ 20)) then .next s
    else
      let s := s.endShadow pf arr w
      if w.differs then
        .next (((s.ownTrims pf arr conv (s.trimTemp pf)).countFree pf arr |>.calReject pf arr conv 3).checkArray pf arr)
      else
        let s := (s.setReg (.CONV_SETLO pf arr conv) w.newLo).setReg (.CONV_SETHI pf arr conv) w.newHi
        let s := (s.calResult pf arr conv 1).wr (.CONV_CAL pf arr conv) F.CONV_CAL.fail_consec 0
        let s := s.onRun g (fun c => { c with accepted := c.accepted + 1 })
        let r := s.region g
        let q := (pf, arr, conv)
        let s := s.setRegion g { r with storePend := if r.storePend.contains q then r.storePend else r.storePend ++ [q] }
        .next ((s.countFree pf arr).checkArray pf arr)

/-- CAL_START_WRITE (R159). -/
def execCalStartWrite (g : Nat) (s : State) : Res := .next (s.wr (.CAL_REGION_CTL g) F.CAL_REGION_CTL.start 1)

/-- The key of a converter's sets in the calibration store (R140). -/
def storeKey (pf a n : Nat) : Nat := (pf * 256 + a) * 512 + n

/-- CAL_STORE_WRITE (R155, R158): within the write window the accepted sets of a converter reach the store. -/
def execCalStoreWrite (pf arr conv : Nat) (s : State) : Res :=
  let g := regionOf pf
  let r := s.region g
  let q := (pf, arr, conv)
  if r.storePend.contains q && s.writeWindow g then
    let s := s.setRegion g { r with storePend := r.storePend.filter (fun e => decide (e ≠ q)) }
    let sets := (s.reg (.CONV_SETLO pf arr conv), s.reg (.CONV_SETHI pf arr conv))
    .next { s with calStore := Tab.put s.calStore (storeKey pf arr conv) (0, 0) sets }
  else .next s

end Sys2Proof.Machine
end

