-- ==== Sys2Proof/Machine/VaultOps.lean ====
section
/-! DEFINITION. The vault: reading a record, its writes, its copies (R466-R469). -/

namespace Sys2Proof.Machine

/-- A record's number: section (0 boot record, 1 configuration, 2 disabled-unit map, 3 counters, 4 wear, 5 identity) and number. -/
def vrec (sec n : Nat) : Nat := sec * 2 ^ 16 + n

/-- The boot record; the counter of the identity generation (R507); the identity records (R508): owner digest, public key,
blobs and helper data of hubs A and B. -/
def vBoot : Nat := vrec 0 0
def vGen : Nat := vrec 3 0
def vOwner : Nat := vrec 5 0
def vKey : Nat := vrec 5 1
def vBlob (h : Nat) : Nat := vrec 5 (2 + h)
def vHelp (h : Nat) : Nat := vrec 5 (4 + h)

/-- A die fenced (R449). -/
def State.dieFenced (s : State) (d : Nat) : Bool := s.faults.active.contains (unitDesc 6 d 0 0)

/-- The copies of a record whose CRC passes, on dies not fenced. -/
def State.vcopies (s : State) (r : Nat) : List VRec :=
  (List.range 3).filterMap (fun c =>
    if s.dieFenced (s.vault.dies.getD c 0) then none
    else (Tab.find? s.vault.recs (r * 4 + c)).filter VRec.ok)

/-- A record read (R467): the highest generation that passes in two copies. -/
def State.vget (s : State) (r : Nat) : Option VData :=
  let l := s.vcopies r
  let two := l.filter (fun x => decide (2 ≤ l.countP (fun y => decide (y.gen = x.gen))))
  (two.find? (fun x => two.all (fun y => decide (y.gen ≤ x.gen)))).map VRec.data

def VData.count? : VData → Nat
  | .count n => n
  | _ => 0

/-- A monotonic counter (R467): the highest value that passes in any copy. -/
def State.vcount (s : State) (r : Nat) : Nat := (s.vcopies r).foldl (fun m x => max m x.data.count?) 0

/-- A record's bytes; none when no generation passes in two copies. -/
def State.vbytes (s : State) (r : Nat) : Option (List Byte) :=
  match s.vget r with
  | some (.bytes l) => some l
  | _ => none

/-- The boot record, when readable (R434). -/
def State.bootRec (s : State) : Option BootRec :=
  match s.vget vBoot with
  | some (.boot b) => some b
  | _ => none

/-- The generation a new write of a record takes (R467). -/
def State.vnext (s : State) (r : Nat) : Nat :=
  let a := (s.vault.recs.filter (fun p => decide (p.1 / 4 = r))).foldl (fun m p => max m (VRec.gen p.2)) 0
  (s.vault.writes.filter (fun w => decide (w.rec_ = r))).foldl (fun m w => max m w.gen) a + 1

/-- A vault write asked for (R467). -/
def State.vput (s : State) (r : Nat) (d : VData) : State :=
  let s := { s with vault := { s.vault with writes := s.vault.writes ++ [VWrite.mk r d (s.vnext r) 0] } }
  s.wr .VAULT_STAT F.VAULT_STAT.busy 1

/-- Do two copies hold a record at a generation or a later one (R467)? -/
def State.vheld (s : State) (r gen : Nat) : Bool := decide (2 ≤ (s.vcopies r).countP (fun x => decide (gen ≤ x.gen)))

/-- The write window of a die (R155): that of its 12 regions (log entry 51). -/
def State.dieWindow (s : State) (d : Nat) : Bool := (List.range 12).all (fun r => s.writeWindow (d * 12 + r))

/-- One copy of a record stored. -/
def State.vstore (s : State) (r c gen : Nat) (d : VData) : State :=
  let s := { s with vault := { s.vault with recs := Tab.set s.vault.recs (r * 4 + c) (VRec.mk gen true d) } }
  s.wr .VAULT_STAT F.VAULT_STAT.gen (max (s.rd .VAULT_STAT F.VAULT_STAT.gen) (gen % 2 ^ 32))

/-- A copy found older than the record's current generation, or failing its CRC: record, copy, generation and data to write
(R467). -/
def State.vstale (s : State) : Option (Nat × Nat × Nat × VData) :=
  ((s.vault.recs.map (fun p => p.1 / 4)).eraseDups.findSome? (fun r =>
    let l := s.vcopies r
    let top := l.foldl (fun m x => max m x.gen) 0
    if r / 2 ^ 16 = 3 ∨ 2 ≤ l.countP (fun x => decide (x.gen = top)) then
      match l.find? (fun x => decide (x.gen = top)) with
      | some x => ((List.range 3).find? (fun c => !s.dieFenced (s.vault.dies.getD c 0)
          && (match Tab.find? s.vault.recs (r * 4 + c) with | some y => !y.ok || decide (y.gen < top) | none => true))).map
          (fun c => (r, c, top, x.data))
      | none => none
    else none))

/-- VAULT_WRITE (R467, R155): the next copy of the oldest write is written, or a stale copy rewritten; outside the write window
it waits. -/
def execVaultWrite (s : State) : Res :=
  match s.vault.writes with
  | [] => match s.vstale with
    | some (r, c, g, d) =>
      if s.dieWindow (s.vault.dies.getD c 0) then .next ((s.vstore r c g d).wr .VAULT_STAT F.VAULT_STAT.waiting 0)
      else .next (s.wr .VAULT_STAT F.VAULT_STAT.waiting 1)
    | none => .next s
  | w :: rest =>
    let die := s.vault.dies.getD w.done 0
    let lost := s.dieFenced die
    if !lost && !s.dieWindow die then .next (s.wr .VAULT_STAT F.VAULT_STAT.waiting 1)
    else
      let s := if lost then s else s.vstore w.rec_ w.done w.gen w.data
      let left := if w.done = 2 then rest else { w with done := w.done + 1 } :: rest
      let s := ({ s with vault := { s.vault with writes := left } }).wr .VAULT_STAT F.VAULT_STAT.waiting 0
      .next (s.wr .VAULT_STAT F.VAULT_STAT.busy (b2n (!left.isEmpty)))

/-- The copy on a lost die is to be rebuilt on the die that holds none (R469); VAULT_DEGRADED names each section. -/
def State.vaultDieLost (s : State) (d : Nat) : State :=
  match (List.range 3).find? (fun c => decide (s.vault.dies.getD c 0 = d)) with
  | none => s
  | some c =>
    let dest := (List.range 4).find? (fun x => !s.vault.dies.contains x && !s.dieFenced x)
    let s := { s with vault := { s.vault with rebuild := dest.map (fun x => (c, x)) } }
    let s := (s.wr .VAULT_STAT F.VAULT_STAT.degraded 1).wr .VAULT_STAT F.VAULT_STAT.copy_dies
      (setBits (s.rd .VAULT_STAT F.VAULT_STAT.copy_dies) d d 0)
    (List.range 6).foldl (fun s k => s.raise ⟨6, 0x1C7, 0xFFFF, 0xFFFF, [d, k]⟩) s

/-- VAULT_REBUILD (R469): the lost copy is written on its new die, within the write window. -/
def execVaultRebuild (s : State) : Res :=
  match s.vault.rebuild with
  | none => .next s
  | some (c, d) =>
    if !s.dieWindow d then .next (s.wr .VAULT_STAT F.VAULT_STAT.waiting 1)
    else
      let s := { s with vault := { s.vault with dies := setNth s.vault.dies c d, rebuild := none
                                                recs := s.vault.recs.filter (fun p => decide (p.1 % 4 ≠ c)) } }
      let recs := (s.vault.recs.map (fun p => p.1 / 4)).eraseDups
      let s := recs.foldl (fun s r =>
        let l := s.vcopies r
        match l.find? (fun x => l.all (fun y => decide (y.gen ≤ x.gen))) with
        | some x => s.vstore r c x.gen x.data
        | none => s) s
      let s := (s.wr .VAULT_STAT F.VAULT_STAT.waiting 0).wr .VAULT_STAT F.VAULT_STAT.degraded 0
      .next (s.wr .VAULT_STAT F.VAULT_STAT.copy_dies (setBits (s.rd .VAULT_STAT F.VAULT_STAT.copy_dies) d d 1))

end Sys2Proof.Machine
end

