-- ==== Sys2Proof/Machine/Boot.lean ====
section
/-! DEFINITION. Boot (R434-R438), hand-over and firmware update (R440-R446). -/

namespace Sys2Proof.Machine

/-- The body length of an image. -/
def imgBody (b : List Byte) : Nat := field b 16 4

/-- The digest of R437 and R513. -/
def imgDigest (b : List Byte) : List Byte := sha3_512 (b.take 64 ++ (b.drop 8192).take (imgBody b))

/-- The first check of R437 that an image fails, as its code; 0 when none does. -/
def imageErr (b : List Byte) (keys : List (List Byte)) (svn : Nat) : Nat :=
  let zero := fun (i n : Nat) => ((b.drop i).take n).all (fun x => decide (x = 0))
  let body := imgBody b
  let entry := field b 20 4
  if !(decide (field b 0 4 = 0x5A465749) && decide (field b 4 2 = 1) && zero 6 2 && zero 14 2 && zero 24 40 && zero 7283 909
      && decide (8192 + body ≤ 4194304) && decide (entry < body) && decide (entry % 4 = 0)) then 3
  else
    let key := (b.drop 64).take 2592
    if !keys.contains (sha3_512 key) then 4
    else if !Config.dsaVerify key (imgDigest b) ((b.drop 2656).take 4627) then 5
    else if field b 12 2 < svn then 6
    else 0

/-- The image has arrived whole (R435). -/
def imgWhole (b : List Byte) : Bool := decide (8192 ≤ b.length) && decide (8192 + imgBody b ≤ b.length)

/-- A firmware slot of a hub in hub SRAM (R420). -/
def slotBase (h slot : Nat) : Nat := 0x1000000 + h * 0x2000000 + slot * 0x400000

/-- The hub of a core (R414). -/
def hubOfCore (p : Nat) : Nat := p / 10

def State.hubBoot (s : State) (h : Nat) : HubBoot := if h = 0 then s.boot.a else s.boot.b
def State.setHubBoot (s : State) (h : Nat) (x : HubBoot) : State :=
  { s with boot := if h = 0 then { s.boot with a := x } else { s.boot with b := x } }

/-- A core's state (R445). -/
def State.coreState (s : State) (p : Nat) : Nat := s.rd (.CORE_STAT p) F.CORE_STAT.state
def State.setCoreState (s : State) (p st : Nat) : State := s.wr (.CORE_STAT p) F.CORE_STAT.state st

/-- The address at which a core starts on a slot's image (R438), and that image's version. -/
def State.entryOf (s : State) (p slot : Nat) : Nat :=
  let b := slotBase (hubOfCore p) slot
  0x600000000000 + b + 8192 + s.hub.readNat (b + 20) 4
def State.slotVersion (s : State) (p slot : Nat) : Nat := s.hub.readNat (slotBase (hubOfCore p) slot + 8) 4

/-- BOOT_ROM_START (R434): the lowest-numbered core of the hub that passes its self-test runs the ROM; `failed` are the cores
that do not. -/
def execBootRomStart (h : Nat) (failed : List Nat) (s : State) : Res :=
  if 2 ≤ h ∨ s.power.phase ≠ 0 ∨ s.hubFenced h ∨ (s.hubBoot h).core.isSome then .next s
  else
    match ((List.range 10).map (· + h * 10)).find? (fun p => !failed.contains p && decide (s.coreState p = 0)) with
    | none => .next s
    | some p =>
      let s := (s.setCoreState p 1).setHubBoot h { s.hubBoot h with core := some p }
      .next (if s.bootRec.isSome then s else s.wr .FW_STAT F.FW_STAT.rom_err 1)

/-- The reads of a round in the recorded order (R434, R435): 0 and 1 SPI NOR at its two offsets, 2 management port, 3 PCIe. -/
def State.attempts (s : State) (h : Nat) : List Nat :=
  let b := s.bootRec
  let order := match b with | some r => r.order | none => [0, 1, 2]
  order.flatMap (fun k =>
    if k = 0 then (if s.boot.spiHub = h then [0, 1] else [])
    else if k = 1 then (if (b.bind BootRec.server).isSome then [2] else [])
    else [3])

/-- The source code of a read (R443). -/
def attemptSource (k : Nat) : Nat := if k ≤ 1 then 0 else k - 1

/-- BOOT_SOURCE_ROUND (R435, R437): `imgs` are the images that the reads deliver. -/
def execBootSourceRound (h : Nat) (imgs : List (Nat × List Byte)) (s : State) : Res :=
  let x := s.hubBoot h
  if 2 ≤ h ∨ x.core.isNone ∨ x.image.isSome ∨ x.retryAt.isSome ∨ (h = 1 ∧ !x.own) then .next s
  else
    let keys := match s.bootRec with | some r => r.keys | none => []
    let svn := match s.bootRec with | some r => r.svn | none => 0
    let got := (s.attempts h).filterMap (fun k => (imgs.find? (fun p => decide (p.1 = k) && imgWhole p.2)).map (fun p => (k, p.2)))
    match got.find? (fun p => decide (imageErr p.2 keys svn = 0)) with
    | some (k, img) =>
      let s := s.setHubBoot h { x with image := some img, source := attemptSource k }
      .next { s.wr .FW_STAT F.FW_STAT.rom_err 0 with power := { s.power with ready := true } }
    | none =>
      let code := if s.bootRec.isNone then 1 else match got.getLast? with
        | some p => imageErr p.2 keys svn
        | none => 2
      .next ((s.setHubBoot h { x with retryAt := some (s.time + 1000000000) }).wr .FW_STAT F.FW_STAT.rom_err code)

/-- BOOT_RETRY_TIMER (R435). -/
def execBootRetryTimer (h : Nat) (s : State) : Res :=
  let x := s.hubBoot h
  match x.retryAt with
  | some t => if t ≤ s.time then .next (s.setHubBoot h { x with retryAt := none }) else .next s
  | none => .next s

/-- Hub A has no accepted image 2 s after the release of PORST_N (R435, R438), or is fenced. -/
def State.hubALate (s : State) : Bool :=
  s.boot.a.image.isNone && (decide (s.boot.released + 2000000000 ≤ s.time) || s.hubFenced 0)

/-- SPI_PIN_TAKEOVER (R435). -/
def execSpiPinTakeover (s : State) : Res := .next (if s.hubALate then { s with boot := { s.boot with spiHub := 1 } } else s)

/-- HUB_B_BOOT_TIMEOUT (R438). -/
def execHubBBootTimeout (s : State) : Res :=
  .next (if s.hubALate then s.setHubBoot 1 { s.boot.b with own := true } else s)

/-- What waits for the next successful boot (R571, R521, R536): PWR_SEQ_FAIL, and the failure records of the stop. -/
def State.bootReports (s : State) : State :=
  let s := if s.power.report then
      ({ s with power := { s.power with report := false } }).raise ⟨4, 0x18C, 0xFFFF, 0xFFFF,
        [s.rd .PWR_SEQ F.PWR_SEQ.rail, s.rd .PWR_SEQ F.PWR_SEQ.attempts]⟩
    else s
  let l := s.power.owed
  l.foldl (fun s d => s.cper ⟨clsPackage, d, false, false, false, false, 0, 0, 0xFFFF, 0xFFFF, 0, []⟩)
    { s with power := { s.power with owed := [] } }

/-- The boot core loads an image into slot 0 and jumps (R438). -/
def State.jump (s : State) (h p : Nat) (img : List Byte) (src : Nat) : State :=
  let whole := img.take (8192 + imgBody img)
  let s := { s with hub := s.hub.write (slotBase h 0) whole, boot := { s.boot with running := whole } }
  let s := s.setHubBoot h { s.hubBoot h with image := some img, source := src, jumped := true }
  let s := ((s.wr .FW_STAT F.FW_STAT.version (field img 8 4)).wr .FW_STAT F.FW_STAT.svn (field img 12 2)).wr .FW_STAT F.FW_STAT.source src
  let s := (s.setCoreState p 2).wr (.CORE_STAT p) F.CORE_STAT.fw_version (field img 8 4)
  (s.emit (.start p (s.entryOf p 0) (s.rd (.CORE_STAT p) F.CORE_STAT.lc) 0)).bootReports

/-- BOOT_JUMP (R438): hub B copies hub A's slot and verifies it itself; an image of its own serves it while hub A has none. -/
def execBootJump (h : Nat) (s : State) : Res :=
  let x := s.hubBoot h
  let a := s.boot.a
  match x.core with
  | none => .next s
  | some p =>
    if x.jumped then .next s
    else if h = 0 ∨ a.image.isNone then
      match x.image with
      | some img => .next (s.jump h p img x.source)
      | none => .next s
    else if !a.jumped then .next s
    else
      let img := s.hub.read (slotBase 0 0) (8192 + s.hub.readNat (slotBase 0 0 + 16) 4)
      match x.image with
      | some own => if imgDigest own = imgDigest img then .next (s.jump h p own x.source) else
          let e := imageErr img (match s.bootRec with | some r => r.keys | none => []) (match s.bootRec with | some r => r.svn | none => 0)
          if e = 0 then .next (s.jump h p img 3) else .next (s.wr .FW_STAT F.FW_STAT.rom_err e)
      | none =>
        let e := imageErr img (match s.bootRec with | some r => r.keys | none => []) (match s.bootRec with | some r => r.svn | none => 0)
        if e = 0 then .next (s.jump h p img 3) else .next (s.wr .FW_STAT F.FW_STAT.rom_err e)

/-- The slot whose image a core holds. -/
def State.heldSlot (s : State) (p : Nat) : Nat := if s.coreState p = 4 then Tab.getD s.boot.coreSlot p 0 else s.boot.slot

/-- A core starts on the image it holds (R438, R440). -/
def State.startCore (s : State) (p lc a1 : Nat) : State :=
  let slot := s.heldSlot p
  let s := { s with boot := { s.boot with coreSlot := Tab.put s.boot.coreSlot p 0 slot } }
  let s := ((s.wr (.CORE_STAT p) F.CORE_STAT.lc lc).wr (.CORE_STAT p) F.CORE_STAT.fw_version (s.slotVersion p slot)).setCoreState p 2
  s.emit (.start p (s.entryOf p slot) lc a1)

/-- CORE_START (R438, R445, R446). -/
def execCoreStart (value : Nat) (s : State) : Res :=
  let s := (bitsSet 16 value).foldl (fun s c =>
    let p := s.rd (.CORE_MAP c) F.CORE_MAP.phys
    if s.on (.CORE_MAP c) F.CORE_MAP.valid && decide (s.coreState p = 0) then s.startCore p c 0 else s) s
  if s.boot.started then .next s
  else
    let s := { s with boot := { s.boot with started := true } }
    .next ((List.range 20).foldl (fun s p =>
      if s.coreState p = 0 ∧ s.rd (.CORE_STAT p) F.CORE_STAT.lc = 0x1F then s.setCoreState p 3 else s) s)

/-- The image of an update is in place and its copies verified (R441). -/
def State.inStandby (s : State) : Bool := s.on .FW_UPDATE F.FW_UPDATE.busy && s.boot.update.isNone

/-- The update ends when every LC runs the new image (R441). -/
def State.updateDone (s : State) : State :=
  let new := 1 - s.boot.slot
  let all := (List.range 16).all (fun c => !s.on (.CORE_MAP c) F.CORE_MAP.valid
    || decide (Tab.getD s.boot.coreSlot (s.rd (.CORE_MAP c) F.CORE_MAP.phys) 0 = new))
  if s.inStandby && all then
    let h := if s.hubFenced 0 then 1 else 0
    let b := slotBase h new
    let s := { s with boot := { s.boot with slot := new, running := s.hub.read b (8192 + s.hub.readNat (b + 16) 4) } }
    let s := (s.wr .FW_STAT F.FW_STAT.version (s.hub.readNat (b + 8) 4)).wr .FW_STAT F.FW_STAT.svn (s.hub.readNat (b + 12) 2)
    let s := (List.range 20).foldl (fun s p => if s.coreState p = 4 then s.setCoreState p 3 else s) s
    (s.wr .FW_UPDATE F.FW_UPDATE.busy 0).raise ⟨0xE, 0x10A, 0xFFFF, 0xFFFF, []⟩
  else s

/-- Every source of an LC that was in service returns to pending (R440). -/
def State.reopen (s : State) (c : Nat) : State :=
  (s.ctl.evClaim.filter (fun q => decide (q.2 = c))).foldl (fun s q =>
    let x := srcOf q.1
    let s := (s.wr x.reg F.EV_SRC.in_service 0).wr x.reg F.EV_SRC.pending 1
    s.setCtl { s.ctl with evClaim := Tab.erase s.ctl.evClaim q.1 }) s

/-- A core's interrupt inputs fall. -/
def State.dropIrq (s : State) (p : Nat) : State :=
  s.setCtl { s.ctl with irq := s.ctl.irq.filter (fun q => decide (q.1 / 2 ≠ p)) }

/-- An LC moved to a core (R440): steps 1 to 6. -/
def State.moveLc (s : State) (c dest : Nat) : State :=
  let old := s.rd (.CORE_MAP c) F.CORE_MAP.phys
  let had := s.on (.CORE_MAP c) F.CORE_MAP.valid
  let s := (s.wr (.CORE_MAP c) F.CORE_MAP.phys dest).wr (.CORE_MAP c) F.CORE_MAP.valid 1
  let s := (s.reopen c).startCore dest c 1
  let s := s.raise ⟨2 ^ 16 + c * 64 + 33, 0, 0xFFFF, 0xFFFF, []⟩
  let s := s.raise ⟨0xD, 0x107, 0xFFFF, 0xFFFF, []⟩
  let s := if !had then s
    else
      let s := (s.dropIrq old).wr (.CORE_STAT old) F.CORE_STAT.lc 0x1F
      if s.coreState old = 5 then s
      else if s.inStandby then
        let new := 1 - s.boot.slot
        let s := { s with boot := { s.boot with coreSlot := Tab.put s.boot.coreSlot old 0 new } }
        (s.setCoreState old 4).wr (.CORE_STAT old) F.CORE_STAT.fw_version (s.slotVersion old new)
      else s.setCoreState old 0
  s.updateDone

/-- CORE_HANDOVER (R440, R446): a write of the register. -/
def execCoreHandover (value : Nat) (s : State) : Res :=
  let r := Reg.CORE_HANDOVER
  let s := (s.wr r F.CORE_HANDOVER.to_ (bits value 20 16)).wr r F.CORE_HANDOVER.lc (bits value 3 0)
  let dest := bits value 20 16
  if !bitAt value 63 then .next s
  else if s.on r F.CORE_HANDOVER.busy then .next (s.wr r F.CORE_HANDOVER.err 2)
  else if 20 ≤ dest ∨ (s.coreState dest ≠ 3 ∧ s.coreState dest ≠ 4) then .next (s.wr r F.CORE_HANDOVER.err 1)
  else .next ((s.wr r F.CORE_HANDOVER.err 0).moveLc (bits value 3 0) dest)

/-- The core an LC of a lost core moves to (R442; which one is log entry 52): a MIRROR core of its hub, else of the other, else
one in STANDBY. -/
def State.refuge (s : State) (p : Nat) : Option Nat :=
  let l := (List.range 20).filter (fun q => decide (q ≠ p) && !s.hubFenced (hubOfCore q))
  match l.find? (fun q => decide (s.coreState q = 3) && decide (hubOfCore q = hubOfCore p)) with
  | some q => some q
  | none => match l.find? (fun q => decide (s.coreState q = 3)) with
    | some q => some q
    | none => l.find? (fun q => decide (s.coreState q = 4))

/-- An LC whose core is gone (R442): moved, or left without a core and its shared sources routed to the lowest LC that has
one. -/
def State.rehome (s : State) (c p : Nat) : State :=
  match s.refuge p with
  | some q => s.moveLc c q
  | none =>
    let s := ((s.reopen c).dropIrq p).wr (.CORE_MAP c) F.CORE_MAP.valid 0
    let s := s.raise ⟨0xD, 0x108, 0xFFFF, 0xFFFF, []⟩
    let s := s.wr (.CORE_STAT p) F.CORE_STAT.lc 0x1F
    match (List.range 16).find? (fun d => s.on (.CORE_MAP d) F.CORE_MAP.valid) with
    | none => s
    | some d => ((List.range 4096).filter (fun n => decide (s.srcLc (.shared n) = c))).foldl (fun s n => s.wr (.EV_SRC n) F.EV_SRC.target d) s

/-- A control core fenced (R442, R451). -/
def State.fenceCore (s : State) (p cause : Nat) (injected : Bool) : State :=
  if 20 ≤ p ∨ s.coreState p = 5 then s
  else
    let lcs := (List.range 16).filter (fun c => s.on (.CORE_MAP c) F.CORE_MAP.valid && decide (s.rd (.CORE_MAP c) F.CORE_MAP.phys = p))
    let spare := (s.refuge p).isSome || lcs.isEmpty
    let s := s.setCoreState p 5
    let s := (s.appendMap (unitDesc 8 p 0 0))
    let s := { s with faults := { s.faults with active := s.faults.active ++ [unitDesc 8 p 0 0] } }
    let s := s.bump .FLT_STAT F.FLT_STAT.fences 1
    let cls := if spare then clsUnit else clsCapacity
    let s := s.cper ⟨cls, cause, injected, false, false, true, unitDesc 8 p 0 0, 0, 0xFFFF, 0xFFFF, 0x1C0, []⟩
    let s := s.raise ⟨6, 0x1C0, 0xFFFF, 0xFFFF, [unitDesc 8 p 0 0, cls, cause]⟩
    lcs.foldl (fun s c => s.rehome c p) s

/-- CORE_ECC_ERROR (R421, R442, R456): a cache error of a core; an uncorrectable one fences it. -/
def execCoreEccError (p : Nat) (corrected : Bool) (s : State) : Res :=
  if 20 ≤ p then .next s
  else
    let lc := s.rd (.CORE_STAT p) F.CORE_STAT.lc
    let s := if lc < 16 then s.raise ⟨2 ^ 16 + lc * 64 + 32, 0, 0xFFFF, 0xFFFF, []⟩ else s
    .next (if corrected then s else s.fenceCore p 0x11 false)

/-- FW_UPDATE (R441, R443): a write of the register; with go the image is read and verified by the lowest MIRROR core of each hub. -/
def execFwUpdate (value : Nat) (s : State) : Res :=
  let r := Reg.FW_UPDATE
  let s := s.wr r F.FW_UPDATE.addr (bits value 39 6)
  if !bitAt value 63 ∨ s.on r F.FW_UPDATE.busy then .next s
  else
    let a := bits value 39 6 * 64
    let n := min 4194304 (8192 + s.hbm.readNat (a + 16) 4)
    let mirror := (List.range 20).any (fun p => decide (s.coreState p = 3) && !s.hubFenced (hubOfCore p))
    let img := s.hbm.read a n
    let e := imageErr img (match s.bootRec with | some b => b.keys | none => []) (match s.bootRec with | some b => b.svn | none => 0)
    let err := if !mirror then 5 else if s.hbm.rangePoison 64 a n then 6 else if e = 0 then 0 else e - 2
    let s := s.wr r F.FW_UPDATE.err err
    if err ≠ 0 then .next (s.raise ⟨0xE, 0x10B, 0xFFFF, 0xFFFF, []⟩)
    else .next ((s.wr r F.FW_UPDATE.busy 1) |> fun s => { s with boot := { s.boot with update := some img } })

/-- FW_UPDATE_STANDBY (R441): the verified image stands in each hub's free slot and the MIRROR cores enter STANDBY. -/
def execFwUpdateStandby (s : State) : Res :=
  match s.boot.update with
  | none => .next s
  | some img =>
    let new := 1 - s.boot.slot
    let s := { s with hub := (s.hub.write (slotBase 0 new) img).write (slotBase 1 new) img, boot := { s.boot with update := none } }
    let s := (List.range 20).foldl (fun s p =>
      if s.coreState p = 3 then
        let s := { s with boot := { s.boot with coreSlot := Tab.put s.boot.coreSlot p 0 new } }
        (s.setCoreState p 4).wr (.CORE_STAT p) F.CORE_STAT.fw_version (field img 8 4)
      else s) s
    .next ((s.raise ⟨0xE, 0x109, 0xFFFF, 0xFFFF, []⟩).updateDone)

end Sys2Proof.Machine
end

