-- ==== Sys2Proof/Machine/Gcm.lean ====
section
/-! DEFINITION. AES-256-GCM, which the spec names for protected channels (R342) and wrapped secrets (R508); the cipher
itself is that of FIPS 197 and SP 800-38D (PRESUMED, log entry 42). -/

namespace Sys2Proof.Machine

/-- A byte doubled in the field of AES. -/
def aesTwice (x : Nat) : Nat := let y := x * 2; if 256 ≤ y then (y ^^^ 0x11B) % 256 else y

/-- A product in the field of AES, over `n` bits of the second factor. -/
def aesMulN : Nat → Nat → Nat → Nat
  | 0, _, _ => 0
  | n + 1, x, y => (if y % 2 = 1 then x else 0) ^^^ aesMulN n (aesTwice x) (y / 2)

def aesMul (x y : Nat) : Nat := aesMulN 8 x y

/-- The inverse in the field of AES: the 254th power. -/
def aesInv (x : Nat) : Nat :=
  let x2 := aesMul x x
  let x3 := aesMul x2 x
  let x6 := aesMul x3 x3
  let x12 := aesMul x6 x6
  let x15 := aesMul x12 x3
  let x30 := aesMul x15 x15
  let x60 := aesMul x30 x30
  let x120 := aesMul x60 x60
  let x126 := aesMul x120 x6
  let x127 := aesMul x126 x
  aesMul x127 x127

/-- The substitution of a byte. -/
def aesSub (x : Nat) : Nat :=
  let b := aesInv x
  let rot := fun k => (b * 2 ^ k) % 256 + b / 2 ^ (8 - k)
  b ^^^ rot 1 ^^^ rot 2 ^^^ rot 3 ^^^ rot 4 ^^^ 0x63

/-- The next word of the key schedule. -/
def aesNext (i : Nat) (w : List (List Nat)) : List Nat :=
  let t := w.getD (i - 1) []
  let t := if i % 8 = 0 then
      let s := (t.drop 1 ++ t.take 1).map aesSub
      [s.getD 0 0 ^^^ (List.range (i / 8 - 1)).foldl (fun r _ => aesTwice r) 1, s.getD 1 0, s.getD 2 0, s.getD 3 0]
    else if i % 8 = 4 then t.map aesSub else t
  (List.range 4).map (fun k => (w.getD (i - 8) []).getD k 0 ^^^ t.getD k 0)

/-- The 60 words of the key schedule. -/
def aesKeys (key : List Byte) : List (List Nat) :=
  let k := (key ++ List.replicate 32 0).take 32
  let w0 := (List.range 8).map (fun i => ((k.drop (4 * i)).take 4).map BitVec.toNat)
  (List.range 52).foldl (fun w i => w ++ [aesNext (i + 8) w]) w0

/-- A round key added to the 16 bytes of the state. -/
def aesAdd (w : List (List Nat)) (r : Nat) (st : List Nat) : List Nat :=
  (List.range 16).map (fun i => st.getD i 0 ^^^ (w.getD (4 * r + i / 4) []).getD (i % 4) 0)

/-- Rows shifted. -/
def aesShift (st : List Nat) : List Nat := (List.range 16).map (fun i => st.getD ((i + 4 * (i % 4)) % 16) 0)

/-- Columns mixed. -/
def aesMix (st : List Nat) : List Nat :=
  (List.range 16).map (fun i =>
    let c := fun k => st.getD (i / 4 * 4 + (i + k) % 4) 0
    aesTwice (c 0) ^^^ aesTwice (c 1) ^^^ c 1 ^^^ c 2 ^^^ c 3)

/-- One block enciphered. -/
def aesBlock (w : List (List Nat)) (blk : List Nat) : List Nat :=
  let st := (List.range 13).foldl (fun st r => aesAdd w (r + 1) (aesMix (aesShift (st.map aesSub)))) (aesAdd w 0 blk)
  aesAdd w 14 (aesShift (st.map aesSub))

/-- A big-endian number of a list of bytes. -/
def beNat (bs : List Nat) : Nat := bs.foldl (fun a b => a * 256 + b) 0

/-- `n` big-endian bytes of a number. -/
def beBytes (n x : Nat) : List Nat := (List.range n).map (fun i => x / 256 ^ (n - 1 - i) % 256)

/-- The product of GHASH, over the bits of `x` from the first. -/
def ghMul (x y : Nat) : Nat :=
  ((List.range 128).foldl (fun (zv : Nat × Nat) i =>
    (if bitAt x (127 - i) then zv.1 ^^^ zv.2 else zv.1,
     if zv.2 % 2 = 1 then zv.2 / 2 ^^^ (0xE1 * 2 ^ 120) else zv.2 / 2)) (0, y)).1

/-- GHASH of a byte list padded to whole blocks. -/
def ghash (h y : Nat) (bs : List Nat) : Nat :=
  (List.range ((bs.length + 15) / 16)).foldl (fun y i =>
    ghMul (y ^^^ beNat (((bs.drop (16 * i)).take 16 ++ List.replicate 16 0).take 16)) h) y

/-- The key stream applied from counter 2 on. -/
def gcmCtr (w : List (List Nat)) (nonce : List Nat) (bs : List Nat) : List Nat :=
  (List.range ((bs.length + 15) / 16)).flatMap (fun i =>
    let ks := aesBlock w (nonce ++ beBytes 4 (i + 2))
    List.zipWith (fun a b => a ^^^ b) ((bs.drop (16 * i)).take 16) ks)

/-- The tag of a cipher text. -/
def gcmTag (w : List (List Nat)) (nonce aad ct : List Nat) : List Nat :=
  let h := beNat (aesBlock w (List.replicate 16 0))
  let y := ghash h (ghash h 0 aad) ct
  let y := ghMul (y ^^^ (aad.length * 8 * 2 ^ 64 + ct.length * 8)) h
  List.zipWith (fun a b => a ^^^ b) (beBytes 16 y) (aesBlock w (nonce ++ [0, 0, 0, 1]))

def toNats (bs : List Byte) : List Nat := bs.map BitVec.toNat
def ofNats (ns : List Nat) : List Byte := ns.map (BitVec.ofNat 8)

/-- Plain text to cipher text followed by the 16-byte tag. -/
def gcmSeal (key nonce aad plain : List Byte) : List Byte :=
  let w := aesKeys key
  let ct := gcmCtr w (toNats nonce) (toNats plain)
  ofNats (ct ++ gcmTag w (toNats nonce) (toNats aad) ct)

/-- Cipher text and tag to plain text; none where the tag fails. -/
def gcmOpen (key nonce aad sealed : List Byte) : Option (List Byte) :=
  if sealed.length < 16 then none
  else
    let w := aesKeys key
    let ct := toNats (sealed.take (sealed.length - 16))
    if toNats (sealed.drop (sealed.length - 16)) = gcmTag w (toNats nonce) (toNats aad) ct then
      some (ofNats (gcmCtr w (toNats nonce) ct)) else none

end Sys2Proof.Machine
end

