-- ==== Sys2Proof/Machine/ServeOps.lean ====
section
/-! DEFINITION. Shared operations of the serving engine: entries and channels (R341, R353), messages (R340-R349), service
queues (R382), budgets (R376), pages of entries (R292-R304), the norm watch (R272). -/

namespace Sys2Proof.Machine

/-- System time of deadlines and arrivals. -/
def State.sysTime (s : State) : Nat := s.sysClock

def State.entry (s : State) (e : Nat) : Entry := Tab.getD s.serve.entries e Entry.reset
def State.setEntry (s : State) (e : Nat) (x : Entry) : State :=
  { s with serve := { s.serve with entries := Tab.put s.serve.entries e Entry.reset x } }
def State.chan (s : State) (n : Nat) : Chan := Tab.getD s.serve.chans n Chan.reset
def State.setChan (s : State) (n : Nat) (c : Chan) : State :=
  { s with serve := { s.serve with chans := Tab.put s.serve.chans n Chan.reset c } }
def State.setKv (s : State) (k : Kv) : State := { s with kv := k }

/-- HBM address of an entry's area (R353). -/
def State.areaOf (s : State) (e : Nat) : Nat := s.rd .RT_AREA F.RT_AREA.addr * 2 ^ 22 + e * 2 ^ 22
/-- HBM address of the i-th ID of an entry's token area. -/
def State.tokAt (s : State) (e i : Nat) : Nat := s.areaOf e + 0x100000 + 4 * i
/-- HBM address of an entry's tree record. -/
def State.treeAt (s : State) (e : Nat) : Nat := s.areaOf e + 0x320000
/-- Where the pool manager keeps the scratch list of the entry's batch slot (R305, log entry 43). -/
def State.scratchListAt (s : State) (e : Nat) : Nat := s.areaOf e + 0x320200

/-- The ID at a position of an entry. -/
def State.tokenOf (s : State) (e i : Nat) : Nat := s.hbm.readNat (s.tokAt e i) 4
/-- `n` IDs from a position. -/
def State.tokensOf (s : State) (e i n : Nat) : List Nat := (List.range n).map (fun k => s.tokenOf e (i + k))

def Entry.flag (x : Entry) (i : Nat) : Bool := bitAt x.flags i
def Entry.setFlag (x : Entry) (i : Nat) (b : Bool) : Entry := { x with flags := setBits x.flags i i (b2n b) }
/-- Live states (R356). -/
def Entry.live (x : Entry) : Bool := decide (1 ≤ x.state) && decide (x.state ≤ 6)
def Entry.terminal (x : Entry) : Bool := decide (7 ≤ x.state) && decide (x.state ≤ 9)
/-- A software entry (R355). -/
def Entry.sw (x : Entry) : Bool := bitAt x.channel 15
/-- DEADLINE, ASM, NORM_JUMP, DEADLINE_VOID, MISSED, RETRIED, DISPATCHED, HELD (R354). -/
def fDeadline : Nat := 0
def fText : Nat := 1
def fTokenIn : Nat := 2
def fAsm : Nat := 3
def fNormJump : Nat := 4
def fVoid : Nat := 5
def fMissed : Nat := 6
def fRetried : Nat := 7
def fDispatched : Nat := 8
def fHeld : Nat := 9
/-- The step kind of a training service's entry (R354, R361). -/
def Entry.kind (x : Entry) : Nat := bits x.flags 13 12

/-- The hub that owns an entry (R19). -/
def hubOf (e : Nat) : Nat := e / 4096

/-- Is an entry among the software entries of its half (R355)? -/
def State.swEntry (s : State) (e : Nat) : Bool := decide (4096 ≤ e % 4096 + s.rd .RT_CTL F.RT_CTL.sw_entries) && decide (e < 8192)

/-- The entry's bytes (R353). -/
def Entry.bytes (x : Entry) : List Byte :=
  toBytes 1 (x.state % 16) ++ toBytes 1 (x.priority % 8) ++ toBytes 2 (x.customer % 1024 + x.service % 64 * 1024) ++ toBytes 2 x.epoch
    ++ toBytes 2 x.flags ++ toBytes 4 x.promptLen ++ toBytes 4 x.genLen ++ toBytes 4 x.maxLen ++ toBytes 4 x.pageCount
    ++ toBytes 8 x.pageList ++ toBytes 8 x.firstDl ++ toBytes 8 x.tokenDl ++ toBytes 8 x.arrival ++ toBytes 8 x.seed
    ++ toBytes 4 x.reqId ++ toBytes 2 x.channel ++ toBytes 2 x.topK ++ toBytes 2 x.temperature ++ toBytes 2 x.topP
    ++ toBytes 2 x.repPenalty ++ toBytes 1 x.endReason ++ toBytes 1 x.endCause ++ toBytes 4 x.prefillPos ++ toBytes 4 x.misses
    ++ toBytes 1 x.treeNodes ++ List.replicate 39 0

/-- A service's fields. -/
def State.svcOn (s : State) (sv : Nat) : Bool := s.on (.SVC_CTL sv) F.SVC_CTL.enable
def State.isDeadline (s : State) (sv : Nat) : Bool := s.on (.SVC_CFG sv) F.SVC_CFG.deadline
def State.maxBatch (s : State) (sv : Nat) : Nat := s.rd (.SVC_CFG sv) F.SVC_CFG.max_batch
def State.specLimit (s : State) (sv : Nat) : Nat := s.rd (.SVC_CFG sv) F.SVC_CFG.spec_limit
def State.prefillChunk (s : State) (sv : Nat) : Nat := max 1 (s.rd (.SVC_CFG sv) F.SVC_CFG.prefill_chunk)
def State.svcMaxLen (s : State) (sv : Nat) : Nat := s.rd (.SVC_LEN sv) F.SVC_LEN.max_len
def State.curEpoch (s : State) (sv : Nat) : Nat := s.rd (.EP_STAT sv) F.EP_STAT.cur
def State.oldEpoch (s : State) (sv : Nat) : Nat := s.rd (.EP_STAT sv) F.EP_STAT.old
def State.vocabOf (s : State) (sv : Nat) : Vocab := Tab.getD s.serve.vocabs (s.rd (.SVC_CFG sv) F.SVC_CFG.vocab) Vocab.empty

/-- A record written to a service's queue, or dropped (R382). -/
def State.svcRecord (s : State) (e kind arg index : Nat) : State :=
  let x := s.entry e
  let q := Reg.SVCQ x.service
  let tail := s.rd q F.SVCQ.tail
  if (tail + 1) % 256 = s.rd q F.SVCQ.head then s.bump q F.SVCQ.dropped 1
  else
    let b := toBytes 2 e ++ toBytes 1 kind ++ toBytes 1 arg ++ toBytes 4 index ++ toBytes 8 s.sysTime ++ toBytes 4 x.reqId
      ++ toBytes 2 x.customer ++ List.replicate 10 0
    let s := { s with hub := s.hub.write (0x100000 + x.service * 0x2000 + tail * 32) b }
    (s.wr q F.SVCQ.tail ((tail + 1) % 256)).raise ⟨0x200 + x.service, 0, x.service, 0xFFFF, []⟩

/-- RT_CHAN, RT_ADMIT and RT_REJECT (R383). -/
def rtEvent (n : Nat) : Raise := ⟨0x240 + n, 0x301 + n, 0xFFFF, 0xFFFF, []⟩

/-- A software write refused (R355). -/
def State.swReject (s : State) : State := (s.bump .RT_STAT F.RT_STAT.sw_reject 1).raise (rtEvent 2)

-- Messages

/-- The nonce of R342. -/
def nonceOf (n dir seq : Nat) : List Byte := toBytes 2 n ++ [0, 0] ++ toBytes 4 dir ++ toBytes 4 seq

/-- The datagram of a message (R340, R342, R343): header, body, tag. -/
def State.wire (s : State) (n : Nat) (c : Chan) (m : SentMsg) : List Byte :=
  let hdr := toBytes 1 1 ++ toBytes 1 m.typ ++ toBytes 2 (b2n c.prot) ++ toBytes 2 n ++ toBytes 2 m.body.length ++ toBytes 4 m.seq
    ++ toBytes 4 (c.rxNext - 1) ++ toBytes 4 m.reqId ++ toBytes 4 0
  if c.prot then hdr ++ gcmSeal (Tab.getD s.sec.keys c.keySlot []) (nonceOf n 1 m.seq) hdr m.body else hdr ++ m.body

/-- An enabled protected channel of a locked package: its frames are dropped (R520). -/
def State.lockedChan (s : State) (n : Nat) : Bool := s.on .SEC_STAT F.SEC_STAT.locked && (s.chan n).prot && (s.chan n).enabled

/-- A message put on the wire; it acknowledges all received so far (R343).  A protected channel without a usable key sends nothing
(R517, R520). -/
def State.transmit (s : State) (n : Nat) (m : SentMsg) : State :=
  let c := s.chan n
  if s.lockedChan n || (c.prot && (Tab.find? s.sec.keys c.keySlot).isNone) then s else (s.emit (.msg n (s.wire n c m))).setChan n { c with ackDue := none }

/-- The channel can take a new message (R342, R344). -/
def Chan.room (c : Chan) : Bool := c.enabled && decide (c.state = 0) && decide (c.sent.length < 1024)

/-- A channel enters REKEY when a sequence number reaches its end (R342). -/
def State.rekeyCheck (s : State) (n : Nat) : State :=
  let c := s.chan n
  if c.state = 0 ∧ (c.rxNext = 0xFFFFFFFF ∨ c.txNext = 0xFFFFFFFF) then (s.setChan n { c with state := 2 }).raise (rtEvent 0) else s

/-- A new message sent under the next sequence number (R343, R344). -/
def State.sendNow (s : State) (n typ reqId : Nat) (body : List Byte) : State :=
  let c := s.chan n
  let m : SentMsg := ⟨c.txNext, typ, reqId, body⟩
  let s := s.transmit n m
  (s.setChan n { s.chan n with txNext := c.txNext + 1, sent := c.sent ++ [m]
                               timer := if c.sent.isEmpty then some (s.time + c.rto * 1000) else c.timer }).rekeyCheck n

/-- Messages that waited for room are sent as long as there is room. -/
def State.flushChan (s : State) (n : Nat) : State :=
  (s.chan n).waiting.foldl (fun s m =>
    if (s.chan n).room then
      (s.setChan n { s.chan n with waiting := (s.chan n).waiting.drop 1 }).sendNow n m.1 m.2.1 m.2.2
    else s) s

/-- A message sent, or kept until the channel has room (R344). -/
def State.post (s : State) (n typ reqId : Nat) (body : List Byte) : State :=
  (s.setChan n { s.chan n with waiting := (s.chan n).waiting ++ [(typ, reqId, body)] }).flushChan n

/-- ERROR (R349). -/
def State.sendError (s : State) (n reqId code detail : Nat) : State :=
  s.post n 5 reqId (toBytes 2 code ++ toBytes 2 0 ++ toBytes 4 detail)

/-- END's body (R348). -/
def endBody (reason cause flags gen misses prompt : Nat) (text : List Byte) : List Byte :=
  toBytes 1 reason ++ toBytes 1 cause ++ toBytes 2 flags ++ toBytes 4 gen ++ toBytes 4 misses ++ toBytes 4 prompt ++ text

-- Budgets

/-- A customer's level refilled to the present (R376); how a refill that is no whole 1/256 token is rounded is left free
(log entry 44). -/
def State.budLevel (s : State) (c : Nat) : Int :=
  let cap : Int := s.rd (.BUD_CFG c) F.BUD_CFG.burst * 256
  if s.rd (.BUD_CFG c) F.BUD_CFG.rate = 0xFFFFFFFF then cap
  else
    let num := s.rd (.BUD_CFG c) F.BUD_CFG.rate * 256 * (s.sysTime - Tab.getD s.serve.budAt c 0)
    let up : Nat := if num % 1000000000 = 0 then 0 else Config.freeValue 376 s.free % 2
    min cap (sext 40 (s.rd (.BUD_STAT c) F.BUD_STAT.level) + (num / 1000000000 + up : Nat))

/-- A customer's level set, as of now. -/
def State.setLevel (s : State) (c : Nat) (l : Int) : State :=
  let s := s.wr (.BUD_STAT c) F.BUD_STAT.level (toCode 40 l)
  { s with serve := { s.serve with budAt := Tab.put s.serve.budAt c 0 s.sysTime } }

/-- Tokens charged to a customer (R376). -/
def State.charge (s : State) (c n : Nat) : State :=
  let l := s.budLevel c
  let s := s.setLevel c (if s.rd (.BUD_CFG c) F.BUD_CFG.rate = 0xFFFFFFFF then l else l - n * 256)
  { s.bump (.BUD_STAT c) F.BUD_STAT.charged n with free := s.free + 1 }

-- Pages of entries

/-- Page k of an entry's list (R290): 0xFFFF_FFFF beyond the entries in use. -/
def State.listPage (s : State) (x : Entry) (k : Nat) : Nat :=
  if k < x.pageCount then s.hbm.readNat (x.pageList + 4 * k) 4 else 0xFFFFFFFF

/-- A list entry written. -/
def State.setList (s : State) (e k page : Nat) : State :=
  let x := s.entry e
  (s.hbmWrite (x.pageList + 4 * k) (toBytes 4 page) false).setEntry e { x with pageCount := max x.pageCount (k + 1) }

/-- Reservations of a service not yet drawn (R22, R292). -/
def State.outstanding (s : State) (sv : Nat) : Nat :=
  Tab.getD s.kv.reserved sv 0 - ((s.serve.entries.filter (fun p => decide (p.2.service = sv))).map (fun p => p.2.pageCount)).sum

/-- Free pages beyond the reservations outstanding. -/
def State.freeBeyond (s : State) (sv : Nat) : Nat := (s.freeList sv).length - s.outstanding sv

/-- PFX_STAT.entries follows the table (R310). -/
def State.setPfx (s : State) (l : List Pfx) : State :=
  (s.setKv { s.kv with pfx := l }).wr .PFX_STAT F.PFX_STAT.entries l.length

/-- A prefix entry removed: entries whose predecessor it was are never hit again (R304). -/
def State.removePfx (s : State) (i : Nat) : State :=
  match s.kv.pfx[i]? with
  | none => s
  | some p =>
    let l := (s.kv.pfx.eraseIdx i).map (fun q => if q.before = p.chain ∧ q.service = p.service then { q with before := 2 ^ 64 } else q)
    (s.setPfx l).bump .PFX_STAT F.PFX_STAT.evictions 1

/-- The better of two candidates for release (R304): of another epoch first, then the least recently used. -/
def pfxWorse (cur : Nat) (a b : Nat × Pfx) : Nat × Pfx :=
  let o := fun (p : Pfx) => decide (p.epoch ≠ cur)
  if o a.2 && !o b.2 then a else if o b.2 && !o a.2 then b else if b.2.used < a.2.used then b else a

/-- The prefix entry released first among those that `ok` admits and whose page only the table holds. -/
def State.pfxVictim (s : State) (cur : Nat) (ok : Pfx → Bool) : Option Nat :=
  let l := ((List.range s.kv.pfx.length).zip s.kv.pfx).filter (fun p => ok p.2 && decide ((s.page p.2.service p.2.page).refs = 1))
  match l with
  | [] => none
  | a :: t => some (t.foldl (pfxWorse cur) a).1

/-- A prefix entry and its page released. -/
def State.releasePfx (s : State) (i : Nat) : State :=
  match s.kv.pfx[i]? with
  | none => s
  | some p => (s.removePfx i).dropRef p.service p.page

/-- Prefix entries of a service released one at a time until `n` pages are free beyond the reservations (R304). -/
def State.makeRoom (s : State) (sv n : Nat) : Nat → State
  | 0 => s
  | fuel + 1 =>
    if n ≤ s.freeBeyond sv then s
    else match s.pfxVictim (s.curEpoch sv) (fun p => decide (p.service = sv)) with
      | none => s
      | some i => State.makeRoom (s.releasePfx i) sv n fuel

/-- The epoch field of a page drawn at place k of a list (R293). -/
def State.pageEpoch (s : State) (e k epoch : Nat) : Nat :=
  let x := s.entry e
  if k = 0 then epoch else if (s.page x.service (s.listPage x (k - 1))).epoch = epoch then epoch else 0xFFFF

/-- A page drawn for place k of an entry's list (R292); none left: unchanged. -/
def State.drawAt (s : State) (e k epoch : Nat) : State :=
  match s.drawPage (s.entry e).service 1 0 (s.pageEpoch e k epoch) with
  | none => s
  | some (s, x) => s.setList e k x

/-- The list places that positions p to p + n - 1 reach. -/
def placesOf (pt p n : Nat) : List Nat := if n = 0 then [] else (List.range ((p + n - 1) / pt + 1 - p / pt)).map (fun i => p / pt + i)

/-- The places among them without a page. -/
def State.missing (s : State) (e p n : Nat) : List Nat :=
  let x := s.entry e
  (placesOf (s.pageTokens x.service) p n).filter (fun k => decide (s.listPage x k = 0xFFFFFFFF))

/-- One reference of a page of a list given up (R303). -/
def State.giveUp (s : State) (sv page : Nat) : State :=
  let d := s.page sv page
  if bitAt d.flags 0 && decide (d.refs = 2) && decide ((s.freeList sv).length < s.outstanding sv) then
    match s.kv.pfx.findIdx? (fun p => decide (p.service = sv) && decide (p.page = page)) with
    | none => s.dropRef sv page
    | some i => ((s.removePfx i).dropRef sv page).dropRef sv page
  else s.dropRef sv page

/-- Every page of an entry's list loses one reference (R303, R357); sealings and copies of the entry are abandoned
(R298). -/
def State.releasePages (s : State) (e : Nat) : State :=
  let x := s.entry e
  let pages := (List.range x.pageCount).map (s.listPage x)
  let mine := s.kv.seals.filter (fun q => decide (q.service = x.service) && decide (q.entry = e))
  let cps := s.kv.copies.filter (fun q => decide (q.entry = e))
  let s := s.setKv { s.kv with seals := s.kv.seals.filter (fun q => !(decide (q.service = x.service) && decide (q.entry = e)))
                               copies := s.kv.copies.filter (fun q => decide (q.entry ≠ e))
                               commits := s.kv.commits.filter (fun q => decide (q.entry ≠ e)) }
  let s := mine.foldl (fun s q => s.freePage x.service q.target) s
  let s := cps.foldl (fun s q => s.dropRef x.service q.new) s
  let s := s.setEntry e { s.entry e with pageCount := 0 }
  let s := (List.range pages.length).foldl (fun s k => s.hbmWrite (x.pageList + 4 * k) (toBytes 4 0xFFFFFFFF) false) s
  pages.foldl (fun s p => if p = 0xFFFFFFFF then s else s.giveUp x.service p) s

/-- An entry returns to FREE: every field zero (R357). -/
def State.freeEntry (s : State) (e : Nat) : State := (s.releasePages e).setEntry e Entry.reset

/-- What still uses a service's old epoch (R403, R404, R410): steps in flight under STEP, live entries under PIN. -/
def State.usesOld (s : State) (sv : Nat) : Nat :=
  let old := s.oldEpoch sv
  if old = 0 then 0
  else if s.on (.SVC_CFG sv) F.SVC_CFG.epoch_pol then
    s.serve.entries.countP (fun p => p.2.live && decide (p.2.service = sv) && decide (p.2.epoch = old) && (decide (p.2.state ≠ 1) || p.2.flag fRetried))
  else s.serve.steps.countP (fun r => decide (r.service = sv) && decide (r.epoch = old))

/-- EP_STAT_s.live_old follows (R410). -/
def State.countOld (s : State) (sv : Nat) : State := s.wr (.EP_STAT sv) F.EP_STAT.live_old (min (s.usesOld sv) 65535)

/-- An entry enters a terminal state (R356, R357, R382): its pages go at once unless writes of its last step are open. -/
def State.endEntry (s : State) (e st reason cause : Nat) : State :=
  let x := s.entry e
  let s := s.setEntry e { (x.setFlag fDispatched false) with state := st, endReason := reason, endCause := cause }
  let s := if st = 9 then s.svcRecord e 5 cause x.genLen else s
  let s := if x.sw then s.svcRecord e 2 reason x.genLen else s
  let s := { s with serve := { s.serve with
    steps := s.serve.steps.map (fun (r : StepRun) => { r with uncommitted := r.uncommitted.filter (fun y => decide (y ≠ e)) })
    samplers := Tab.erase s.serve.samplers e } }
  let s := s.countOld x.service
  if x.step.isNone then s.releasePages e else s

-- The norm watch

/-- Hub SRAM offset of a watch entry (R269). -/
def nwAddr (sv layer kind : Nat) : Nat := 0x3FE0000 + ((sv * 128 + layer) * 2 + kind) * 8

/-- A cell of the norm watch written: average, updates, consecutive jumps, seeded (R271). -/
def State.nwPut (s : State) (a flags avg ups cons : Nat) (seeded : Bool) : State :=
  { s with hub := s.hub.write a (toBytes 4 avg ++ toBytes 2 ups ++ toBytes 1 cons ++ toBytes 1 (setBits flags 0 0 (b2n seeded))) }

/-- A jump counted and raised (R272): a norm's flags the request, a gradient norm's withholds the next update step. -/
def State.nwJump (s : State) (sv layer kind v e avg : Nat) : State :=
  if kind = 0 then
    let s := (s.bump (.NW_STAT sv) F.NW_STAT.jumps 1).raise ⟨0x280 + sv, 0x304, sv, 0xFFFF, [layer, e, v, avg]⟩
    let s := s.setEntry e ((s.entry e).setFlag fNormJump true)
    s.svcRecord e 4 0 (s.entry e).genLen
  else
    let s := (s.bump (.NW_STAT sv) F.NW_STAT.grad_skips 1).raise ⟨0x280 + sv, 0x305, sv, 0xFFFF, [layer, v, avg]⟩
    { s with serve := { s.serve with withheld := insertNat s.serve.withheld sv } }

/-- An update applied (R272); `e` is the entry of an activation update. -/
def State.nwApply (s : State) (sv layer kind v e : Nat) : State :=
  let r := Reg.NW_CTL sv
  if !s.on r (if kind = 0 then F.NW_CTL.enable else F.NW_CTL.grad_en) then s
  else
    let a := nwAddr sv layer kind
    let avg := s.hub.readNat a 4
    let ups := s.hub.readNat (a + 4) 2
    let cons := (s.hub.byte (a + 6)).toNat
    let flags := (s.hub.byte (a + 7)).toNat
    let seeded := bitAt flags 0
    let warm := max 1 (s.rd r F.NW_CTL.warmup)
    let lt := fun (x y : Nat) => decide (fcmp (f32 x) (f32 y) = some .lt)
    let ex := bits avg 30 23
    let test := seeded && decide (warm ≤ ups) && !bitAt avg 31 && decide (1 ≤ ex) && decide (ex ≤ 254)
    let jump := lt v 0 || decide (bits v 30 0 = 0x7F800000)
      || (test && (lt (mulF avg ((127 + s.rd r F.NW_CTL.up + 1) * 2 ^ 23)) v || lt v (mulF avg ((127 - (s.rd r F.NW_CTL.down + 1)) * 2 ^ 23))))
    if jump then
      let s := s.nwJump sv layer kind v e avg
      if warm ≤ cons + 1 then
        ((s.nwPut a flags avg ups 0 false).bump (.NW_STAT sv) F.NW_STAT.reseeds 1).raise ⟨0x280 + sv, 0x306, sv, 0xFFFF, [layer, kind]⟩
      else s.nwPut a flags avg ups (cons + 1) seeded
    else if !seeded then s.nwPut a flags v 1 0 true
    else s.nwPut a flags (fmaF (subF v avg) ((127 - (s.rd r F.NW_CTL.alpha + 1)) * 2 ^ 23) avg) (min (ups + 1) 65535) 0 true

/-- The norm watch of a service cleared (R273): seeded flags and counts. -/
def State.nwClear (s : State) (sv : Nat) : State :=
  (List.range 256).foldl (fun s i =>
    let a := 0x3FE0000 + (sv * 256 + i) * 8
    let f := (s.hub.byte (a + 7)).toNat
    { s with hub := (s.hub.write (a + 4) [0, 0, 0]).setByte (a + 7) (BitVec.ofNat 8 (setBits f 0 0 0)) }) s

end Sys2Proof.Machine
end

