-- ==== Sys2Proof/Machine/Pages.lean ====
section
/-! DEFINITION. The pool manager's work on entries: prefix sharing (R300, R301), copies (R302, R306), sealing (R295-R298), page
exhaustion (R379, R380). -/

namespace Sys2Proof.Machine

/-- The chain value after page k (R300). -/
def chainNext (h sv epoch fill : Nat) (toks : List Nat) : Nat :=
  ofBytes (shake128 (toBytes 8 h ++ toBytes 1 sv ++ toBytes 2 epoch ++ toBytes 2 fill ++ toks.flatMap (toBytes 4)) 8)

/-- The token record of a page (R294). -/
def State.recordOf (s : State) (sv page n : Nat) : List Nat := (List.range n).map (fun i => s.hbm.readNat (s.tokenAddr sv page i) 4)

/-- The prefix entry that a lookup of page k hits (R301). -/
def State.pfxHit (s : State) (sv epoch h fill : Nat) (part : Bool) (toks : List Nat) : Option Nat :=
  let c := chainNext h sv epoch fill toks
  s.kv.pfx.findIdx? (fun p => decide (p.chain = c) && decide (p.before = h) && decide (p.service = sv) && decide (p.epoch = epoch)
    && decide (p.fill = fill) && decide (p.part = part) && decide (s.recordOf sv p.page fill = toks))

/-- A hit written into the request's list. -/
def State.takeHit (s : State) (e k i : Nat) : State :=
  match s.kv.pfx[i]? with
  | none => s
  | some p =>
    let d := s.page p.service p.page
    let s := s.setPage p.service p.page { d with refs := d.refs + 1 }
    let s := s.setKv { s.kv with pfx := setNth s.kv.pfx i { p with used := s.kv.uses + 1 }, uses := s.kv.uses + 1 }
    (s.bump .PFX_STAT F.PFX_STAT.hits 1).setList e k p.page

/-- Full pages looked up in turn: the state, the pages hit, the chain value. -/
def State.lookFull (e sv epoch n pt : Nat) : Nat → State → Nat → Nat → State × Nat × Nat
  | 0, s, k, h => (s, k, h)
  | fuel + 1, s, k, h =>
    if (k + 1) * pt + 1 ≤ n then
      let toks := s.tokensOf e (k * pt) pt
      match s.pfxHit sv epoch h pt false toks with
      | none => (s, k, h)
      | some i => State.lookFull e sv epoch n pt fuel (s.takeHit e k i) (k + 1) (chainNext h sv epoch pt toks)
    else (s, k, h)

/-- The prefix lookup of a prompt of `n` positions (R301): prefill starts after the last position hit. -/
def State.lookup (s : State) (e epoch n : Nat) : State :=
  let sv := (s.entry e).service
  let pt := s.pageTokens sv
  if !(s.on (.KV_POOL_CFG sv) F.KV_POOL_CFG.share_en) || !s.poolOn sv || decide (n = 0) then s
  else
    let r := State.lookFull e sv epoch n pt (n / pt + 1) s 0 0
    let s := r.1
    let k := r.2.1
    let fill := n - 1 - k * pt
    let toks := s.tokensOf e (k * pt) fill
    match (if fill = 0 ∨ pt ≤ fill then none else s.pfxHit sv epoch r.2.2 fill true toks) with
    | some i =>
      let s := s.takeHit e k i
      s.setEntry e { s.entry e with prefillPos := k * pt + fill }
    | none =>
      let s := if k = 0 then s.bump .PFX_STAT F.PFX_STAT.misses 1 else s
      s.setEntry e { s.entry e with prefillPos := k * pt }

/-- The chain value before page k of an entry's list (R300), under the epoch of its pages. -/
def State.chainAt (s : State) (e sv epoch pt : Nat) : Nat → Nat
  | 0 => 0
  | k + 1 => chainNext (State.chainAt s e sv epoch pt k) sv epoch pt (s.tokensOf e (k * pt) pt)

/-- Page k of an entry's list registered (R300, R304). -/
def State.register (s : State) (e k fill : Nat) (part : Bool) : State :=
  let x := s.entry e
  let sv := x.service
  let pt := s.pageTokens sv
  let page := s.listPage x k
  let d := s.page sv page
  let ok := s.on (.KV_POOL_CFG sv) F.KV_POOL_CFG.share_en && s.poolOn sv && decide (page ≠ 0xFFFFFFFF) && decide (d.epoch ≠ 0xFFFF)
    && !bitAt d.flags 2 && !bitAt d.flags 0 && decide (fill ≠ 0)
    && (List.range k).all (fun j => bitAt (s.page sv (s.listPage x j)).flags 0)
  if !ok then s
  else
    let room : Option State := if s.kv.pfx.length < 16384 then some s
      else (s.pfxVictim 0x10000 (fun p => decide (p.page ≠ page) || decide (p.service ≠ sv))).map s.releasePfx
    match room with
    | none => s
    | some s =>
      let h := s.chainAt e sv d.epoch pt k
      let c := chainNext h sv d.epoch fill (s.tokensOf e (k * pt) fill)
      let s := s.setPage sv page { d with refs := d.refs + 1, flags := setBits (setBits d.flags 0 0 1) 1 1 (b2n part) }
      let s := s.setPfx (s.kv.pfx ++ [⟨c, h, sv, d.epoch, page, fill, part, s.kv.uses + 1⟩])
      s.setKv { s.kv with uses := s.kv.uses + 1 }

/-- A full page's sealing attempted (R295). -/
def State.trySeal (s : State) (e k : Nat) : State :=
  let x := s.entry e
  let sv := x.service
  let page := s.listPage x k
  let d := s.page sv page
  if d.state = 1 ∧ d.refs = 1 ∧ !bitAt d.flags 2 then
    if s.on (.KV_POOL_CFG sv) F.KV_POOL_CFG.seal_en && decide (1 ≤ s.freeBeyond sv) then
      match s.drawPage sv 2 0 d.epoch with
      | none => s.bump (.KV_POOL_STAT sv) F.KV_POOL_STAT.seal_skip 1
      | some (s, t) =>
        let s := s.setPage sv page { d with state := 2, link := t }
        s.setKv { s.kv with seals := s.kv.seals ++ [⟨sv, e, k, page, t, false⟩] }
    else s.bump (.KV_POOL_STAT sv) F.KV_POOL_STAT.seal_skip 1
  else s

/-- KV writes of positions p to p + n - 1 complete: fill advances, full pages seal (R294, R295). -/
def State.advanceFill (s : State) (e p n : Nat) : State :=
  let sv := (s.entry e).service
  let pt := s.pageTokens sv
  (placesOf pt p n).foldl (fun s k =>
    let page := s.listPage (s.entry e) k
    if page = 0xFFFFFFFF then s
    else
      let d := s.page sv page
      let f := max d.fill (min pt (p + n - k * pt))
      let s := s.setPage sv page { d with fill := f }
      if f = pt ∧ d.fill < pt then s.trySeal e k else s) s

/-- The token record of positions p to p + n - 1 written where their pages are drawn (R294). -/
def State.recordTokens (s : State) (e p n : Nat) : State :=
  let x := s.entry e
  let pt := s.pageTokens x.service
  (List.range n).foldl (fun s i =>
    let page := s.listPage x ((p + i) / pt)
    if page = 0xFFFFFFFF ∨ !s.poolOn x.service then s
    else s.hbmWrite (s.tokenAddr x.service page ((p + i) % pt)) (toBytes 4 (s.tokenOf e (p + i))) false) s

/-- Bytes copied within HBM by the copy engine, poison with its sector (R302, R306). -/
def State.copyHbm (s : State) (src dst n : Nat) : State :=
  (List.range (n / 64)).foldl (fun s i =>
    s.hbmWrite (dst + 64 * i) (s.hbm.read (src + 64 * i) 64) (s.hbm.isPoison (src / 64 + i))) s

/-- COPY_ON_WRITE (R302): a shared OPEN page copied, the list entry written, the old page's reference given up. -/
def execCopyOnWrite (idx : Nat) (s : State) : Res :=
  match s.kv.copies[idx]? with
  | none => .next s
  | some c =>
    let s := s.copyHbm (s.pageAddr c.service c.old) (s.pageAddr c.service c.new) (s.pageBytes c.service)
    let d := s.page c.service c.old
    let n := s.page c.service c.new
    let s := s.setPage c.service c.new { n with fill := d.fill, epoch := d.epoch }
    let s := (List.range d.fill).foldl (fun s i =>
      s.hbmWrite (s.tokenAddr c.service c.new i) (s.hbm.read (s.tokenAddr c.service c.old i) 4) false) s
    let s := (s.setList c.entry c.idx c.new).dropRef c.service c.old
    let s := s.setKv { s.kv with copies := s.kv.copies.eraseIdx idx }
    .next (s.bump (.KV_POOL_STAT c.service) F.KV_POOL_STAT.cow 1)

/-- The sealed image of a page: sectors transposed and coded, 64 to a block (R296). -/
def State.sealImage (s : State) (q : Sealing) : State :=
  let sv := q.service
  let src := s.pageAddr sv q.source
  let dst := s.pageAddr sv q.target
  let pt := s.pageTokens sv
  let sect := s.posStride sv / 64
  let n := sect * pt
  let lens := s.kvTable (dst / 2 ^ 37) sv
  let sector := fun (j : Nat) => if j < n then s.hbm.read (src + j % pt * s.posStride sv + j / pt * 64) 64 else List.replicate 64 0
  let bad := fun (j : Nat) => decide (j < n) && s.hbm.isPoison ((src + j % pt * s.posStride sv + j / pt * 64) / 64)
  (List.range ((n + 63) / 64)).foldl (fun s b =>
    let raw := (List.range 64).flatMap (fun i => sector (64 * b + i))
    let r := encodeBlock lens sv raw
    let s := s.hbmWrite (dst + b * 4096) r.2 ((List.range 64).any (fun i => bad (64 * b + i)))
    s.setKv { s.kv with hdrs := Tab.set s.kv.hdrs (dst + b * 4096) r.1 }) s

/-- SEAL_IMAGE_DONE (R296). -/
def execSealImageDone (idx : Nat) (s : State) : Res :=
  match s.kv.seals[idx]? with
  | none => .next s
  | some q =>
    if q.ready then .next s
    else
      let s := s.sealImage q
      .next (s.setKv { s.kv with seals := setNth s.kv.seals idx { q with ready := true } })

/-- SEAL_SWAP (R298, R300): the list entry takes the sealed target, the source becomes FREE, the page is registered. -/
def execSealSwap (idx : Nat) (s : State) : Res :=
  match s.kv.seals[idx]? with
  | none => .next s
  | some q =>
    if !q.ready || (s.entry q.entry).flag fDispatched then .next s
    else
      let d := s.page q.service q.source
      let s := s.setKv { s.kv with seals := s.kv.seals.eraseIdx idx }
      let s := s.setList q.entry q.idx q.target
      let s := s.setPage q.service q.target { d with state := 3, link := 0xFFFFFFFF }
      .next ((s.freePage q.service q.source).register q.entry q.idx (s.pageTokens q.service) false)

/-- Posted writes of a step still open (R24): facets' posted operations, reports on their way, commit copies. -/
def State.kvOpen (s : State) (sv n : Nat) (copies : Bool) : Bool :=
  s.facets.any (fun p => decide (s.rd (.FAC_BIND p.1) F.FAC_BIND.service = sv) && p.2.core.mq.any (fun o => o.posted && decide (o.step = some n)))
    || s.serve.kvReports.contains (sv, n)
    || (copies && s.kv.commits.any (fun c => decide (c.service = sv) && decide (c.step = n)))

/-- A page waits: PAGE_WAIT, its timer started (R379). -/
def State.pageWait (s : State) (e : Nat) : State :=
  s.setEntry e { s.entry e with state := 5, waitFrom := s.time }

/-- COMMIT_COPY (R306): once the scratch writes are complete, pages are drawn and the accepted positions copied. -/
def execCommitCopy (idx : Nat) (s : State) : Res :=
  match s.kv.commits[idx]? with
  | none => .next s
  | some c =>
    let x := s.entry c.entry
    let r := s.serve.steps.find? (fun r => decide (r.service = c.service) && decide (r.step = c.step))
    let quiet := (match r with | some r => r.wait.isEmpty | none => true) && !s.kvOpen c.service c.step false
    if !quiet then .next s
    else
      let n := c.slots.length
      let need := (s.missing c.entry c.pos n).length
      let s := if s.isDeadline c.service then s else s.makeRoom c.service need (s.kv.pfx.length + 1)
      if !s.isDeadline c.service && decide (s.freeBeyond c.service < need) || decide ((s.freeList c.service).length < need) then
        .next (if x.state = 3 then s.pageWait c.entry else s)
      else
        let s := (s.missing c.entry c.pos n).foldl (fun s k => s.drawAt c.entry k x.epoch) s
        let pt := s.pageTokens c.service
        let stride := s.posStride c.service
        let place := (match r with | some r => (r.places.find? (fun (p : Nat × Nat) => decide (p.1 = c.entry))).map Prod.snd | none => none).getD 0
        let scratch := Tab.getD s.kv.scratch (c.service * 64 + place) []
        let s := ((List.range n).zip c.slots).foldl (fun s p =>
          let page := s.listPage (s.entry c.entry) ((c.pos + p.1) / pt)
          s.copyHbm (s.pageAddr c.service (scratch.getD (p.2 / pt) 0) + p.2 % pt * stride)
            (s.pageAddr c.service page + (c.pos + p.1) % pt * stride) stride) s
        let s := s.recordTokens c.entry c.pos n
        .next (s.setKv { s.kv with commits := s.kv.commits.eraseIdx idx })

/-- The order of R359 between two entries: deadline entries by their pending deadline, then priority, arrival, number. -/
def entryBefore (a b : Nat × Entry) : Bool :=
  let dl := fun (x : Entry) => if x.genLen = 0 then x.firstDl else x.tokenDl
  let d := fun (x : Entry) => x.flag fDeadline
  let late := decide (a.2.arrival < b.2.arrival) || (decide (a.2.arrival = b.2.arrival) && decide (a.1 < b.1))
  if d a.2 && !d b.2 then true
  else if d b.2 && !d a.2 then false
  else if d a.2 then decide (dl a.2 < dl b.2) || (decide (dl a.2 = dl b.2) && late)
  else decide (b.2.priority < a.2.priority) || (decide (a.2.priority = b.2.priority) && late)

/-- An entry put at its place in the order. -/
def insertEntry (a : Nat × Entry) : List (Nat × Entry) → List (Nat × Entry)
  | [] => [a]
  | b :: t => if entryBefore a b then a :: b :: t else b :: insertEntry a t

def orderEntries (l : List (Nat × Entry)) : List (Nat × Entry) := l.foldr insertEntry []

/-- The first entry of a service, in the order of R359, in a state. -/
def State.firstIn (s : State) (sv st : Nat) : Option Nat :=
  ((orderEntries (s.serve.entries.filter (fun p => decide (p.2.service = sv) && decide (p.2.state = st)))).head?).map Prod.fst

/-- The state a granted entry returns to (R356). -/
def Entry.granted (x : Entry) : Nat := if x.genLen = 0 ∨ x.prefillPos + 1 < x.promptLen + x.genLen then 2 else 3

/-- The first position whose page an entry awaits. -/
def Entry.nextPos (x : Entry) : Nat := if x.granted = 2 then x.prefillPos else x.promptLen + x.genLen - 1

/-- PAGE_GRANT (R379): a free page is granted to the first waiting entry of the service. -/
def execPageGrant (e : Nat) (s : State) : Res :=
  let x := s.entry e
  if x.state ≠ 5 ∨ s.firstIn x.service 5 ≠ some e then .next s
  else
    let s := s.makeRoom x.service 1 (s.kv.pfx.length + 1)
    if s.freeBeyond x.service = 0 then .next s
    else
      let k := x.nextPos / s.pageTokens x.service
      let s := if s.listPage x k = 0xFFFFFFFF then s.drawAt e k x.epoch else s
      .next (s.setEntry e { s.entry e with state := x.granted, waitFrom := 0 })

/-- Preemption (R380). -/
def State.preempt (s : State) (e : Nat) : State :=
  let s := s.releasePages e
  let x := s.entry e
  (s.setEntry e { x with state := 6, prefillPos := 0 }).bump (.SVC_MISS x.service) F.SVC_MISS.preempted 1

/-- The worse of two candidates for preemption (R380): lower priority, then later arrival, then higher number. -/
def victimOf (a b : Nat × Entry) : Nat × Entry :=
  if b.2.priority < a.2.priority then b
  else if a.2.priority < b.2.priority then a
  else if a.2.arrival < b.2.arrival then b
  else if b.2.arrival < a.2.arrival then a
  else if a.1 < b.1 then b else a

/-- PAGE_WAIT_TIMER (R380): a victim is preempted, or the timer reloaded. -/
def execPageWaitTimer (e : Nat) (s : State) : Res :=
  let x := s.entry e
  if x.state ≠ 5 ∨ s.time < x.waitFrom + s.rd (.SVC_CFG x.service) F.SVC_CFG.pw_limit * 16000 then .next s
  else
    let l := s.serve.entries.filter (fun p => decide (p.2.service = x.service) && !p.2.flag fDeadline && decide (p.2.pageCount ≠ 0)
      && !p.2.flag fDispatched && p.2.step.isNone && (decide (p.2.state = 2) || decide (p.2.state = 3) || decide (p.2.state = 5)))
    let s := s.setEntry e { x with waitFrom := s.time }
    match l with
    | [] => .next s
    | a :: t => .next (s.preempt (t.foldl victimOf a).1)

/-- RESUME_PREEMPTED (R380): enough free pages exist; the entry resumes in PREFILL after the prefix lookup. -/
def execResumePreempted (e : Nat) (s : State) : Res :=
  let x := s.entry e
  let pt := s.pageTokens x.service
  let n := x.promptLen + x.genLen
  if x.state ≠ 6 ∨ s.firstIn x.service 6 ≠ some e ∨ s.freeBeyond x.service < (n + pt - 1) / pt + 1 then .next s
  else
    let ep := if s.on (.SVC_CFG x.service) F.SVC_CFG.epoch_pol then x.epoch else s.curEpoch x.service
    let s := s.setEntry e { x with state := 2, prefillPos := 0, waitFrom := 0 }
    .next (s.lookup e ep n)

end Sys2Proof.Machine
end

