-- ==== Sys2Proof/Machine/Sampling.lean ====
section
/-! DEFINITION. The sampler unit (R364, R365, R368): FP32 throughout. -/

namespace Sys2Proof.Machine

/-- The correctly rounded FP32 quotient. -/
def divF (a b : Nat) : Nat :=
  match f32 a, f32 b with
  | .nan, _ => 0x7FC00000
  | _, .nan => 0x7FC00000
  | .inf _, .inf _ => 0x7FC00000
  | .inf x, .fin y _ _ => if x != y then 0xFF800000 else 0x7F800000
  | .fin x _ _, .inf y => if x != y then 0x80000000 else 0
  | .fin x ma ea, .fin y mb eb =>
    let sg := fp32.signBit (x != y)
    if mb = 0 then (if ma = 0 then 0x7FC00000 else sg + 0x7F800000)
    else if ma = 0 then sg
    else
      let q := ma * 2 ^ 64 / mb
      sg + min (fp32.codeRne (2 * q + (if ma * 2 ^ 64 % mb = 0 then 0 else 1)) (ea - eb - 65)) fp32.maxCode

/-- A logit as the sampler takes it: NaN as −∞, +∞ as the largest finite value. -/
def logitOf (c : Nat) : Nat := if isNan32 c then 0xFF800000 else if c = 0x7F800000 then 0x7F7FFFFF else c

/-- The order of FP32 values, both zeros alike. -/
def fpKey (c : Nat) : Int := if c < 2 ^ 31 then (c : Int) else -((c - 2 ^ 31 : Nat) : Int)

/-- A candidate put at its place: larger logit first, lower ID first on ties. -/
def insertCand (a : Nat × Nat) : List (Nat × Nat) → List (Nat × Nat)
  | [] => [a]
  | b :: t => if fpKey b.2 < fpKey a.2 ∨ (fpKey b.2 = fpKey a.2 ∧ a.1 < b.1) then a :: b :: t else b :: insertCand a t

/-- Candidates (ID, logit) in descending order. -/
def sortCands (l : List (Nat × Nat)) : List (Nat × Nat) := l.foldr insertCand []

/-- Running sums in order. -/
def runSums : Nat → List Nat → List Nat
  | _, [] => []
  | a, w :: t => addF a w :: runSums (addF a w) t

/-- A BF16 field widened to FP32. -/
def wideBf (x : Nat) : Nat := x * 2 ^ 16

/-- The draw value (R365). -/
def drawU (seed req pos : Nat) : Nat :=
  let x := ofBytes (shake128 (toBytes 8 seed ++ toBytes 4 req ++ toBytes 4 pos ++ toBytes 4 0) 8)
  let m := x / 2 ^ 40
  if m = 0 then 0 else fp32.codeRne m (-24)

/-- What the sampler finds: a token, or the cause of failure. -/
inductive Sampled where
  | token (t : Nat)
  | fail (cause : Nat)
  deriving DecidableEq, Repr

/-- sample(z, e, pos) of R364.  `ids` are the distinct IDs of the positions before; `free` decides the one draw that
rounding leaves without an index (log entry 45). -/
def sampleTok (z : List Nat) (ids : List Nat) (tau topP topK rho seed req pos free : Nat) : Sampled :=
  let z := z.map logitOf
  let cs := ((List.range z.length).zip z).map (fun p =>
    if ids.contains p.1 then (p.1, if 0 < fpKey p.2 then divF p.2 (wideBf rho) else mulF p.2 (wideBf rho)) else p)
  let c := sortCands cs
  match c with
  | [] => .fail 3
  | c0 :: _ =>
    if c0.2 = 0xFF800000 then .fail 3
    else if bits tau 14 0 = 0 then .token c0.1
    else
      let kk := if topK = 0 then 1024 else topK
      let c := c.take kk
      let g := divF 0x3FB8AA3B (wideBf tau)
      let w := c.map (fun p => exp2F (mulF (subF p.2 c0.2) g))
      let s := runSums 0 w
      let ge := fun (a b : Nat) => decide (fcmp (f32 a) (f32 b) = some .gt) || decide (fcmp (f32 a) (f32 b) = some .eq)
      let lim := mulF (wideBf topP) (s.getD (s.length - 1) 0)
      match s.findIdx? (fun x => ge x lim) with
      | none => .token ((c.getD (free % c.length) (0, 0)).1)
      | some n =>
        let u := mulF (drawU seed req pos) (s.getD n 0)
        match (s.take (n + 1)).findIdx? (fun x => decide (fcmp (f32 x) (f32 u) = some .gt)) with
        | none => .token ((c.getD (free % (n + 1)) (0, 0)).1)
        | some i => .token (c.getD i (0, 0)).1

def State.sampler (s : State) (e : Nat) : Sampler := Tab.getD s.serve.samplers e Sampler.reset
def State.setSampler (s : State) (e : Nat) (x : Sampler) : State :=
  { s with serve := { s.serve with samplers := Tab.put s.serve.samplers e Sampler.reset x } }

/-- A row of logits, once its last one is latched (R28). -/
def Sampler.row (x : Sampler) (r v : Nat) : Option (List (Nat × Bool)) :=
  let l := (List.range v).filterMap (fun i => Tab.find? x.logits (r * 2 ^ 20 + i))
  if l.length = v ∧ v ≠ 0 then some l else none

/-- One token drawn for an entry from a complete row, at a position, after the IDs of `extra` beyond its token area. -/
def State.drawToken (s : State) (e pos : Nat) (extra : List Nat) (row : List (Nat × Bool)) : State × Sampled :=
  let x := s.entry e
  if row.any Prod.snd then (s.bump .SMP_STAT F.SMP_STAT.failed 1, .fail 1)
  else
    let z := row.map Prod.fst
    let s := s.bump .SMP_STAT F.SMP_STAT.nan (z.countP isNan32)
    let n := min pos 1024
    let ids := s.tokensOf e (pos - n) (n - extra.length) ++ extra.drop (extra.length - min n extra.length)
    match sampleTok z ids x.temperature x.topP x.topK x.repPenalty x.seed x.reqId pos (Config.freeValue 364 s.free) with
    | .token t => ({ s.bump .SMP_STAT F.SMP_STAT.samples 1 with free := s.free + 1 }, .token t)
    | .fail c => (s.bump .SMP_STAT F.SMP_STAT.failed 1, .fail c)

/-- A tree record (R367): parents and tokens of its nodes. -/
structure Tree where
  nodes : Nat
  parent : List Nat
  token : List Nat
  deriving DecidableEq, Repr

def State.treeOf (s : State) (e : Nat) : Tree :=
  let b := s.hbm.read (s.treeAt e) 512
  ⟨field b 0 1, (List.range 64).map (fun i => field b (4 + i) 1), (List.range 64).map (fun i => field b (68 + 4 * i) 4)⟩

/-- A node's depth (R283): the root has 0. -/
def Tree.depth (t : Tree) : Nat → Nat → Nat
  | 0, _ => 0
  | f + 1, n => if t.parent.getD n 0xFF = 0xFF then 0 else t.depth f (t.parent.getD n 0xFF) + 1

/-- The record satisfies R280 and names the entry's node count. -/
def Tree.valid (t : Tree) (n : Nat) : Bool :=
  decide (t.nodes = n) && decide (1 ≤ n) && decide (n ≤ 64) && decide (t.parent.getD 0 0 = 0xFF)
    && (List.range 64).all (fun i => if i = 0 then true else if i < n then decide (t.parent.getD i 0xFF < i) && decide (t.depth 64 i ≤ 15)
      else decide (t.parent.getD i 0 = 0xFF))

/-- The lowest child of a node (none: of the ordinary row) that carries a token (R368). -/
def Tree.child (t : Tree) (cur : Option Nat) (tok : Nat) : Option Nat :=
  (List.range t.nodes).find? (fun k => decide (t.token.getD k 0 = tok) && (match cur with
    | none => decide (k = 0)
    | some c => decide (k ≠ 0) && decide (t.parent.getD k 0xFF = c)))

end Sys2Proof.Machine
end

