-- ==== Sys2Proof/Machine/Steps.lean ====
section
/-! DEFINITION. The batch former (R358-R363), commits (R29, R366, R368) and what a step's end settles. -/

namespace Sys2Proof.Machine

def State.setSteps (s : State) (l : List StepRun) : State := { s with serve := { s.serve with steps := l } }

/-- The step of a service with a number. -/
def State.stepRun (s : State) (sv n : Nat) : Option StepRun :=
  s.serve.steps.find? (fun r => decide (r.service = sv) && decide (r.step = n))

/-- A step in flight changed. -/
def State.modStep (s : State) (sv n : Nat) (f : StepRun → StepRun) : State :=
  s.setSteps (s.serve.steps.map (fun r => if r.service = sv ∧ r.step = n then f r else r))

/-- The batch slots of a step (R270, R361): entry, tree node of a spec record, position. -/
def StepRun.slots (r : StepRun) : List (Nat × Option Nat × Nat) :=
  r.recs.flatMap (fun c => (List.range c.count).map (fun i => (c.entry, if c.spec then some i else none, c.pos0 + i)))

/-- The positions an entry's ordinary record covers: first and count. -/
def StepRun.span (r : StepRun) (e : Nat) : Nat × Nat :=
  match r.recs.find? (fun c => decide (c.entry = e) && !c.spec) with
  | some c => (c.pos0, c.count)
  | none => (0, 0)

/-- Does the step sample a position of the entry? -/
def StepRun.samples (r : StepRun) (e : Nat) : Bool := r.recs.any (fun c => decide (c.entry = e) && c.sample)

/-- An update put at its place: ascending layer, position, LF. -/
def insertWatch (k : Watch → Nat × Nat × Nat) (w : Watch) : List Watch → List Watch
  | [] => [w]
  | v :: t =>
    let a := k w
    let b := k v
    if a.1 < b.1 ∨ (a.1 = b.1 ∧ (a.2.1 < b.2.1 ∨ (a.2.1 = b.2.1 ∧ a.2.2 ≤ b.2.2))) then w :: v :: t else v :: insertWatch k w t

/-- Held activation updates of a committed request applied, its others discarded (R271). -/
def State.applyWatches (s : State) (r : StepRun) (e : Nat) (path : List Nat) : State :=
  let slots := r.slots
  let mine := fun (w : Watch) => decide (w.service = r.service) && decide (w.step = r.step) && !w.grad
    && decide ((slots.getD w.slot (2 ^ 20, none, 0)).1 = e)
  let ok := fun (w : Watch) => match (slots.getD w.slot (2 ^ 20, none, 0)).2.1 with
    | some n => path.contains n
    | none => !w.spec
  let pos := fun (w : Watch) => (slots.getD w.slot (0, none, 0)).2.2
  let l := ((s.noc.watches.filter mine).filter ok).foldr (insertWatch (fun w => (w.layer, pos w, w.lf))) []
  let s := { s with noc := { s.noc with watches := s.noc.watches.filter (fun w => !mine w) } }
  l.foldl (fun s w => s.nwApply r.service w.layer 0 w.value e) s

/-- Held gradient updates of a complete step applied (R271). -/
def State.applyGrads (s : State) (r : StepRun) : State :=
  let mine := fun (w : Watch) => decide (w.service = r.service) && decide (w.step = r.step) && w.grad
  let l := (s.noc.watches.filter mine).foldr (insertWatch (fun w => (w.layer, w.lf, 0))) []
  let s := { s with noc := { s.noc with watches := s.noc.watches.filter (fun w => !mine w) } }
  l.foldl (fun s w => s.nwApply r.service w.layer 1 w.value 0) s

/-- The held updates of entries of a step discarded (R271). -/
def State.dropWatches (s : State) (r : StepRun) (es : List Nat) (grads : Bool) : State :=
  let slots := r.slots
  { s with noc := { s.noc with watches := s.noc.watches.filter (fun w =>
      !(decide (w.service = r.service) && decide (w.step = r.step)
        && (if w.grad then grads else es.contains (slots.getD w.slot (2 ^ 20, none, 0)).1))) } }

/-- A service's disable takes effect (R381): its live entries fail, enable reads 0, its reservation ends. -/
def State.disableNow (s : State) (sv : Nat) : State :=
  let s := (s.serve.entries.filter (fun p => decide (p.2.service = sv) && p.2.live)).foldl (fun s p => s.endEntry p.1 9 3 4) s
  let s := s.wr (.SVC_CTL sv) F.SVC_CTL.enable 0
  let pages := (List.range 64).flatMap (fun b => Tab.getD s.kv.scratch (sv * 64 + b) [])
  let s := pages.foldl (fun s p => s.dropRef sv p) s
  let s := s.setKv { s.kv with reserved := Tab.erase s.kv.reserved sv, scratch := s.kv.scratch.filter (fun p => decide (p.1 / 64 ≠ sv)) }
  { s with serve := { s.serve with disabling := s.serve.disabling.filter (fun x => decide (x ≠ sv)), costs := Tab.erase s.serve.costs sv } }

/-- An entry whose step has settled (R24, R294, R357): fill advances, or a terminal entry's pages go. -/
def State.settleEntry (s : State) (r : StepRun) (e : Nat) : State :=
  let x := s.entry e
  if x.step ≠ some r.step ∨ x.service ≠ r.service ∨ r.uncommitted.contains e then s
  else
    let s := s.setEntry e { x with step := none }
    if x.terminal then
      let s := s.releasePages e
      if !x.sw && decide ((s.chan (x.channel % 4096)).state = 1) then s.freeEntry e else s
    else
      let p := r.span e
      s.advanceFill e p.1 (p.2 + (Tab.getD r.paths e []).length)

/-- A step whose facets have all reported and whose posted writes have all completed settles (R24); with nothing left
to commit it is over, and a disable that waited for it takes effect (R381). -/
def State.settle (s : State) (sv n : Nat) : State :=
  match s.stepRun sv n with
  | none => s
  | some r =>
    if !r.wait.isEmpty || s.kvOpen sv n true then s
    else
      let s := (r.recs.map Rec.entry).foldl (fun s e => s.settleEntry r e) s
      if !r.uncommitted.isEmpty then s
      else
        let s := s.dropWatches r (r.recs.map Rec.entry) true
        let s := (s.setSteps (s.serve.steps.filter (fun q => !(decide (q.service = sv) && decide (q.step = n))))).countOld sv
        if s.serve.disabling.contains sv && !s.serve.steps.any (fun q => decide (q.service = sv)) then s.disableNow sv else s

/-- A commit without a token (R363). -/
def State.commitNone (s : State) (r : StepRun) (e : Nat) : State :=
  let x := s.entry e
  let s := s.modStep r.service r.step (fun q => { q with uncommitted := q.uncommitted.filter (fun y => decide (y ≠ e)) })
  if !x.live then s
  else
    let s := s.setEntry e { ((x.setFlag fDispatched false).setFlag fRetried false) with prefillPos := x.prefillPos + (r.span e).2 }
    s.applyWatches r e []

/-- Completion of a step (R362): every facet has reported and every sampled position has committed. -/
def State.complete (s : State) (sv n : Nat) : State :=
  match s.stepRun sv n with
  | none => s
  | some r =>
    if r.failed || !r.wait.isEmpty || r.uncommitted.any (fun e => r.samples e) then s.settle sv n
    else
      let s := r.uncommitted.foldl (fun s e => s.commitNone r e) s
      (s.applyGrads r).settle sv n

/-- A step failed (R362): requests not yet committed are put back and marked, or end after their second failure. -/
def State.failStepRun (s : State) (sv n : Nat) : State :=
  match s.stepRun sv n with
  | none => s
  | some r =>
    let s := s.dropWatches r r.uncommitted true
    let s := r.uncommitted.foldl (fun s e =>
      let x := s.entry e
      let s := { s with serve := { s.serve with samplers := Tab.erase s.serve.samplers e } }
      if !x.live then s
      else if x.flag fRetried then s.endEntry e 9 3 2
      else s.setEntry e { ((x.setFlag fDispatched false).setFlag fRetried true) with state := x.prev, step := none }) s
    -- mirror runs that log this step become void (R461)
    let s := (List.range 48).foldl (fun s g => match (s.region g).mr with
      | some m => if r.lfs.any (fun l => match s.pfOf l with
          | some p => decide (p = g * 17 + m.slot)
          | none => false) && (decide (m.phase = 1) || (decide (m.phase = 2) && decide (m.step = n))) then s.voidRun g else s
      | none => s) s
    s.modStep sv n (fun q => { q with failed := true, uncommitted := [] })

-- Forming a step

/-- The facets of a service's placement, as its cost record names it (R199, R372): those that hold its LFs and are bound
to it. -/
def State.placement (s : State) (sv : Nat) : List Nat :=
  ((Tab.getD s.serve.costs sv Cost.reset).lfs.filterMap s.pfOf).filter (fun p => s.on (.FAC_BIND p) F.FAC_BIND.bound
    && decide (s.rd (.FAC_BIND p) F.FAC_BIND.service = sv))

/-- Every LF of the placement is held and bound to the service (R372). -/
def State.placedAll (s : State) (sv : Nat) : Bool :=
  decide ((s.placement sv).length = (Tab.getD s.serve.costs sv Cost.reset).lfs.length)

/-- A facet lists an epoch or holds arrays staged for it (R401). -/
def State.listsEpoch (s : State) (p ep : Nat) : Bool :=
  decide (ep ≠ 0) && (decide (s.rd (.FAC_EPOCH p) F.FAC_EPOCH.ep_a = ep) || decide (s.rd (.FAC_EPOCH p) F.FAC_EPOCH.ep_b = ep)
    || decide (s.rd (.FAC_EPOCH p) F.FAC_EPOCH.staged_epoch = ep))

/-- A facet can take a descriptor (R193, R199, R532): running, not stopping, with credit, its region neither COLD nor
tripped. -/
def State.facetReady (s : State) (p : Nat) : Bool :=
  let f := s.facet p
  let st := s.facState p
  let th := s.rd (.REGION_THERM (regionOf p)) F.REGION_THERM.state
  !f.fenced && (decide (st = 3) || decide (st = 4)) && !s.on (.FAC_CTL p) F.FAC_CTL.stop
    && decide (f.core.dq.length + s.serve.sending.countP (fun x => decide (x.pf = p)) < 4)
    && decide (th ≠ 1) && decide (th ≠ 4)

/-- The service is held by an armed barrier (R499). -/
def State.barHeld (s : State) (sv : Nat) : Bool :=
  decide (s.rd .BAR_STAT F.BAR_STAT.state = 1) && s.on .BAR_CTL F.BAR_CTL.hold && bitAt (s.rd .BAR_SVC F.BAR_SVC.mask) sv

/-- What an entry still has to process before its last token's position (R356, R380). -/
def Entry.total (x : Entry) : Nat := x.promptLen + x.genLen
def Entry.inPrompt (x : Entry) : Bool := decide (x.state = 1) || decide (x.state = 2)

/-- Eligible for a step but for budget and pages (R358). -/
def State.eligible (s : State) (p : Nat × Entry) : Bool :=
  let x := p.2
  (decide (x.state = 1 ∧ x.tokReady) || decide (x.state = 2) || decide (x.state = 3)) && !x.flag fDispatched && x.step.isNone
    && !s.kv.copies.any (fun c => decide (c.entry = p.1))

/-- The epoch of an entry's next step (R403, R404). -/
def State.epochOf (s : State) (sv : Nat) (x : Entry) : Nat :=
  if s.on (.SVC_CFG sv) F.SVC_CFG.epoch_pol && (decide (x.state ≠ 1) || x.flag fRetried) then x.epoch else s.curEpoch sv

/-- What FORM_STEP gathers: the state, the records, the verify places, the entries taken, the prompt already contributed,
the epoch and kind once set, and whether the record limit has ended the taking (R360). -/
structure Forming where
  s : State
  recs : List Rec
  places : List (Nat × Nat)
  taken : List Nat
  prompt : Bool
  epoch : Option Nat
  kind : Nat
  full : Bool

/-- The lowest batch slot no verify of the service in flight uses (R305). -/
def Forming.freePlace (f : Forming) (sv : Nat) : Option Nat :=
  let used := (f.s.serve.steps.filter (fun r => decide (r.service = sv))).flatMap (fun r => r.places.map Prod.snd) ++ f.places.map Prod.snd
  (List.range (f.s.maxBatch sv)).find? (fun b => !used.contains b)

/-- Pages that the positions reach and other lists share: to be copied first (R302). -/
def State.sharedPages (s : State) (e p n : Nat) : List Nat :=
  let x := s.entry e
  (placesOf (s.pageTokens x.service) p n).filter (fun k =>
    let g := s.listPage x k
    decide (g ≠ 0xFFFFFFFF) && decide ((s.page x.service g).state = 1) && decide (1 < (s.page x.service g).refs))

/-- Copies of shared pages begun: a new page drawn for each (R302). -/
def State.startCopies (s : State) (e : Nat) (ks : List Nat) : State :=
  ks.foldl (fun s k =>
    let x := s.entry e
    match s.drawPage x.service 1 0 x.epoch with
    | none => s
    | some (s, n) => s.setKv { s.kv with copies := s.kv.copies ++ [⟨x.service, e, k, s.listPage x k, n⟩] }) s

/-- Pages for positions p to p + n - 1 drawn (R292), the epoch of reached pages kept (R293); false where none is left
(R379) or copies come first (R302). -/
def State.reach (s : State) (e p n epoch : Nat) : State × Bool :=
  let x := s.entry e
  if !s.poolOn x.service then (s, true)
  else
    let shared := s.sharedPages e p n
    let need := (s.missing e p n).length + shared.length
    let s := if s.isDeadline x.service then s else s.makeRoom x.service need (s.kv.pfx.length + 1)
    if (!s.isDeadline x.service && decide (s.freeBeyond x.service < need)) || decide ((s.freeList x.service).length < need) then
      (if x.state = 1 then s else s.pageWait e, false)
    else
      let s := (s.missing e p n).foldl (fun s k => s.drawAt e k epoch) s
      let s := (placesOf (s.pageTokens x.service) p n).foldl (fun s k =>
        let g := s.listPage (s.entry e) k
        let d := s.page x.service g
        if g = 0xFFFFFFFF ∨ d.epoch = epoch ∨ d.state ≠ 1 then s else s.setPage x.service g { d with epoch := 0xFFFF }) s
      (s.startCopies e shared, shared.isEmpty)

/-- One entry considered, in the order of R359. -/
def Forming.take (sv : Nat) (f : Forming) (e : Nat) : Forming :=
  let s := f.s
  let x := s.entry e
  if f.full || decide (s.maxBatch sv ≤ f.taken.length) || (x.inPrompt && f.prompt) then f
  else if s.budLevel x.customer < 256 then { f with s := s.setEntry e (x.setFlag fHeld true) }
  else
    let ep := s.epochOf sv x
    if !f.taken.isEmpty && (decide (f.epoch ≠ some ep) || decide (x.kind ≠ f.kind)) then f
    else if x.kind = 3 ∧ s.serve.withheld.contains sv then
      -- the update step withheld by R272 is skipped (R361)
      let n := min (s.prefillChunk sv) (x.total - x.prefillPos)
      let s := s.setEntry e { x with prefillPos := x.prefillPos + n }
      { f with s := { s with serve := { s.serve with withheld := s.serve.withheld.filter (fun y => decide (y ≠ sv)) } } }
    else
      let tree := decide (x.state = 3) && decide (0 < x.treeNodes) && decide (x.treeNodes ≤ s.specLimit sv)
      let place := if tree then f.freePlace sv else some 0
      if 30 < f.recs.length + (if tree then 2 else 1) then { f with full := true }
      else if place.isNone then f
      else
        let s := if x.state = 1 ∧ x.pageCount = 0 ∧ x.prefillPos = 0 then s.lookup e ep x.promptLen else s
        let x := s.entry e
        let pos0 := if x.inPrompt then x.prefillPos else x.total - 1
        let count := if x.inPrompt then min (s.prefillChunk sv) (x.total - x.prefillPos) else 1
        let r := s.reach e pos0 count ep
        if !r.2 then { f with s := r.1 }
        else
          let s := r.1.recordTokens e pos0 count
          let y := s.entry e
          let rc : Rec := ⟨e, false, decide (pos0 + count = y.total), y.inPrompt, count, pos0, s.tokenOf e pos0, y.pageList⟩
          let sp : List Rec := if tree then [⟨e, true, true, false, y.treeNodes, pos0 + 1, (s.treeOf e).token.getD 0 0, s.scratchListAt e⟩] else []
          let s := if tree then
              (Tab.getD s.kv.scratch (sv * 64 + place.getD 0) []).zipIdx.foldl (fun s p =>
                s.hbmWrite (s.scratchListAt e + 4 * p.2) (toBytes 4 p.1) false) s
            else s
          let st := if tree then 4 else if y.inPrompt then 2 else 3
          let y := { ((y.setFlag fDispatched true).setFlag fHeld false) with epoch := ep, prev := y.state, state := st }
          { f with s := s.setEntry e y, recs := f.recs ++ [rc] ++ sp
                   places := if tree then f.places ++ [(e, place.getD 0)] else f.places
                   taken := f.taken ++ [e], prompt := f.prompt || x.inPrompt, epoch := some ep, kind := x.kind }

/-- The dispatch descriptor (R361). -/
def descBytes (step epoch sv kind : Nat) (recs : List Rec) (train time : Nat) : List Byte :=
  let head := toBytes 4 step ++ toBytes 4 (epoch + sv * 2 ^ 16 + kind * 2 ^ 22 + recs.length * 2 ^ 24)
    ++ toBytes 4 ((recs.map Rec.count).sum) ++ toBytes 4 train ++ toBytes 8 time ++ toBytes 8 0
  let body := recs.flatMap (fun r =>
    toBytes 4 (r.entry % 8192 + b2n r.spec * 2 ^ 13 + b2n r.sample * 2 ^ 14 + b2n r.prefill * 2 ^ 15 + (r.count - 1) % 4096 * 2 ^ 16)
      ++ toBytes 4 (r.pos0 % 2 ^ 24) ++ toBytes 4 (r.token % 2 ^ 18) ++ toBytes 4 (r.list / 2 ^ 8))
  (head ++ body ++ List.replicate 512 0).take 512

/-- FORM_STEP (R358-R361): eligible entries in order, the step's number, the descriptor sent to every facet of the
placement that serves its epoch. -/
def execFormStep (sv : Nat) (s : State) : Res :=
  let place := s.placement sv
  if !s.svcOn sv || s.barHeld sv || s.serve.disabling.contains sv || place.isEmpty || !s.placedAll sv || !place.all s.facetReady then .next s
  else
    let es := (orderEntries (s.serve.entries.filter (fun p => decide (p.2.service = sv) && s.eligible p))).map Prod.fst
    let f := es.foldl (Forming.take sv) ⟨s, [], [], [], false, none, 0, false⟩
    let ep := f.epoch.getD 0
    let dest := place.filter (fun p => f.s.listsEpoch p ep)
    if f.recs.isEmpty then .next f.s
    else if dest.isEmpty then .next s
    else
      let s := f.s
      let n := Tab.getD s.serve.nextStep sv 0
      let train := if f.kind = 0 then 0 else Config.freeValue 312 s.free % 2 ^ 32
      let d : Desc := ⟨sv, n, ep, descBytes n ep sv f.kind f.recs train s.sysTime⟩
      let s := f.taken.foldl (fun s e => s.setEntry e { s.entry e with step := some n }) s
      let lfs := dest.map s.lfOf
      .next { s with
        free := s.free + 1
        serve := { s.serve with
          nextStep := Tab.put s.serve.nextStep sv 0 (n + 1)
          steps := s.serve.steps ++ [⟨sv, n, ep, f.kind, f.recs, lfs, lfs, f.taken, false, [], f.places⟩]
          sending := s.serve.sending ++ dest.map (fun p => ⟨p, d⟩) } }

/-- DESCRIPTOR_ARRIVE (R193, R461). -/
def execDescriptorArrive (pf : Nat) (s : State) : Res :=
  let mine := fun (x : Sending) => decide (x.pf = pf)
  match s.serve.sending.find? mine with
  | none => .next s
  | some x =>
    let s := { s with serve := { s.serve with sending := s.serve.sending.eraseP mine } }
    let s := match (s.region (regionOf pf)).mr with
      | some m =>
        if m.slot ≠ pf % 17 then s
        else if m.phase = 0 then s.voidRun (regionOf pf)
        else if m.phase = 1 ∧ m.desc.isEmpty then
          s.setRegion (regionOf pf) { s.region (regionOf pf) with mr := some { m with step := x.desc.step, desc := x.desc.bytes } }
        else s
      | none => s
    let s := s.asyncCore pf (fun c => { c with dq := c.dq ++ [x.desc] })
    .next (s.wr (.FAC_STAT pf) F.FAC_STAT.dq_depth (s.facet pf).core.dq.length)

/-- KV_WRITE_COMPLETION (R24): the report of a step's posted write latched. -/
def execKvWriteCompletion (sv n : Nat) (s : State) : Res :=
  if s.serve.kvReports.contains (sv, n) then
    let s := { s with serve := { s.serve with kvReports := s.serve.kvReports.erase (sv, n) } }
    .next (s.settle sv n)
  else .next s

/-- SCOMMIT_REPORT (R196, R362): a facet's part of a step is complete. -/
def execScommitReport (lf n : Nat) (s : State) : Res :=
  if !s.noc.reports.contains (lf, n, true) then .next s
  else
    let s := { s with noc := { s.noc with reports := s.noc.reports.erase (lf, n, true) } }
    match s.serve.steps.find? (fun r => decide (r.step = n) && r.wait.contains lf) with
    | none => .next s
    | some r =>
      let s := s.modStep r.service n (fun q => { q with wait := q.wait.filter (fun y => decide (y ≠ lf)) })
      .next (s.complete r.service n)

/-- STEP_FAILED_REPORT (R362). -/
def execStepFailedReport (lf n : Nat) (s : State) : Res :=
  if !s.noc.reports.contains (lf, n, false) then .next s
  else
    let s := { s with noc := { s.noc with reports := s.noc.reports.erase (lf, n, false) } }
    match s.serve.steps.find? (fun r => decide (r.step = n) && r.lfs.contains lf) with
    | none => .next s
    | some r =>
      let s := s.modStep r.service n (fun q => { q with wait := q.wait.filter (fun y => decide (y ≠ lf)) })
      .next ((s.failStepRun r.service n).settle r.service n)

/-- SOUT_LOGITS (R245, R28): logits from a facet latched by the sampler of the entry's hub; rows follow one another in
the order in which a facet sends the same first index. -/
def execSoutLogits (pf e : Nat) (s : State) : Res :=
  let mine := fun (l : Logits) => decide (l.pf = pf) && decide (l.entry = e)
  match s.noc.logits.find? mine with
  | none => .next s
  | some l =>
    let s := { s with noc := { s.noc with logits := s.noc.logits.eraseP mine } }
    let s := s.asyncCore pf (fun c => c.sendLeft (2 ^ 32 + e) 0)
    let x := s.entry e
    match l.step with
    | none => .next s
    | some n =>
      match s.stepRun l.service n with
      | none => .next s
      | some r =>
        if x.step ≠ some n ∨ x.service ≠ l.service ∨ !r.uncommitted.contains e ∨ !r.samples e then .next s
        else
          let v := (s.vocabOf l.service).size
          let sm := if (s.sampler e).step = n + 1 then s.sampler e else { Sampler.reset with step := n + 1 }
          let row := ((List.range 65).find? (fun k => (Tab.find? sm.logits (k * 2 ^ 20 + l.offset)).isNone)).getD 65
          let put := (List.range l.vals.length).foldl (fun t i =>
            if l.offset + i < v ∧ row < 65 then Tab.set t (row * 2 ^ 20 + l.offset + i) (l.vals.getD i (0, false)) else t) sm.logits
          .next (s.setSampler e { sm with logits := put })

/-- What ends a request within a commit (R366): tokens kept and the end reason. -/
def cutTokens (stop : Nat → Bool) (maxLen : Nat) : Nat → List Nat → List Nat × Option Nat
  | _, [] => ([], none)
  | n, t :: rest =>
    if stop t then ([t], some 0)
    else if maxLen ≤ n + 1 then ([t], some 1)
    else
      let r := cutTokens stop maxLen (n + 1) rest
      (t :: r.1, r.2)

/-- A stop token of a service (R366). -/
def State.isStop (s : State) (sv t : Nat) : Bool :=
  (s.on (.SVC_TOKS sv) F.SVC_TOKS.stop0_en && decide (t = s.rd (.SVC_TOKS sv) F.SVC_TOKS.stop0))
    || (s.on (.SVC_TOKS sv) F.SVC_TOKS.stop1_en && decide (t = s.rd (.SVC_TOKS sv) F.SVC_TOKS.stop1))

/-- The commit write (R29, R366, R368): tokens, lengths, deadline, charge, state; `path` holds the accepted nodes. -/
def State.commitTokens (s : State) (r : StepRun) (e : Nat) (toks path : List Nat) : State :=
  let x := s.entry e
  let sv := r.service
  let cut := cutTokens (s.isStop sv) x.maxLen x.total toks
  let kept := cut.1
  let first := x.genLen
  let s := s.hbmWrite (s.tokAt e x.total) (kept.flatMap (toBytes 4)) false
  let s := s.charge x.customer kept.length
  let sp := r.span e
  let y := { ((x.setFlag fDispatched false).setFlag fRetried false) with
    genLen := x.genLen + kept.length, tokenDl := s.sysTime + s.rd (.SVC_DL sv) F.SVC_DL.token_us * 1000, missed := false
    prefillPos := x.prefillPos + sp.2 + path.length, treeNodes := if x.state = 4 then 0 else x.treeNodes, state := 3
    outq := if x.sw then x.outq else x.outq ++ [(first, kept.length)] }
  let s := s.setEntry e y
  let s := s.modStep sv r.step (fun q => { q with uncommitted := q.uncommitted.filter (fun z => decide (z ≠ e))
                                                  paths := if path.isEmpty then q.paths else Tab.set q.paths e path })
  let s := { s with serve := { s.serve with samplers := Tab.erase s.serve.samplers e } }
  let s := if x.sw then s.svcRecord e 1 kept.length first else s
  let s := s.applyWatches r e path
  let s := s.recordTokens e x.total kept.length
  let k := x.promptLen / s.pageTokens sv
  let fill := x.promptLen % s.pageTokens sv
  let s := if x.genLen = 0 ∧ fill ≠ 0 then s.register e k (fill - 1) true else s
  match cut.2 with
  | some reason => s.endEntry e 7 reason 0
  | none =>
    if path.isEmpty then s
    else s.setKv { s.kv with commits := s.kv.commits ++ [⟨sv, e, r.step, sp.1 + sp.2, path⟩] }

/-- TOKEN_COMMIT (R29, R366): the sampler's result is written to the entry. -/
def execTokenCommit (e : Nat) (s : State) : Res :=
  let x := s.entry e
  match x.step with
  | none => .next s
  | some n =>
    match s.stepRun x.service n with
    | none => .next s
    | some r =>
      let sm := s.sampler e
      if !x.live || !r.uncommitted.contains e || !r.samples e || decide (sm.step ≠ n + 1) then .next s
      else if x.state = 4 then
        if !sm.done then .next s
        else if sm.failCause ≠ 0 then .next ((s.endEntry e 9 3 sm.failCause).complete r.service n)
        else .next ((s.commitTokens r e sm.tokens sm.path).complete r.service n)
      else
        match sm.row 0 (s.vocabOf r.service).size with
        | none => .next s
        | some row =>
          let d := s.drawToken e x.total [] row
          match d.2 with
          | .fail c => .next ((d.1.endEntry e 9 3 c).complete r.service n)
          | .token t => .next ((d.1.commitTokens r e [t] []).complete r.service n)

/-- VERIFY_SAMPLE (R368): one sample of the path followed; a tree that breaks R280 fails the step (R367). -/
def execVerifySample (e : Nat) (s : State) : Res :=
  let x := s.entry e
  match x.step with
  | none => .next s
  | some n =>
    match s.stepRun x.service n with
    | none => .next s
    | some r =>
      let sm := s.sampler e
      if x.state ≠ 4 ∨ !r.uncommitted.contains e ∨ sm.step ≠ n + 1 ∨ sm.done then .next s
      else
        let t := s.treeOf e
        if !t.valid x.treeNodes then .next ((s.failStepRun r.service n).settle r.service n)
        else
          match sm.row (match sm.cur with | none => 0 | some c => c + 1) (s.vocabOf r.service).size with
          | none => .next s
          | some row =>
            let d := s.drawToken e (x.total + sm.tokens.length) sm.tokens row
            match d.2 with
            | .fail c => .next (d.1.setSampler e { sm with done := true, failCause := c })
            | .token k =>
              match t.child sm.cur k with
              | none => .next (d.1.setSampler e { sm with tokens := sm.tokens ++ [k], done := true })
              | some c => .next (d.1.setSampler e { sm with tokens := sm.tokens ++ [k], path := sm.path ++ [c], cur := some c })

end Sys2Proof.Machine
end

