-- ==== Sys2Proof/Machine/Ingress.lean ====
section
/-! DEFINITION. Channels, messages from clients (R339-R346), the tokenizer (R350, R351), egress (R347, R348, R352) and the
timers of channels (R343, R344). -/

namespace Sys2Proof.Machine

/-- The fields of a message header (R340). -/
structure MsgHdr where
  typ : Nat
  flags : Nat
  chan : Nat
  len : Nat
  seq : Nat
  ack : Nat
  reqId : Nat
  deriving DecidableEq, Repr

def parseMsg (p : List Byte) : MsgHdr := ⟨field p 1 1, field p 2 2, field p 4 2, field p 6 2, field p 8 4, field p 12 4, field p 16 4⟩

/-- A frame the ingress engine looks at: addressed to the port at its UDP port, on a port in use (R339, R384, R573). -/
def State.takesFrame (s : State) (f : Frame) : Bool :=
  s.on .RT_CTL F.RT_CTL.enable && decide (f.dstPort = s.rd .RT_CTL F.RT_CTL.udp_port) && f.dstOk && decide (f.vlanTags ≤ 1)
    && decide (f.port < 2) && s.on (.SPORT_CTL f.port) F.SPORT_CTL.enable

/-- The peer of a channel matches a frame's source (R339). -/
def Chan.peerIs (c : Chan) (f : Frame) : Bool :=
  decide (c.peerPort = f.srcPort) && decide (c.peerAddr = f.srcIp) && decide (c.family = if f.ipv6 then 6 else 4)

/-- R339's conditions for dropping a frame; a length that disagrees with body_len is one of them (log entry 46). -/
def State.dropsFrame (s : State) (f : Frame) : Bool :=
  let h := parseMsg f.payload
  let c := s.chan h.chan
  (f.fragmented && !f.ipv6) || (f.extHeader && f.ipv6) || !f.csumOk || decide (f.payload.length < 24) || decide (9000 < f.payload.length)
    || decide (field f.payload 0 1 ≠ 1) || (decide (h.typ ≠ 1) && decide (h.typ ≠ 2)) || decide (4096 ≤ h.chan) || !c.enabled
    || decide (c.state = 1) || (!c.prot && !c.peerIs f) || decide (8960 < h.len)
    || (!c.prot && decide (f.payload.length ≠ 24 + h.len))

/-- The body of a frame: a protected channel's is opened first (R20, R342). -/
def State.openBody (s : State) (f : Frame) : Option (List Byte) :=
  let h := parseMsg f.payload
  let c := s.chan h.chan
  let rest := f.payload.drop 24
  if bitAt h.flags 0 != c.prot then none
  else if !c.prot then some rest
  else match Tab.find? s.sec.keys c.keySlot with
    | none => none
    | some k => if rest.length ≠ h.len + 16 then none else gcmOpen k (nonceOf h.chan 0 h.seq) (f.payload.take 24) rest

/-- An acknowledged message leaves the channel's list, the timer is reloaded; an acknowledged END frees its entry
(R343, R344, R356). -/
def State.takeAck (s : State) (n ack : Nat) : State :=
  let c := s.chan n
  if ack ≤ c.txAcked ∨ c.txNext ≤ ack then s
  else
    let left := c.sent.filter (fun m => decide (ack < m.seq))
    let s := s.setChan n { c with txAcked := ack, sent := left, retries := 0, timer := if left.isEmpty then none else some (s.time + c.rto * 1000) }
    let done := s.serve.entries.filter (fun p => p.2.terminal && !p.2.sw && decide (p.2.channel = n)
      && (match p.2.endSeq with | some q => decide (q ≤ ack) | none => false))
    (done.foldl (fun s p => s.freeEntry p.1) s).flushChan n

/-- What ingress makes of a frame: nothing more to do, or a message accepted in order (R339-R343). -/
def State.ingress (s : State) (f : Frame) : State × Option (MsgHdr × List Byte) :=
  if !s.takesFrame f then (s, none)
  else if s.lockedChan (parseMsg f.payload).chan then (s.bump .RT_STAT F.RT_STAT.auth_fail 1, none)
  else if s.dropsFrame f then (s.bump .RT_STAT F.RT_STAT.dropped 1, none)
  else
    let h := parseMsg f.payload
    match s.openBody f with
    | none => (s.bump .RT_STAT F.RT_STAT.auth_fail 1, none)
    | some body =>
      let c := s.chan h.chan
      let s := if c.prot then s.setChan h.chan { c with peerPort := f.srcPort, peerAddr := f.srcIp, family := if f.ipv6 then 6 else 4 } else s
      let s := s.takeAck h.chan h.ack
      let c := s.chan h.chan
      if h.seq = 0 ∨ c.state ≠ 0 then (s, none)
      else if h.seq < c.rxNext then (s.setChan h.chan { c with ackDue := some (c.ackDue.getD s.time) }, none)
      else if c.rxNext < h.seq then (s, none)
      else ((s.setChan h.chan { c with rxNext := c.rxNext + 1, ackDue := some (c.ackDue.getD s.time) }).rekeyCheck h.chan, some (h, body))

/-- A SUBMIT refused with ERROR (R345, R386). -/
def State.refuse (s : State) (h : MsgHdr) (sv code detail : Nat) : State :=
  let s := if sv < 64 then s.bump (.SVC_MISS sv) F.SVC_MISS.refused 1 else s
  let s := if code = 4 then s.bump .RT_STAT F.RT_STAT.busy 1 else s
  s.sendError h.chan h.reqId code detail

/-- The offset of the first sampling field out of its range (R345, R364). -/
def samplingBad (tau topP topK rho : Nat) : Option Nat :=
  let e := fun x => bits x 14 7
  let m := fun x => bits x 6 0
  let le := fun a b => decide (fcmp (f32 (wideBf a)) (f32 (wideBf b)) = some .lt) || decide (fcmp (f32 (wideBf a)) (f32 (wideBf b)) = some .eq)
  if e tau = 255 ∨ (bitAt tau 15 ∧ bits tau 14 0 ≠ 0) then some 20
  else if (e topP = 255 ∧ m topP ≠ 0) ∨ !le 0 topP ∨ !le topP 0x3F80 then some 22
  else if 1024 < topK then some 24
  else if e rho = 255 ∨ !le 0x3F80 rho then some 26
  else none

/-- Live entries of a service. -/
def State.liveOf (s : State) (sv : Nat) : Nat := s.serve.entries.countP (fun p => p.2.live && decide (p.2.service = sv))

/-- The reservation of a request that is being assembled (R345). -/
def State.asmOf (s : State) (n reqId : Nat) : Option Nat :=
  (s.serve.entries.find? (fun p => decide (p.2.state = 0) && p.2.flag fAsm && decide (p.2.channel = n) && decide (p.2.reqId = reqId))).map Prod.fst

/-- The FREE entries that ingress of a frame's hub may take (R18, R19, R355). -/
def State.freeFor (s : State) (port e : Nat) : Bool :=
  let hub := s.rd (.SPORT_STAT port) F.SPORT_STAT.hub
  decide (e < 8192) && (decide (hubOf e = hub) || s.hubFenced (hubOf e)) && !s.swEntry e
    && decide ((s.entry e).state = 0) && !(s.entry e).flag fAsm

/-- A check of R345 on a body, in the order of its list: the first that fails, with code and detail. -/
def State.submitBad (s : State) (h : MsgHdr) (b : List Byte) (asm : Option Nat) : Option (Nat × Nat) :=
  let sv := field b 0 1
  let total := field b 28 4
  if b.length < 32 then some (1, 6)
  else if 64 ≤ sv ∨ !s.svcOn sv ∨ !s.on (.SVC_STAT sv) F.SVC_STAT.admitted ∨ s.on (.SVC_CTL sv) F.SVC_CTL.stop then some (2, 0)
  else if bits (field b 1 1) 7 3 ≠ 0 then some (1, 1)
  else if bits (field b 2 2) 15 3 ≠ 0 then some (1, 2)
  else if bits h.flags 15 1 ≠ 0 then some (1, 2)
  else if field b 8 4 = 0 then some (1, 8)
  else match samplingBad (field b 20 2) (field b 22 2) (field b 24 2) (field b 26 2) with
    | some o => some (1, o)
    | none =>
      if s.rd (.SVC_LEN sv) F.SVC_LEN.max_prompt_bytes < total ∨ s.svcMaxLen sv < field b 8 4 + 1 then some (5, 0)
      else if total = 0 ∧ !s.on (.SVC_TOKS sv) F.SVC_TOKS.bos_en then some (1, 28)
      else if bitAt (field b 2 2) 0 ∧ total % 4 ≠ 0 then some (1, 28)
      else if asm.isNone ∧ s.serve.entries.any (fun p => p.2.live && !p.2.sw && decide (p.2.channel = h.chan) && decide (p.2.reqId = h.reqId)) then some (9, 0)
      else if asm.isNone ∧ s.on (.SVC_STAT sv) F.SVC_STAT.void then some (3, 0)
      else if s.isDeadline sv ∧ s.maxBatch sv ≤ s.liveOf sv then some (4, 0)
      else none

/-- An entry whose prompt is tokenized: lengths, then eligibility (R21, R350, R353). -/
def State.tokenized (s : State) (e : Nat) (ids : List Nat) : State :=
  let x := s.entry e
  let sv := x.service
  let ids := if s.on (.SVC_TOKS sv) F.SVC_TOKS.bos_en then s.rd (.SVC_TOKS sv) F.SVC_TOKS.bos :: ids else ids
  if s.svcMaxLen sv - 1 < ids.length then s.endEntry e 9 3 5
  else
    let s := s.hbmWrite (s.tokAt e 0) (ids.flatMap (toBytes 4)) false
    s.setEntry e { x with promptLen := ids.length, maxLen := min (ids.length + field x.head 8 4) (s.svcMaxLen sv), tokReady := true }

/-- Prompts waiting for a hub's tokenizer. -/
def State.tokWaiting (s : State) (hub : Nat) : List (Nat × Entry) :=
  s.serve.entries.filter (fun p => decide (p.2.state = 1) && !p.2.tokReady && decide (hubOf p.1 = hub))

/-- The prompt a hub's tokenizer takes next (R350): first-token deadline, then arrival. -/
def tokFirst (a b : Nat × Entry) : Nat × Entry :=
  let d := fun (p : Nat × Entry) => p.2.flag fDeadline
  if d a && !d b then a else if d b && !d a then b
  else if d a then (if b.2.firstDl < a.2.firstDl then b else a)
  else if b.2.arrival < a.2.arrival then b else a

/-- The tokenizer of a hub starts its next block (R21, R350). -/
def State.tokNext (s : State) (hub : Nat) : State :=
  { s with serve := { s.serve with tok := match s.tokWaiting hub with
    | [] => Tab.erase s.serve.tok hub
    | a :: t => Tab.set s.serve.tok hub (t.foldl tokFirst a).1 } }

/-- The last fragment writes the entry QUEUED (R20, R345, R353); the tokenizer starts on it (R21). -/
def State.queueEntry (s : State) (e : Nat) : State :=
  let x := s.entry e
  let sv := x.service
  let area := s.areaOf e
  let y := { (x.setFlag fAsm false) with
    state := 1, epoch := s.curEpoch sv, pageList := area + 0x300000, arrival := s.sysTime
    firstDl := s.sysTime + s.rd (.SVC_DL sv) F.SVC_DL.first_us * 1000 }
  let s := s.setEntry e y
  let pt := s.pageTokens sv
  let s := s.hbmWrite (area + 0x300000) ((List.range ((s.svcMaxLen sv + pt - 1) / pt)).flatMap (fun _ => toBytes 4 0xFFFFFFFF)) false
  if field x.head 28 4 = 0 then s.tokenized e []
  else if (Tab.find? s.serve.tok (hubOf e)).isNone then s.tokNext (hubOf e) else s

/-- SUBMIT (R339-R345, R20): the frame's message checked and assembled into an entry, or answered with ERROR.  `pick` is
the FREE entry the engine takes where it may take it, else the lowest one it may (log entry 47). -/
def execSubmit (f : Frame) (pick : Nat) (s : State) : Res :=
  if field f.payload 1 1 = 2 then .next s
  else
    let r := s.ingress f
    match r.2 with
    | none => .next r.1
    | some (h, b) =>
      let s := r.1
      let sv := field b 0 1
      let asm := s.asmOf h.chan h.reqId
      match s.submitBad h b asm with
      | some (code, detail) => .next (s.refuse h sv code detail)
      | none =>
        let off := field b 4 4
        let data := b.drop 32
        let last := bitAt (field b 2 2) 2
        let key := b.take 2 ++ toBytes 2 (field b 2 2 % 4) ++ (b.drop 8).take 24
        match asm with
        | some e =>
          let x := s.entry e
          let key0 := x.head.take 2 ++ toBytes 2 (field x.head 2 2 % 4) ++ (x.head.drop 8).take 24
          let bad := if off ≠ x.received then some 4 else if key ≠ key0 then some 0
            else if field b 28 4 < off + data.length ∨ (last ∧ off + data.length ≠ field b 28 4) then some 28 else none
          match bad with
          | some o => .next ((s.freeEntry e).refuse h sv 1 o)
          | none =>
            let s := s.hbmWrite (s.areaOf e + off) data false
            let s := s.setEntry e { x with received := off + data.length }
            .next (if last then s.queueEntry e else s)
        | none =>
          if off ≠ 0 then .next (s.refuse h sv 1 4)
          else if field b 28 4 < data.length ∨ (last ∧ data.length ≠ field b 28 4) then .next (s.refuse h sv 1 28)
          else
            match (if s.freeFor f.port pick then some pick else (List.range 8192).find? (s.freeFor f.port)) with
            | none => .next (s.refuse h sv 4 0)
            | some e =>
              let x : Entry := { Entry.reset with
                priority := field b 1 1, customer := (s.chan h.chan).customer, service := sv
                flags := setBits (setBits (setBits (setBits 0 3 3 1) 0 0 (b2n (s.isDeadline sv))) 1 1 (b2n (bitAt (field b 2 2) 1)))
                  2 2 (b2n (bitAt (field b 2 2) 0))
                seed := field b 12 8, reqId := h.reqId, channel := h.chan, topK := field b 24 2, temperature := field b 20 2
                topP := field b 22 2, repPenalty := field b 26 2, head := b.take 32, received := data.length, asmFrom := s.time }
              let s := (s.setEntry e x).hbmWrite (s.areaOf e) data false
              .next (if last then s.queueEntry e else s)

/-- An entry cancelled (R378): CANCELLED, its queued deliveries dropped with it. -/
def State.cancelEntry (s : State) (e : Nat) : State :=
  let x := s.entry e
  let s := match x.step with
    | some n => match s.stepRun x.service n with
      | some r => if r.uncommitted.contains e then s.dropWatches r [e] false else s
      | none => s
    | none => s
  s.endEntry e 8 2 0

/-- CANCEL (R346, R378). -/
def execCancel (f : Frame) (s : State) : Res :=
  if field f.payload 1 1 ≠ 2 ∨ field f.payload 8 4 = 0 then .next s
  else
    let r := s.ingress f
    match r.2 with
    | none => .next r.1
    | some (h, b) =>
      let s := r.1
      if !b.isEmpty then .next (s.sendError h.chan h.reqId 1 6)
      else match s.asmOf h.chan h.reqId with
        | some e => .next ((s.freeEntry e).post h.chan 4 h.reqId (endBody 2 0 0 0 0 0 []))
        | none =>
          let mine := s.serve.entries.filter (fun p => decide (p.2.state ≠ 0) && !p.2.sw && decide (p.2.channel = h.chan) && decide (p.2.reqId = h.reqId))
          match mine.find? (fun p => p.2.live) with
          | some p => .next (s.cancelEntry p.1)
          | none => .next (s.sendError h.chan h.reqId (if mine.isEmpty then 6 else 7) 0)

/-- CLIENT_BARE_ACK (R343): only its ack is used. -/
def execClientBareAck (f : Frame) (s : State) : Res :=
  if field f.payload 1 1 ≠ 2 ∨ field f.payload 8 4 ≠ 0 then .next s else .next (s.ingress f).1

/-- ASM_TIMEOUT (R345). -/
def execAsmTimeout (e : Nat) (s : State) : Res :=
  let x := s.entry e
  if x.state ≠ 0 ∨ !x.flag fAsm ∨ s.time < x.asmFrom + s.rd .RT_CTL F.RT_CTL.asm_ms * 1000000 then .next s
  else .next ((s.freeEntry e).sendError x.channel x.reqId 8 0)

-- Tokenizer

/-- Prompt bytes cut wherever two adjacent bytes have different nonzero classes; a byte of class 0 joins the chunk
before it (R350). -/
def chunks (cls : Nat → Nat) : List Byte → List (List Byte)
  | [] => []
  | b :: t =>
    match t, chunks cls t with
    | c :: _, ch :: rest =>
      if cls b.toNat ≠ 0 ∧ cls c.toNat ≠ 0 ∧ cls b.toNat ≠ cls c.toNat then [b] :: ch :: rest else (b :: ch) :: rest
    | _, l => [b] :: l

/-- The rank of a pair in a merge table. -/
def rankOf (m : List (Nat × Nat × Nat)) (a b : Nat) : Option Nat := m.findIdx? (fun x => decide (x.1 = a) && decide (x.2.1 = b))

/-- The lowest rank of any adjacent pair. -/
def bestRank (m : List (Nat × Nat × Nat)) : List Nat → Option Nat
  | a :: b :: t => match rankOf m a b, bestRank m (b :: t) with
    | some x, some y => some (min x y)
    | some x, none => some x
    | none, y => y
  | _ => none

/-- The leftmost pair of a rank merged. -/
def mergeAt (m : List (Nat × Nat × Nat)) (r : Nat) : List Nat → List Nat
  | a :: b :: t => if rankOf m a b = some r then (m.getD r (0, 0, 0)).2.2 :: t else a :: mergeAt m r (b :: t)
  | l => l

/-- Merging until no pair is in the table. -/
def mergeAll (m : List (Nat × Nat × Nat)) : Nat → List Nat → List Nat
  | 0, l => l
  | f + 1, l => match bestRank m l with
    | none => l
    | some r => mergeAll m f (mergeAt m r l)

/-- The single-byte token of a byte; none in the set: free (log entry 40). -/
def Vocab.byteTok (v : Vocab) (free : Nat) (b : Byte) : Nat :=
  match v.strings.find? (fun p => decide (p.2 = [b])) with
  | some p => p.1
  | none => Config.freeValue 350 (free * 256 + b.toNat)

/-- Tokenizing (R350), BOS apart. -/
def Vocab.tokenize (v : Vocab) (free : Nat) (bs : List Byte) : List Nat :=
  (chunks (fun b => Tab.getD v.classes b 0) bs).flatMap (fun c => mergeAll v.merges c.length (c.map (v.byteTok free)))

/-- The next 64 bytes of an entry's prompt tokenized (R350); the last block settles the tokens. -/
def State.tokBlock (s : State) (e : Nat) : State :=
  let x := s.entry e
  let total := field x.head 28 4
  let b := x.tokBlocks
  let v := s.vocabOf x.service
  let blk := s.hbm.read (s.areaOf e + 64 * b) (min 64 (total - 64 * b))
  let ids := fun (bs : List Byte) => (List.range (bs.length / 4)).map (fun i => field bs (4 * i) 4)
  let s := s.setEntry e { x with tokBlocks := b + 1 }
  if s.hbm.rangePoison 64 (s.areaOf e + 64 * b) 64 then s.endEntry e 9 3 1
  else if x.flag fTokenIn && (ids blk).any (fun i => decide (v.size ≤ i)) then s.endEntry e 9 3 6
  else if total ≤ 64 * (b + 1) then
    let bs := s.hbm.read (s.areaOf e) total
    ({ s with free := s.free + 1 } : State).tokenized e (if x.flag fTokenIn then ids bs else v.tokenize s.free bs)
  else s

/-- TOKENIZE_BLOCK (R350, R351): the block in work completes; at a block's end the engine takes the prompt next in order. -/
def execTokenizeBlock (hub : Nat) (s : State) : Res :=
  match Tab.find? s.serve.tok hub with
  | none => .next s
  | some e =>
    if (s.entry e).state ≠ 1 ∨ (s.entry e).tokReady then .next (s.tokNext hub)
    else .next ((s.tokBlock e).tokNext hub)

-- Egress

/-- Continuation bytes a lead byte needs, with the range of the first of them; none for a byte that begins nothing. -/
def utf8Lead (b : Nat) : Option (Nat × Nat × Nat) :=
  if b < 0x80 then some (0, 0, 0)
  else if 0xC2 ≤ b ∧ b ≤ 0xDF then some (1, 0x80, 0xBF)
  else if b = 0xE0 then some (2, 0xA0, 0xBF)
  else if b = 0xED then some (2, 0x80, 0x9F)
  else if 0xE1 ≤ b ∧ b ≤ 0xEF then some (2, 0x80, 0xBF)
  else if b = 0xF0 then some (3, 0x90, 0xBF)
  else if 0xF1 ≤ b ∧ b ≤ 0xF3 then some (3, 0x80, 0xBF)
  else if b = 0xF4 then some (3, 0x80, 0x8F)
  else none

/-- U+FFFD. -/
def fffd : List Byte := [0xEF, 0xBF, 0xBD]

/-- How many of the wanted continuation bytes stand there, the first within a range. -/
def contBytes : Nat → Nat → Nat → List Byte → Nat
  | 0, _, _, _ => 0
  | _, _, _, [] => 0
  | n + 1, lo, hi, b :: t => if lo ≤ b.toNat ∧ b.toNat ≤ hi then contBytes n 0x80 0xBF t + 1 else 0

/-- Complete characters with each maximal ill-formed subpart replaced, and the incomplete tail (R352). -/
def utf8Split : Nat → List Byte → List Byte × List Byte
  | 0, l => ([], l)
  | _, [] => ([], [])
  | f + 1, b :: t =>
    match utf8Lead b.toNat with
    | none => let r := utf8Split f t; (fffd ++ r.1, r.2)
    | some (n, lo, hi) =>
      let k := contBytes n lo hi t
      if k = n then let r := utf8Split f (t.drop n); (b :: t.take n ++ r.1, r.2)
      else if t.length = k then ([], b :: t)
      else let r := utf8Split f (t.drop k); (fffd ++ r.1, r.2)

/-- The flags of TOKENS and END (R347, R354). -/
def Entry.msgFlags (x : Entry) (text : Bool) : Nat :=
  b2n text + 2 * b2n (x.flag fVoid) + 4 * b2n (x.flag fMissed) + 8 * b2n (x.flag fNormJump)

/-- EGRESS_TOKENS (R347, R352): the tokens of the oldest commit not yet sent, as IDs or as text. -/
def execEgressTokens (e : Nat) (s : State) : Res :=
  let x := s.entry e
  match x.outq with
  | [] => .next s
  | (first, n) :: rest =>
    let ch := x.channel % 4096
    if !(s.chan ch).room || !(s.chan ch).waiting.isEmpty then .next s
    else
      let toks := s.tokensOf e (x.promptLen + first) n
      let text := x.flag fText
      let ended := x.state = 7 ∧ x.endReason = 0 ∧ rest.isEmpty
      let shown := if ended then toks.dropLast else toks
      let bytes := x.text ++ shown.flatMap (fun t => Tab.getD (s.vocabOf x.service).strings t [])
      let r := utf8Split (bytes.length + 1) bytes
      let body := toBytes 4 first ++ toBytes 2 n ++ toBytes 2 (x.msgFlags text) ++ (if text then r.1 else toks.flatMap (toBytes 4))
      let s := s.setEntry e { x with outq := rest, text := if text then r.2 else [] }
      .next (s.sendNow ch 3 x.reqId body)

/-- EGRESS_END (R348, R352): the last message of a request whose tokens are all sent. -/
def execEgressEnd (e : Nat) (s : State) : Res :=
  let x := s.entry e
  let ch := x.channel % 4096
  if !x.terminal || x.sw || x.endSeq.isSome || !x.outq.isEmpty || !(s.chan ch).room || !(s.chan ch).waiting.isEmpty then .next s
  else
    let tail := if x.flag fText && !x.text.isEmpty then fffd else []
    let body := endBody x.endReason x.endCause (x.msgFlags (x.flag fText)) x.genLen x.misses x.promptLen tail
    let s := s.setEntry e { x with endSeq := some (s.chan ch).txNext, text := [] }
    .next (s.sendNow ch 4 x.reqId body)

/-- BARE_ACK_TIMER (R343): a TOKENS message with seq 0, never resent. -/
def execBareAckTimer (n : Nat) (s : State) : Res :=
  let c := s.chan n
  match c.ackDue with
  | some t => if t + 10000 ≤ s.time ∧ c.enabled ∧ c.state ≠ 1 then .next (s.transmit n ⟨0, 3, 0, toBytes 8 0⟩) else .next s
  | none => .next s

/-- A channel goes DOWN (R344): its live entries are cancelled, its terminal entries return to FREE. -/
def State.chanDown (s : State) (n : Nat) : State :=
  let mine := s.serve.entries.filter (fun p => !p.2.sw && decide (p.2.channel = n))
  let s := (s.setChan n { s.chan n with state := 1, timer := none, ackDue := none, sent := [], waiting := [] }).raise (rtEvent 0)
  mine.foldl (fun s p =>
    if p.2.live then
      let s := s.cancelEntry p.1
      if (s.entry p.1).step.isNone then s.freeEntry p.1 else s
    else if p.2.terminal ∨ p.2.flag fAsm then (if p.2.step.isNone then s.freeEntry p.1 else s) else s) s

/-- RETRANSMIT_TIMER (R344): every unacknowledged message is resent in order; after retry_limit expiries the channel
goes DOWN. -/
def execRetransmitTimer (n : Nat) (s : State) : Res :=
  let c := s.chan n
  match c.timer with
  | none => .next s
  | some t =>
    if s.time < t ∨ c.state ≠ 0 ∨ !c.enabled then .next s
    else if c.retryLimit ≤ c.retries + 1 then .next (s.chanDown n)
    else
      let s := c.sent.foldl (fun s m => s.transmit n m) s
      .next (s.setChan n { s.chan n with retries := c.retries + 1, timer := some (s.time + c.rto * 1000) })

/-- CHANNEL_ENABLE (R341, R342): software writes the first 28 bytes of a channel's entry, its fields only while enabled is
0; enabling starts the sequence numbers anew and, after REKEY, resends what is unacknowledged under new numbers. -/
def execChannelEnable (n : Nat) (cfg : List Byte) (s : State) : Res :=
  let c := s.chan n
  let w := field cfg 0 2
  let on := bitAt w 15
  if 4096 ≤ n then .next s
  else if c.enabled then .next (if on then s else s.setChan n { c with enabled := false, timer := none })
  else
    let c := { c with customer := bits w 9 0, prot := bitAt w 14, keySlot := field cfg 2 2, family := field cfg 4 1
                      retryLimit := field cfg 5 1, peerPort := field cfg 6 2
                      peerAddr := beNat (toNats ((cfg.drop 8).take (if field cfg 4 1 = 4 then 4 else 16))), rto := field cfg 24 4 }
    if !on then .next (s.setChan n c)
    else
      let old := if c.state = 2 then c.sent else []
      let sent := old.zipIdx.map (fun p => { p.1 with seq := p.2 + 1 })
      let s := s.setChan n { c with enabled := true, state := 0, rxNext := 1, txNext := old.length + 1, txAcked := 0, sent := sent
                                    retries := 0, ackDue := none, timer := if old.isEmpty then none else some (s.time + c.rto * 1000) }
      let renum := fun (p : Nat × Entry) =>
        if !p.2.sw ∧ p.2.channel = n then (p.1, { p.2 with endSeq := match p.2.endSeq with
          | some q => (old.findIdx? (fun m => decide (m.seq = q))).map (· + 1)
          | none => none }) else p
      let s := { s with serve := { s.serve with entries := s.serve.entries.map renum } }
      .next ((sent.foldl (fun s m => s.transmit n m) s).flushChan n)

end Sys2Proof.Machine
end

