-- ==== Sys2Proof/Machine/Services.lean ====
section
/-! DEFINITION. Software's writes to entries (R355), deadlines (R375), services and admission (R370-R374, R381), budgets' writes
(R388). -/

namespace Sys2Proof.Machine

/-- An entry from its bytes (R353), as software writes them. -/
def entryOf (b : List Byte) : Entry :=
  { Entry.reset with
    state := bits (field b 0 1) 3 0, priority := bits (field b 1 1) 2 0, customer := bits (field b 2 2) 9 0, service := bits (field b 2 2) 15 10
    epoch := field b 4 2, flags := field b 6 2, promptLen := field b 8 4, genLen := field b 12 4, maxLen := field b 16 4
    pageCount := field b 20 4, pageList := field b 24 8, firstDl := field b 32 8, tokenDl := field b 40 8, arrival := field b 48 8
    seed := field b 56 8, reqId := field b 64 4, channel := field b 68 2, topK := field b 70 2, temperature := field b 72 2
    topP := field b 74 2, repPenalty := field b 76 2, endReason := field b 78 1, endCause := field b 79 1, prefillPos := field b 80 4
    misses := field b 84 4, treeNodes := field b 88 1 }

/-- SW_ENTRY_QUEUE (R355, R364): software fills a FREE software entry and writes QUEUED; refused otherwise. -/
def execSwEntryQueue (e : Nat) (b : List Byte) (s : State) : Res :=
  let x := s.entry e
  let y := entryOf b
  if !s.swEntry e || decide (x.state ≠ 0) || x.flag fAsm || !y.sw || (samplingBad y.temperature y.topP y.topK y.repPenalty).isSome then
    .next s.swReject
  else
    let pt := s.pageTokens y.service
    let list := s.areaOf e + 0x300000
    let flags := setBits (setBits (setBits y.flags 3 3 0) 9 4 0) 15 14 0
    let s := s.hbmWrite list ((List.range ((s.svcMaxLen y.service + pt - 1) / pt)).flatMap (fun _ => toBytes 4 0xFFFFFFFF)) false
    .next (s.setEntry e { y with
      state := 1, flags := setBits flags 11 10 0, pageCount := 0, pageList := list, arrival := s.sysTime, tokReady := true, genLen := 0
      prefillPos := 0, misses := 0, treeNodes := 0, endReason := 0, endCause := 0, epoch := s.curEpoch y.service })

/-- SW_ENTRY_CANCEL (R355, R378): any live entry. -/
def execSwEntryCancel (e : Nat) (s : State) : Res :=
  if (s.entry e).live then .next (s.cancelEntry e) else .next s.swReject

/-- SW_ENTRY_RELEASE (R355, R357): a terminal software entry returns to FREE. -/
def execSwEntryRelease (e : Nat) (s : State) : Res :=
  let x := s.entry e
  if x.terminal && x.sw then .next (s.freeEntry e) else .next s.swReject

/-- SW_TREE_WRITE (R355, R367): tree_nodes of an entry in DECODE. -/
def execSwTreeWrite (e n : Nat) (s : State) : Res :=
  let x := s.entry e
  if x.state = 3 ∧ n ≤ 64 then .next (s.setEntry e { x with treeNodes := n }) else .next s.swReject

/-- DEADLINE_EXPIRE (R44, R375): one miss for the token awaited. -/
def execDeadlineExpire (e : Nat) (s : State) : Res :=
  let x := s.entry e
  let d := if x.genLen = 0 then x.firstDl else x.tokenDl
  if !x.live || !x.flag fDeadline || x.missed || decide (s.sysTime ≤ d) then .next s
  else
    let s := s.setEntry e { (x.setFlag fMissed true) with misses := x.misses + 1, missed := true }
    let s := s.bump (.SVC_MISS x.service) (if x.flag fHeld then F.SVC_MISS.misses_budget else F.SVC_MISS.misses) 1
    .next (s.svcRecord e 3 0 x.genLen)

-- Admission

/-- Units of a nanosecond in which every clock of the part has a whole period (R12, R34). -/
def nsUnits : Nat := (List.range 64).foldl (fun a k => Nat.lcm a (k + 1)) 1

/-- The period of an island's cycle: array, NoC, hub, system time. -/
def islandPeriod : Nat → Nat
  | 0 => 25 * (nsUnits / 8)
  | 1 => nsUnits / 2
  | 2 => nsUnits / 2
  | _ => nsUnits

/-- The period of a region's facet clock at its design point (R35). -/
def State.fcPeriod (s : State) (g : Nat) : Nat := 1000 * nsUnits / s.rd (.REGION_CLK g) F.REGION_CLK.fclk_design

/-- The dense product of an input format (R85), in ac. -/
def denseAc : Nat → Nat
  | 0 => 128
  | 1 => 384
  | 2 => 896
  | _ => 1920

/-- A term's charge (R371). -/
def State.termCost (s : State) (sv : Nat) : Term → Nat
  | .path n i => n * islandPeriod i
  | .fcycles n g => n * s.fcPeriod g
  | .stage f => (2 + denseAc f + s.rd (.SVC_CFG sv) F.SVC_CFG.replays * 128) * islandPeriod 0
  | .queued f => denseAc f * islandPeriod 0
  | .coded b n d r g => ((b * 128 * n + d - 1) / d + r * 64) * s.fcPeriod g
  | .attention fc st g => (fc + st * (if s.on (.KV_POOL_CFG sv) F.KV_POOL_CFG.seal_en then 2 else 1)) * s.fcPeriod g
  | .ns n => n * nsUnits
  | .transfer b r => (b * nsUnits + r - 1) / r

/-- The enabled deadline services of a hub, with one more (R371). -/
def State.sharing (s : State) (sv : Nat) : List Nat :=
  (List.range 64).filter (fun x => decide (x = sv) ||
    (s.svcOn x && s.isDeadline x && decide (s.rd (.SVC_CFG x) F.SVC_CFG.hub = s.rd (.SVC_CFG sv) F.SVC_CFG.hub)))

/-- T_step (R371) of a service, its shared terms over a set of services. -/
def State.tStep (s : State) (sv : Nat) (c : Cost) (set : List Nat) : Nat :=
  let terms := (c.terms.map (s.termCost sv)).sum
  let smp := (((set.map s.maxBatch).sum + 1) / 2 + 1) * 64 * islandPeriod 2
  let cow := if s.on (.KV_POOL_CFG sv) F.KV_POOL_CFG.share_en then s.pageBytes sv / 128 * islandPeriod 2 else 0
  terms + smp + cow

/-- T_first (R371). -/
def State.tFirst (s : State) (sv : Nat) (step : Nat) (set : List Nat) : Nat :=
  let tok := ((set.map (fun x => s.maxBatch x * ((s.rd (.SVC_LEN x) F.SVC_LEN.max_prompt_bytes + 63) / 64))).sum + 1) * 16 * islandPeriod 2
  let ch := s.prefillChunk sv
  38 * islandPeriod 2 + tok + s.maxBatch sv * ((s.svcMaxLen sv - 1 + ch - 1) / ch) * step

/-- A valid configuration (R386, R353, R372). -/
def State.cfgValid (s : State) (sv : Nat) : Bool :=
  let b := s.maxBatch sv
  let l := s.svcMaxLen sv
  let p := s.rd (.SVC_LEN sv) F.SVC_LEN.max_prompt_bytes
  decide (1 ≤ b) && decide (b ≤ 30) && decide (s.specLimit sv ≤ 64) && decide (2 ≤ l) && decide (l ≤ 524288) && decide (1 ≤ p)
    && decide (p ≤ 1048576) && (!s.isDeadline sv || decide (s.specLimit sv = 0) || decide (2 * b ≤ 30))

/-- The healthy logical arrays of a facet (R390). -/
def State.healthyArrays (s : State) (pf : Nat) : Nat :=
  (List.range s.variant.logicals).countP (fun n => decide (s.arrState pf (s.physOf pf n) ≠ 0) && decide (s.arrState pf (s.physOf pf n) ≠ 5))

/-- HBM bytes not held by the epochs of enabled services but one, the enabled pools and the entry areas (R392).  The
records of old epochs stand at 64 + service. -/
def State.hbmLeft (s : State) (skip : Nat) : Nat :=
  let eps := (s.serve.costs.filter (fun p => decide (p.1 ≠ skip))).map (fun p => p.2.bytes)
  let pools := ((List.range 64).filter s.poolOn).map (fun x => s.poolPages x * (s.pageBytes x + 16 + 4 * s.pageTokens x))
  2 ^ 40 - eps.sum - pools.sum - 8192 * 2 ^ 22

/-- The placement's LFs are held and bound to the service, and R392 admits the record. -/
def State.placeOk (s : State) (sv skip : Nat) (c : Cost) : Bool :=
  let pfs := c.lfs.filterMap s.pfOf
  let bound := pfs.filter (fun p => s.on (.FAC_BIND p) F.FAC_BIND.bound && decide (s.rd (.FAC_BIND p) F.FAC_BIND.service = sv))
  decide (bound.length = c.lfs.length) && !c.lfs.isEmpty && decide (c.arrays ≤ (pfs.map s.healthyArrays).sum) && decide (c.bytes ≤ s.hbmLeft skip)

/-- Pages a deadline service reserves (R22) and its scratch pages (R305). -/
def State.reserveOf (s : State) (sv : Nat) : Nat := s.maxBatch sv * ((s.svcMaxLen sv + s.pageTokens sv - 1) / s.pageTokens sv)
def State.scratchOf (s : State) (sv : Nat) : Nat := (s.specLimit sv + s.pageTokens sv - 1) / s.pageTokens sv
def State.scratchHeld (s : State) (sv : Nat) : Nat := ((List.range 64).map (fun b => (Tab.getD s.kv.scratch (sv * 64 + b) []).length)).sum

/-- The reservation fits beyond what is outstanding (R372). -/
def State.pagesOk (s : State) (sv : Nat) (more : Bool) : Bool :=
  let used := ((s.serve.entries.filter (fun p => decide (p.2.service = sv))).map (fun p => p.2.pageCount)).sum
  s.poolOn sv && decide ((if more then 2 else 1) * s.reserveOf sv - used + (s.maxBatch sv * s.scratchOf sv - s.scratchHeld sv) ≤ (s.freeList sv).length)

/-- The proof (R371, R372, R392): reason, T_step, T_first.  `skip` is the record it replaces, `more` whether a second
reservation is needed (R404). -/
def State.prove (s : State) (sv skip : Nat) (more : Bool) (c : Cost) : Nat × Nat × Nat :=
  let set := s.sharing sv
  let ts := s.tStep sv c set
  let tf := s.tFirst sv ts set
  let fits := fun (x : Nat) (c : Cost) =>
    let t := s.tStep x c set
    decide (t ≤ s.rd (.SVC_DL x) F.SVC_DL.token_us * 1000 * nsUnits) && decide (s.tFirst x t set ≤ s.rd (.SVC_DL x) F.SVC_DL.first_us * 1000 * nsUnits)
  let reason :=
    if !s.cfgValid sv then 1
    else if !s.placeOk sv skip c then 2
    else if !s.isDeadline sv then 0
    else if !s.pagesOk sv more then 3
    else if s.rd (.SVC_DL sv) F.SVC_DL.token_us * 1000 * nsUnits < ts then 4
    else if s.rd (.SVC_DL sv) F.SVC_DL.first_us * 1000 * nsUnits < tf then 5
    else if (set.filter (fun x => decide (x ≠ sv))).any (fun x => !fits x (Tab.getD s.serve.costs x Cost.reset)) then 6
    else 0
  (reason, ts, tf)

/-- The bounds shown, rounded up (R386). -/
def State.showBounds (s : State) (sv ts tf : Nat) : State :=
  let up := fun (x m : Nat) => (x + m - 1) / m
  (s.wr (.SVC_STAT sv) F.SVC_STAT.step_bound (min (up ts nsUnits) (2 ^ 24 - 1))).wr (.SVC_STAT sv) F.SVC_STAT.first_bound
    (min (up tf (1000 * nsUnits)) (2 ^ 24 - 1))

/-- Scratch pages drawn at configuration (R305). -/
def State.drawScratch (s : State) (sv : Nat) : State :=
  if !s.poolOn sv then s
  else (List.range (s.maxBatch sv)).foldl (fun s b => (List.range (s.scratchOf sv)).foldl (fun s _ =>
    match s.drawPage sv 1 4 0xFFFF with
    | none => s
    | some (s, x) => s.setKv { s.kv with scratch := Tab.put s.kv.scratch (sv * 64 + b) [] (Tab.getD s.kv.scratch (sv * 64 + b) [] ++ [x]) }) s) s

/-- SERVICE_ENABLE (R370): the admission unit starts. -/
def execServiceEnable (sv : Nat) (s : State) : Res :=
  if 64 ≤ sv ∨ s.svcOn sv ∨ s.on (.SVC_STAT sv) F.SVC_STAT.busy then .next s
  else .next (s.wr (.SVC_STAT sv) F.SVC_STAT.busy 1)

/-- A re-run's outcome (R373, R374): void entered or left. -/
def State.rerunEnd (s : State) (sv reason : Nat) : State :=
  let was := s.on (.SVC_STAT sv) F.SVC_STAT.void
  let s := s.wr (.SVC_STAT sv) F.SVC_STAT.reason reason
  if reason ≠ 0 ∧ !was then
    let s := (s.wr (.SVC_STAT sv) F.SVC_STAT.void 1).raise { rtEvent 1 with unit := sv }
    (s.serve.entries.filter (fun p => decide (p.2.service = sv) && p.2.live)).foldl (fun s p => s.setEntry p.1 ((s.entry p.1).setFlag fVoid true)) s
  else if reason = 0 ∧ was then (s.wr (.SVC_STAT sv) F.SVC_STAT.void 0).raise { rtEvent 1 with unit := sv }
  else s

/-- ADMISSION_DONE (R370-R374): the proof ends, over the cost record the service names. -/
def execAdmissionDone (sv : Nat) (c : Cost) (s : State) : Res :=
  if !s.on (.SVC_STAT sv) F.SVC_STAT.busy then .next s
  else
    let r := s.prove sv sv false c
    let s := (s.wr (.SVC_STAT sv) F.SVC_STAT.busy 0).showBounds sv r.2.1 r.2.2
    if s.svcOn sv then
      let s := { s with serve := { s.serve with costs := Tab.put s.serve.costs sv Cost.reset c } }
      .next (s.rerunEnd sv r.1)
    else
      let s := (s.wr (.SVC_STAT sv) F.SVC_STAT.reason r.1).raise { rtEvent 1 with unit := sv }
      if r.1 ≠ 0 then .next (s.wr (.SVC_STAT sv) F.SVC_STAT.admitted 0)
      else
        let s := ((s.wr (.SVC_STAT sv) F.SVC_STAT.admitted 1).wr (.SVC_STAT sv) F.SVC_STAT.void 0).wr (.SVC_CTL sv) F.SVC_CTL.enable 1
        let s := { s with serve := { s.serve with costs := Tab.put s.serve.costs sv Cost.reset c } }
        let s := s.drawScratch sv
        if s.isDeadline sv then
          let s := s.setKv { s.kv with reserved := Tab.put s.kv.reserved sv 0 (s.reserveOf sv) }
          .next (((s.rerun).wr (.SVC_STAT sv) F.SVC_STAT.busy 0))
        else .next s

/-- SVC_READMIT (R373): a re-run of the proof. -/
def execSvcReadmit (sv : Nat) (s : State) : Res :=
  if s.svcOn sv then .next (s.wr (.SVC_STAT sv) F.SVC_STAT.busy 1) else .next s

/-- SERVICE_DISABLE (R381): takes effect when the steps in flight are complete; other deadline services are proved again
(R373). -/
def execServiceDisable (sv : Nat) (s : State) : Res :=
  if !s.svcOn sv then .next s
  else
    let dl := s.isDeadline sv
    let s := if s.serve.steps.any (fun r => decide (r.service = sv)) then
        { s with serve := { s.serve with disabling := insertNat s.serve.disabling sv } }
      else s.disableNow sv
    .next (if dl then s.rerun else s)

/-- SVC_STOP (R381). -/
def execSvcStop (sv : Nat) (s : State) : Res := .next (s.wr (.SVC_CTL sv) F.SVC_CTL.stop 1)

/-- BUD_CFG_WRITE (R388): the level becomes burst × 256. -/
def execBudCfgWrite (c value : Nat) (s : State) : Res :=
  let s := s.wr (.BUD_CFG c) F.BUD_CFG.rate (bits value 63 32)
  let s := s.wr (.BUD_CFG c) F.BUD_CFG.burst (bits value 22 0)
  .next (s.setLevel c (bits value 22 0 * 256))

end Sys2Proof.Machine
end

