-- ==== Sys2Proof/Machine/PoolCfg.lean ====
section
/-! DEFINITION. Pool and range configuration (R307-R309, R336), reads of coded ranges (R329), the norm watch's clear (R273). -/

namespace Sys2Proof.Machine

/-- NW_CLEAR (R273). -/
def execNwClear (sv : Nat) (s : State) : Res := .next (s.nwClear sv)

/-- The HBM ranges of a pool (R307): pages, then descriptors with token records. -/
def State.poolRanges (s : State) (sv : Nat) : List (Nat × Nat) :=
  [(s.poolBase sv, s.poolPages sv * s.pageBytes sv),
   (s.descBase sv, s.tokenBase sv + s.poolPages sv * s.pageTokens sv * 4 - s.descBase sv)]

/-- Two ranges, base and length, meet. -/
def meet (a b : Nat × Nat) : Bool := decide (a.1 < b.1 + b.2) && decide (b.1 < a.1 + a.2)

/-- A pool may be enabled (R307); a pool of no pages or beyond HBM may not (log entry 48). -/
def State.poolOk (s : State) (sv : Nat) : Bool :=
  let pt := s.rd (.KV_POOL_CFG sv) F.KV_POOL_CFG.pt_log2
  decide (4 ≤ pt) && decide (pt ≤ 8) && decide (s.posStride sv ≠ 0) && decide (s.posStride sv % 64 = 0)
    && decide (2 ^ pt * s.posStride sv ≤ s.pageBytes sv) && decide (1 ≤ s.poolPages sv) && decide (s.poolPages sv ≤ 0xFFFFFFFE)
    && (s.poolRanges sv).all (fun r => decide (r.1 + r.2 ≤ 2 ^ 40))
    && (List.range 64).all (fun x => decide (x = sv) || !s.poolOn x
      || (s.poolRanges sv).all (fun a => (s.poolRanges x).all (fun b => !meet a b)))

/-- KV_POOL_ENABLE (R307): every page FREE, the free list linked in ascending order, ready set; or refused. -/
def execKvPoolEnable (sv : Nat) (s : State) : Res :=
  if s.poolOn sv then .next s
  else if !s.poolOk sv then .next (s.wr (.KV_POOL_STAT sv) F.KV_POOL_STAT.cfg_err 1)
  else
    let n := s.poolPages sv
    let s := s.wr (.KV_POOL_CFG sv) F.KV_POOL_CFG.enable 1
    let s := (List.range n).foldl (fun s x => s.setPage sv x ⟨0, 0, 0, 0, 0, if x + 1 = n then 0xFFFFFFFF else x + 1⟩) s
    .next ((s.setFree sv (List.range n)).wr (.KV_POOL_STAT sv) F.KV_POOL_STAT.ready 1)

/-- KV_POOL_DISABLE (R307): refused while any page is drawn. -/
def execKvPoolDisable (sv : Nat) (s : State) : Res :=
  if !s.poolOn sv then .next s
  else if (s.freeList sv).length < s.poolPages sv then .next (s.wr (.KV_POOL_STAT sv) F.KV_POOL_STAT.cfg_err 1)
  else
    let s := (s.setFree sv []).wr (.KV_POOL_CFG sv) F.KV_POOL_CFG.enable 0
    .next (s.wr (.KV_POOL_STAT sv) F.KV_POOL_STAT.ready 0)

/-- KV_POOL_STRIDE_WRITE (R309). -/
def execKvPoolStrideWrite (sv value : Nat) (s : State) : Res :=
  if s.poolOn sv then .next (s.wr (.KV_POOL_STAT sv) F.KV_POOL_STAT.cfg_err 1)
  else .next (s.wr (.KV_POOL_STRIDE sv) F.KV_POOL_STRIDE.pos_stride (bits value 19 0))

/-- CODED_SECTOR_READ (R329): a reader's 64-byte read inside an enabled range, served by its header. -/
def execCodedSectorRead (kind num addr : Nat) (s : State) : Res :=
  let a := addr / 64 * 64
  if (s.rangeOf a).isNone then .next s
  else
    let r := s.sectorRead kind num a
    .next (r.1.emit (.read (ofBytes r.2.1) r.2.2))

/-- The bytes of a coded range with its headers. -/
def State.rangeSpan (s : State) (st k : Nat) : Nat × Nat :=
  (s.rd (.PRISM_RANGE_BASE st k) F.PRISM_RANGE_BASE.addr * 4096, s.rd (.PRISM_RANGE_SLOTS st k) F.PRISM_RANGE_SLOTS.slots * 4128)

/-- PRISM_RANGE_ENABLE (R336): a write of PRISM_RANGE_BASE_k. -/
def execPrismRangeEnable (st k value : Nat) (s : State) : Res :=
  let r := Reg.PRISM_RANGE_BASE st k
  let err := fun (s : State) => s.wr (.PRISM_RANGE_STAT st) F.PRISM_RANGE_STAT.cfg_err 1
  if s.on r F.PRISM_RANGE_BASE.enable then
    let s := if bits value 39 12 = s.rd r F.PRISM_RANGE_BASE.addr then s else err s
    .next (s.wr r F.PRISM_RANGE_BASE.enable (bits value 63 63))
  else
    let s := s.wr r F.PRISM_RANGE_BASE.addr (bits value 39 12)
    if !bitAt value 63 then .next s
    else
      let me := s.rangeSpan st k
      let ok := decide (me.2 ≠ 0) && decide (st * 2 ^ 37 ≤ me.1) && decide (me.1 + me.2 ≤ (st + 1) * 2 ^ 37)
        && (List.range 8).all (fun j => decide (j = k) || !s.on (.PRISM_RANGE_BASE st j) F.PRISM_RANGE_BASE.enable || !meet me (s.rangeSpan st j))
      .next (if ok then s.wr r F.PRISM_RANGE_BASE.enable 1 else err s)

end Sys2Proof.Machine
end

