-- ==== Sys2Proof/Machine/Epochs.lean ====
section
/-! DEFINITION. Epoch switches (R400-R407) and the placement map (R412). -/

namespace Sys2Proof.Machine

/-- The facets bound to a service. -/
def State.boundTo (s : State) (sv : Nat) : List Nat :=
  (List.range 816).filter (fun p => s.on (.FAC_BIND p) F.FAC_BIND.bound && decide (s.rd (.FAC_BIND p) F.FAC_BIND.service = sv))

/-- EPOCH_SWITCH (R402): the proof starts. -/
def execEpochSwitch (sv : Nat) (s : State) : Res :=
  if 64 ≤ sv ∨ s.on (.EP_STAT sv) F.EP_STAT.busy then .next s else .next (s.wr (.EP_STAT sv) F.EP_STAT.busy 1)

/-- Why a switch is refused (R402); 0 when it is not. -/
def State.switchErr (s : State) (sv : Nat) (c : Cost) : Nat :=
  let target := s.rd (.EP_CTL sv) F.EP_CTL.target
  let pin := s.on (.SVC_CFG sv) F.SVC_CFG.epoch_pol
  let pfs := s.boundTo sv
  let staged := fun p => decide (s.rd (.FAC_EPOCH p) F.FAC_EPOCH.staged_epoch = target)
  if target = 0 ∨ target = 0xFFFF ∨ target = s.curEpoch sv then 1
  else if s.oldEpoch sv ≠ 0 then 2
  else if s.loader.jobs.any (fun j => decide (j.kind = 3) && decide (j.epoch = target)) || s.loader.failed.any (fun f => decide (f.1 = target))
      || !pfs.any (fun p => s.listsEpoch p target) then 3
  else if pin && pfs.any staged then 4
  else if (s.prove sv 1000 pin c).1 ≠ 0 ∨ (pin ∧ (s.prove sv sv pin (Tab.getD s.serve.costs sv Cost.reset)).1 ≠ 0) then 5
  else if !s.svcOn sv then 6
  else 0

/-- EPOCH_SWITCH_DONE (R402, R406): the switch is accepted, in one hub cycle, or refused. -/
def execEpochSwitchDone (sv : Nat) (c : Cost) (s : State) : Res :=
  if !s.on (.EP_STAT sv) F.EP_STAT.busy then .next s
  else
    let target := s.rd (.EP_CTL sv) F.EP_CTL.target
    let e := s.switchErr sv c
    let s := (s.wr (.EP_STAT sv) F.EP_STAT.busy 0).wr (.EP_STAT sv) F.EP_STAT.err e
    if e ≠ 0 then .next (s.raise ⟨1, 0x104, sv, 0xFFFF, [target, e]⟩)
    else
      let cur := s.curEpoch sv
      let s := (s.wr (.EP_STAT sv) F.EP_STAT.old cur).wr (.EP_STAT sv) F.EP_STAT.cur target
      let s := s.wr (.EP_STAT sv) F.EP_STAT.draining (if cur = 0 then 0 else 1)
      let s := s.wr (.SVC_COST sv) F.SVC_COST.addr (s.rd (.EP_COST sv) F.EP_COST.addr)
      let was := Tab.getD s.serve.costs sv Cost.reset
      let s := { s with serve := { s.serve with
        costs := Tab.put (if cur = 0 then s.serve.costs else Tab.put s.serve.costs (64 + sv) Cost.reset was) sv Cost.reset c } }
      let s := if s.on (.SVC_CFG sv) F.SVC_CFG.epoch_pol && s.isDeadline sv && decide (cur ≠ 0) then
          s.setKv { s.kv with reserved := Tab.put s.kv.reserved sv 0 (2 * s.reserveOf sv) } else s
      let s := if s.on (.EP_CTL sv) F.EP_CTL.nw_clear then s.nwClear sv else s
      .next ((s.countOld sv).raise ⟨1, 0x103, sv, 0xFFFF, [cur, target]⟩)

/-- Prefix entries of a service's epoch whose page only the table holds, released one at a time (R304, R406). -/
def State.releaseEpoch (s : State) (sv ep : Nat) : Nat → State
  | 0 => s
  | f + 1 => match s.pfxVictim 0x10000 (fun p => decide (p.service = sv) && decide (p.epoch = ep)) with
    | none => s
    | some i => State.releaseEpoch (s.releasePfx i) sv ep f

/-- EPOCH_RETIRE (R403, R404, R406): the old epoch is retired when nothing uses it. -/
def execEpochRetire (sv : Nat) (s : State) : Res :=
  let old := s.oldEpoch sv
  if old = 0 ∨ s.usesOld sv ≠ 0 then .next s
  else
    let s := s.releaseEpoch sv old (s.kv.pfx.length + 1)
    let s := ((s.wr (.EP_STAT sv) F.EP_STAT.old 0).wr (.EP_STAT sv) F.EP_STAT.draining 0).wr (.EP_STAT sv) F.EP_STAT.live_old 0
    let s := (s.boundTo sv).foldl (fun s p =>
      let s := if s.rd (.FAC_EPOCH p) F.FAC_EPOCH.ep_a = old then s.wr (.FAC_EPOCH p) F.FAC_EPOCH.ep_a 0 else s
      if s.rd (.FAC_EPOCH p) F.FAC_EPOCH.ep_b = old then s.wr (.FAC_EPOCH p) F.FAC_EPOCH.ep_b 0 else s) s
    let s := { s with serve := { s.serve with costs := Tab.erase s.serve.costs (64 + sv) } }
    let s := if s.isDeadline sv then s.setKv { s.kv with reserved := Tab.put s.kv.reserved sv 0 (s.reserveOf sv) } else s
    .next (s.raise ⟨1, 0x105, sv, 0xFFFF, [old]⟩)

/-- A facet in state RESET or IDLE and not bound (R412). -/
def State.idleUnbound (s : State) (p : Nat) : Bool :=
  decide (s.facState p ≤ 1) && !s.on (.FAC_BIND p) F.FAC_BIND.bound

/-- LF_MAP_WRITE (R412): moves or removes an LF, or is refused; a write that names the facet already holding the LF
changes nothing (log entry 49). -/
def execLfMapWrite (n value : Nat) (s : State) : Res :=
  let r := Reg.LF_MAP n
  let s := if bitAt value 62 then s.wr r F.LF_MAP.refused 0 else s
  let p := bits value 9 0
  let holder := s.pfOf n
  let free := match holder with | none => true | some q => s.idleUnbound q
  let drop := fun (s : State) => match holder with | none => s | some q => s.wr (.FAC_BIND q) F.FAC_BIND.lf 0x3FF
  if 768 ≤ n then .next s
  else if bitAt value 63 then
    if holder = some p then .next s
    else if free && decide (p < 816) && !(s.facet p).fenced && decide (s.lfOf p = 0x3FF) && s.idleUnbound p then
      let s := (drop s).wr (.FAC_BIND p) F.FAC_BIND.lf n
      .next ((s.wr r F.LF_MAP.valid 1).wr r F.LF_MAP.pf p).rerun
    else .next (s.wr r F.LF_MAP.refused 1)
  else if free then .next ((drop s).wr r F.LF_MAP.valid 0).rerun
  else .next (s.wr r F.LF_MAP.refused 1)

end Sys2Proof.Machine
end

