-- ==== Sys2Proof/Machine/Refresh.lean ====
section
/-! DEFINITION. Margin scans and due arrays (R150-R152), refresh (R153, R154), row writes and wear (R155-R157), and the row
writes of the loader (R398, R399). -/

namespace Sys2Proof.Machine

/-- ARRAY_SCAN_END (R151): `cells` lists row, weak cells and flipped cells of each row with any. -/
def execArrayScanEnd (pf arr : Nat) (cells : List (Nat × Nat × Nat)) (s : State) : Res :=
  let st := s.arrState pf arr
  if st ≠ 1 ∧ st ≠ 2 then .next s
  else
    let r := Reg.ARR_MARGIN pf arr
    let bad := cells.filter (fun c => decide (0 < c.2.1 + c.2.2))
    let flips := bad.filter (fun c => decide (0 < c.2.2))
    let n := (bad.map (fun c => c.2.1 + c.2.2)).sum
    let s := s.bump r F.ARR_MARGIN.scans 1
    let s := ((s.wr r F.ARR_MARGIN.flipped_rows flips.length).wr r F.ARR_MARGIN.weak_rows bad.length).wr r F.ARR_MARGIN.weak_cells (min n 65535)
    .next (s.setParr pf arr { s.parr pf arr with weakRows := bad.map Prod.fst, flipped := !flips.isEmpty })

/-- The class in which a bound array is due for refresh (R152). -/
def State.dueClass (s : State) (pf a : Nat) : Option Nat :=
  let c := Reg.REF_REGION_CTL (regionOf pf)
  let r := Reg.ARR_MARGIN pf a
  if s.arrState pf a ≠ 1 then none
  else if s.on (.SP_ARR pf a) F.SP_ARR.takeover_req then some 1
  else if !s.on c F.REF_REGION_CTL.enable || decide (s.rd r F.ARR_MARGIN.scans = 0) then none
  else if (s.parr pf a).flipped then some 2
  else if s.rd c F.REF_REGION_CTL.weak_limit ≤ s.rd r F.ARR_MARGIN.weak_cells then some 3 else none

/-- The MIRROR array a write claims (R153, R157, R397): of the array's layer if there is one, else any of the facet. -/
def State.claimable (s : State) (pf a : Nat) : Option Nat :=
  let l := (List.range s.variant.arrays).filter (fun b => decide (s.arrState pf b = 2) && decide (s.rd (.ARR_WEAR pf b) F.ARR_WEAR.writes < 100000))
  (l.find? (fun b => decide (b / 33 = a / 33))).orElse (fun _ => l.head?)

/-- Every array with rows to write: rank of R399 (takeovers, loader jobs in ring order, other refreshes), facet, physical
array, row in progress?. -/
def State.rowWriters (s : State) : List (Nat × Nat × Nat × Bool) :=
  s.regions.flatMap (fun e => (e.2.refs.filter (fun r => !r.rows.isEmpty)).map (fun r =>
      (if r.all then 0 else 100000, r.pf, (if r.phase = 2 then r.new else r.old), decide (r.cycle ≠ 0))))
    ++ (s.loader.jobs.mapIdx (fun i j => (i + 1, j))).filterMap (fun x =>
      if x.2.kind = 3 ∧ x.2.status = none ∧ !x.2.rows.isEmpty then some (x.1, x.2.pf, x.2.phys, decide (x.2.cycle ≠ 0)) else none)

/-- May an array start its next row (R155, R399)? -/
def State.mayStartRow (s : State) (pf a rank : Nat) : Bool :=
  let l := s.rowWriters.filter (fun w => !(decide (w.2.1 = pf) && decide (w.2.2.1 = a)))
  s.writeWindow (regionOf pf)
    && decide ((l.filter (fun w => w.2.2.2 || decide (w.1 < rank))).length < max 1 (s.rd .LD_CTL F.LD_CTL.max_wr))
    && decide ((l.filter (fun w => w.2.2.2 && decide (w.2.1 = pf))).length < 16)

/-- A write operation counted before it starts (R157, R468), with WEAR_WARN. -/
def State.wearWrite (s : State) (pf a : Nat) : State :=
  let s := s.bump (.ARR_WEAR pf a) F.ARR_WEAR.writes 1
  let n := s.rd (.ARR_WEAR pf a) F.ARR_WEAR.writes
  if n = 90000 then s.raise (regionEvent (regionOf pf) 0x206 [pf, a, n]) else s

/-- A weight write or refresh clears an array's marks and fallback history (R121). -/
def State.clearHistory (s : State) (pf a : Nat) : State :=
  let r := Reg.SP_ARR pf a
  let s := ((s.wr r F.SP_ARR.marked 0).wr r F.SP_ARR.takeover_req 0).wr r F.SP_ARR.fb_window 0
  s.setParr pf a { s.parr pf a with prods := 0, fbs := [] }

/-- A row's trits written (R156). -/
def State.storeRow (s : State) (pf a r : Nat) (row : Tab Int) : State :=
  let x := s.parr pf a
  let kept := x.w.filter (fun e => decide (e.1 / 1024 ≠ r))
  let s := s.setParr pf a { x with w := row.foldl (fun t e => Tab.put t (r * 1024 + e.1) 0 e.2) kept }
  s.bump (.ARR_WEAR pf a) F.ARR_WEAR.rows 1

/-- A golden row (R117): its trits by column, none where it is poisoned or invalid. -/
def State.goldenRow (s : State) (kind num src r : Nat) : State × Option (Tab Int) :=
  let b := s.rangeRead kind num (src + 205 * r) 205
  (b.1, if b.2.any Prod.snd then none else goldRow (b.2.map Prod.fst))

/-- A refresh's record replaced, or removed. -/
def State.setRefresh (s : State) (g old : Nat) (pf : Nat) (x : Option Refresh) : State :=
  let r := s.region g
  s.setRegion g { r with refs := r.refs.filterMap (fun q => if q.pf = pf ∧ q.old = old then x else some q) }

/-- A claimed array returned to MIRROR (R154). -/
def State.unclaim (s : State) (pf m : Nat) : State := if s.arrState pf m = 4 then s.releaseArray pf m 2 else s

/-- REFRESH_START (R152, R153): the first due array whose facet has a MIRROR array is claimed for. -/
def execRefreshStart (pf arr : Nat) (s : State) : Res :=
  let g := regionOf pf
  let refs := (s.region g).refs
  let cand := fun p a => !refs.any (fun r => decide (r.pf = p) && decide (r.old = a)) && (s.dueClass p a).isSome
    && (s.claimable p a).isSome && ((s.logicalOf p a).map (fun n => s.on (.GOLD_BASE p n) F.GOLD_BASE.valid)).getD false
  let better := (facetsOf g).any (fun p => (List.range s.variant.arrays).any (fun a => cand p a &&
    (let c := (s.dueClass p a).getD 9; let d := (s.dueClass pf arr).getD 9
     decide (c < d) || (decide (c = d) && (decide (p < pf) || (decide (p = pf) && decide (a < arr)))))))
  if !cand pf arr || s.regionCold g || better || decide (max 1 (s.rd (.REF_REGION_CTL g) F.REF_REGION_CTL.max_ref) ≤ refs.length) then .next s
  else match s.claimable pf arr, s.logicalOf pf arr with
    | some m, some n =>
      let all := decide (s.dueClass pf arr = some 1)
      let s := s.wearWrite pf m
      let s := s.setArrState pf m 4
      let c := if s.mayStartRow pf m (if all then 0 else 100000) then 1 else 0
      let r : Refresh := ⟨pf, arr, m, n, 2, List.range 1024, c, s.rd (.GOLD_BASE pf n) F.GOLD_BASE.addr * 64, all, 0⟩
      .next (s.setRegion g { s.region g with refs := refs ++ [r] })
    | _, _ => .next s

/-- The written copy asks for the binding between two products (R96, R153). -/
def State.askRebind (s : State) (r : Refresh) : State :=
  let x := s.larr r.pf r.logical
  if s.physOf r.pf r.logical = r.old ∧ x.bind = none then
    (s.setLarr r.pf r.logical { x with bind := some (r.new, true) }).wr (.ARR_MAP r.pf r.logical) F.ARR_MAP.pending 1
  else s

/-- A refresh whose row write failed (R154): the array being written is fenced. -/
def State.refreshFail (s : State) (r : Refresh) (row : Nat) : State :=
  let t := if r.phase = 2 then r.new else r.old
  let s := s.setRefresh (regionOf r.pf) r.old r.pf none
  (s.fenceArray r.pf t 0).raise (regionEvent (regionOf r.pf) 0x205 [r.pf, t, row])

/-- A program-verify cycle of a refresh's row ends (R154, R156). -/
def refreshCycle (s : State) (r : Refresh) (ok : Bool) : State :=
  let g := regionOf r.pf
  let t := if r.phase = 2 then r.new else r.old
  match r.rows with
  | [] => s
  | row :: rest =>
    if !ok && decide (r.cycle < 4) then s.setRefresh g r.old r.pf (some { r with cycle := r.cycle + 1 })
    else if !ok then s.refreshFail r row
    else
      let gr := s.goldenRow 3 r.pf r.src row
      match gr.2 with
      | none => gr.1.refreshFail r row
      | some w =>
        let s := gr.1.storeRow r.pf t row w
        if s.arrState r.pf r.old = 5 then (s.setRefresh g r.old r.pf none).unclaim r.pf r.new
        else
          let q := { r with rows := rest, cycle := 0, done := r.done + 1 }
          let s := s.setRefresh g r.old r.pf (some q)
          if rest.isEmpty then (if r.phase = 2 then s.askRebind q else s)
          else s.setRefresh g r.old r.pf (some { q with cycle := if s.mayStartRow r.pf t (if r.all then 0 else 100000) then 1 else 0 })

/-- A loader job's record replaced. -/
def State.setJob (s : State) (slot : Nat) (f : LdJob → LdJob) : State :=
  { s with loader := { s.loader with jobs := s.loader.jobs.map (fun j => if j.slot = slot then f j else j) } }

/-- A row of an AWRITE that cannot be written is written once more; a second failure ends the job with 0x8004 and fences
the array (R398). -/
def State.jobRowFail (s : State) (j : LdJob) (row : Nat) : State :=
  if !j.second then s.setJob j.slot (fun j => { j with second := true, cycle := 1 })
  else
    let s := s.setJob j.slot (fun j => { j with status := some 0x8004, cycle := 0 })
    (s.fenceArray j.pf j.phys 0).raise (regionEvent (regionOf j.pf) 0x205 [j.pf, j.phys, row])

/-- A program-verify cycle of an AWRITE's row ends (R398). -/
def jobCycle (s : State) (i : Nat) (j : LdJob) (ok same : Bool) : State :=
  match j.rows with
  | [] => s
  | row :: rest =>
    if !ok && decide (j.cycle < 4) then s.setJob j.slot (fun j => { j with cycle := j.cycle + 1 })
    else
      let gr := s.goldenRow 2 0 j.src row
      match gr.2 with
      | none => gr.1.setJob j.slot (fun j => { j with status := some 0x8002, cycle := 0 })
      | some w =>
        let s := if ok then gr.1.storeRow j.pf j.phys row w else gr.1
        if !ok || !same then s.jobRowFail j row
        else
          let e := s.rangeRead 2 0 (j.len + 3 * row) 3
          let s := e.1
          if e.2.any Prod.snd then s.setJob j.slot (fun j => { j with status := some 0x8002, cycle := 0 })
          else
            let chk := (Mem.empty).write (3 * row) (e.2.map Prod.fst)
            let s := s.setJob j.slot (fun j => { j with rows := rest, second := false, chkBad := j.chkBad || !rowOk chk w row, cycle := 0 })
            if rest.isEmpty || !s.mayStartRow j.pf j.phys (i + 1) then s
            else s.setJob j.slot (fun j => { j with cycle := 1 })

/-- The refresh that writes an array. -/
def State.refreshAt (s : State) (pf arr : Nat) : Option Refresh :=
  (s.region (regionOf pf)).refs.find? (fun r => decide (r.pf = pf) && decide ((if r.phase = 2 then r.new else r.old) = arr))

/-- The loader job that writes an array, with its place. -/
def State.jobAt (s : State) (pf arr : Nat) : Option (Nat × LdJob) :=
  (s.loader.jobs.mapIdx (fun i j => (i, j))).find? (fun x =>
    decide (x.2.kind = 3) && decide (x.2.pf = pf) && decide (x.2.phys = arr) && x.2.status.isNone)

/-- ROW_WRITE_CYCLE (R156, R398): `ok`: every cell senses with margin and no pair holds (+, +); `same`: the row read back
equals the golden bytes. -/
def execRowWriteCycle (pf arr : Nat) (ok same : Bool) (s : State) : Res :=
  match s.refreshAt pf arr with
  | some r => .next (if r.cycle = 0 then s else refreshCycle s r ok)
  | none => match s.jobAt pf arr with
    | some (i, j) => .next (if j.cycle = 0 then s else jobCycle s i j ok same)
    | none => .next s

/-- WRITE_WINDOW_RESUME (R155, R399): an array waiting to start a row starts it. -/
def execWriteWindowResume (pf arr : Nat) (s : State) : Res :=
  match s.refreshAt pf arr with
  | some r => .next (if r.cycle = 0 ∧ !r.rows.isEmpty ∧ s.mayStartRow pf arr (if r.all then 0 else 100000) then
      s.setRefresh (regionOf pf) r.old pf (some { r with cycle := 1 }) else s)
  | none => match s.jobAt pf arr with
    | some (i, j) => .next (if j.cycle = 0 ∧ !j.rows.isEmpty ∧ s.mayStartRow pf arr (i + 1) then
        s.setJob j.slot (fun j => { j with cycle := 1 }) else s)
    | none => .next s

/-- REFRESH_REBIND (R153, R154): between two products the written copy takes the logical array. -/
def execRefreshRebind (pf arr : Nat) (s : State) : Res :=
  let g := regionOf pf
  match (s.region g).refs.find? (fun r => decide (r.pf = pf) && decide (r.old = arr) && decide (r.phase = 2) && r.rows.isEmpty) with
  | none => .next s
  | some r =>
    if s.physOf pf r.logical ≠ arr ∨ s.arrState pf arr = 5 then .next ((s.setRefresh g arr pf none).unclaim pf r.new)
    else if (s.larr pf r.logical).bind ≠ some (r.new, true) then .next (s.askRebind r)
    else if !s.betweenProducts pf r.logical then .next s
    else
      let s := (s.clearHistory pf r.new).bindArray pf r.logical r.new 3
      if s.arrState pf arr ≠ 3 then .next (s.setRefresh g arr pf none)
      else
        let s := s.wearWrite pf arr
        let rows := if r.all then List.range 1024 else (s.parr pf arr).weakRows
        let q := { r with phase := 4, rows := rows, cycle := 0, done := 0 }
        let s := s.setRefresh g arr pf (some q)
        .next (if !rows.isEmpty ∧ s.mayStartRow pf arr (if r.all then 0 else 100000) then
          s.setRefresh g arr pf (some { q with cycle := 1 }) else s)

/-- REFRESH_COMPLETE (R153, R154): `cells` is what the read of every row of the old array found. -/
def execRefreshComplete (pf arr : Nat) (cells : List (Nat × Nat × Nat)) (s : State) : Res :=
  let g := regionOf pf
  match (s.region g).refs.find? (fun r => decide (r.pf = pf) && decide (r.old = arr) && decide (r.phase = 4) && r.rows.isEmpty) with
  | none => .next s
  | some r =>
    let s := s.setRefresh g arr pf none
    if s.arrState pf arr = 5 then .next s
    else match cells.find? (fun c => decide (0 < c.2.2)) with
      | some c => .next ((s.fenceArray pf arr 0).raise (regionEvent g 0x205 [pf, arr, c.1]))
      | none =>
        let s := (s.clearHistory pf arr).releaseArray pf arr 2
        let s := s.setParr pf arr { s.parr pf arr with weakRows := (cells.filter (fun c => decide (0 < c.2.1))).map Prod.fst, flipped := false }
        .next (s.raise (regionEvent g 0x204 [pf, arr, r.new, r.done]))

end Sys2Proof.Machine
end

