-- ==== Sys2Proof/Machine/Loader.lean ====
section
/-! DEFINITION. The loader (R393-R399): its ring, COPY and AWRITE jobs, and how jobs end. -/

namespace Sys2Proof.Machine

/-- Descriptors of the loader's ring (R408). -/
def State.ringSize (s : State) : Nat := 2 ^ (min 8 (s.rd .LD_RING F.LD_RING.size_log2) + 4)

/-- Hub SRAM offset of a descriptor. -/
def State.descAddr (s : State) (slot : Nat) : Nat := s.rd .LD_RING F.LD_RING.addr * 64 + slot * 64

/-- A descriptor's fields (R393). -/
def jobOf (slot : Nat) (b : List Byte) : LdJob :=
  let fl := field b 1 1
  ⟨slot, field b 0 1, bitAt fl 0, bitAt fl 2, field b 2 2, field b 4 2, field b 8 8, field b 16 8, field b 24 8,
    bitsSet 256 (field b 32 32), none, field b 16 8 % 1024, bits (field b 16 8) 22 16, 0, [], 0, false, false⟩

/-- A malformed descriptor (R393, R394). -/
def jobBad (b : List Byte) : Bool :=
  let j := jobOf 0 b
  decide (8 ≤ field b 1 1) || decide (j.src % 64 ≠ 0)
    || (if j.kind = 1 ∨ j.kind = 2 then
        j.rebind || decide (j.epoch ≠ 0) || decide (j.dst % 64 ≠ 0) || decide (j.len % 64 ≠ 0)
          || decide (2 ^ 40 < j.src + j.len) || decide (2 ^ 40 < j.dst + j.len)
      else if j.kind = 3 then
        decide (816 ≤ j.pf) || decide (2 ^ 40 < j.src + 209920) || decide (2 ^ 40 < j.len + 3072)
          || (if j.rebind then decide (j.epoch = 0) || decide (j.epoch = 0xFFFF) else decide (j.epoch ≠ 0))
      else true)

/-- The descriptor at the head of the ring, when the loader may start it (R393). -/
def State.nextJob (s : State) : Option (Nat × List Byte) :=
  let h := s.rd .LD_RING F.LD_RING.head
  let b := s.hub.read (s.descAddr h) 64
  if s.on .LD_CTL F.LD_CTL.enable && decide (h ≠ s.rd .LD_RING F.LD_RING.tail)
      && (!bitAt (field b 1 1) 1 || s.loader.jobs.isEmpty) then some (h, b) else none

/-- A job started: head advances. -/
def State.startJob (s : State) (j : LdJob) : State :=
  let s := s.wr .LD_RING F.LD_RING.head ((j.slot + 1) % s.ringSize)
  { s with loader := { s.loader with jobs := s.loader.jobs ++ [j] } }

/-- A job that fails as it starts. -/
def State.failJob (s : State) (j : LdJob) (code : Nat) : State := s.startJob { j with status := some code, pkgs := [] }

/-- COPY (R393): the bytes up to the first poisoned sector are copied; a descriptor of an unknown kind is refused here. -/
def execCopy (s : State) : Res :=
  match s.nextJob with
  | none => .next s
  | some (h, b) =>
    let j := jobOf h b
    if j.kind = 2 ∨ j.kind = 3 then .next s
    else if jobBad b then .next (s.failJob j 0x8001)
    else
      let r := s.sectorsRead 2 0 j.src (j.len / 64)
      let good := r.2.takeWhile (fun x => !x.2)
      let w := (r.1.sectorsWrite j.dst good).1
      .next (w.startJob { j with status := some (if good.length < j.len / 64 then 0x8002 else 1), pkgs := [] })

/-- A direct or staged AWRITE begins on a physical array (R396, R397). -/
def State.startWrite (s : State) (i : Nat) (j : LdJob) (a : Nat) : State :=
  if 100000 ≤ s.rd (.ARR_WEAR j.pf a) F.ARR_WEAR.writes then s.failJob j 0x8006
  else
    let s := (s.wearWrite j.pf a).dropShadows j.pf a
    let s := s.setArrState j.pf a 4
    let c := if s.mayStartRow j.pf a (i + 1) then 1 else 0
    s.startJob { j with phys := a, rows := List.range 1024, cycle := c, pkgs := [] }

/-- AWRITE_DIRECT (R390, R396): between two products the bound array enters WRITE. -/
def execAwriteDirect (s : State) : Res :=
  match s.nextJob with
  | none => .next s
  | some (h, b) =>
    let j := jobOf h b
    if j.kind ≠ 3 ∨ j.rebind then .next s
    else if jobBad b then .next (s.failJob j 0x8001)
    else if s.variant.logicals ≤ j.logical then .next (s.failJob j 0x8008)
    else
      let a := s.physOf j.pf j.logical
      if s.arrState j.pf a = 5 ∨ s.arrState j.pf a = 0 then .next (s.failJob j 0x8008)
      else if !s.betweenProducts j.pf j.logical || (s.jobAt j.pf a).isSome then .next s
      else .next (s.startWrite s.loader.jobs.length j a)

/-- AWRITE_REBIND (R390, R397): a MIRROR array is claimed, or the array left in WRITE by a job with a bad check entry. -/
def execAwriteRebind (s : State) : Res :=
  match s.nextJob with
  | none => .next s
  | some (h, b) =>
    let j := jobOf h b
    if j.kind ≠ 3 ∨ !j.rebind then .next s
    else if jobBad b then .next (s.failJob j 0x8001)
    else if s.variant.logicals ≤ j.logical then .next (s.failJob j 0x8008)
    else
      let a := s.physOf j.pf j.logical
      let e := s.rd (.FAC_EPOCH j.pf) F.FAC_EPOCH.staged_epoch
      let other := s.loader.jobs.any (fun q => decide (q.kind = 3) && q.rebind && decide (q.pf = j.pf) && decide (q.epoch ≠ j.epoch))
      let m := match s.loader.left.find? (fun q => decide (q.1 = j.pf) && decide (q.2.1 = j.logical)) with
        | some q => some q.2.2
        | none => s.claimable j.pf a
      if s.arrState j.pf a = 5 ∨ s.arrState j.pf a = 0 then .next (s.failJob j 0x8008)
      else if (e ≠ 0 ∧ e ≠ j.epoch) ∨ other then .next (s.failJob j 0x8001)
      else match m with
        | none => .next (s.failJob j 0x8008)
        | some m =>
          let s := { s with loader := { s.loader with left := s.loader.left.filter (fun q => !(decide (q.1 = j.pf) && decide (q.2.1 = j.logical))) } }
          .next (s.startWrite s.loader.jobs.length j m)

/-- A staged array recorded in its facet (R397); an earlier one for the same logical array is given up. -/
def State.stage (s : State) (j : LdJob) : State :=
  let l := Tab.getD s.staged j.pf []
  let s := (l.filter (fun x => decide (x.logical = j.logical))).foldl (fun s x => s.unclaim j.pf x.phys) s
  let l := l.filter (fun x => decide (x.logical ≠ j.logical)) ++ [⟨j.logical, j.phys, j.src, j.len, j.epoch⟩]
  let s := { s with staged := Tab.put s.staged j.pf [] l }
  (s.wr (.FAC_EPOCH j.pf) F.FAC_EPOCH.staged l.length).wr (.FAC_EPOCH j.pf) F.FAC_EPOCH.staged_epoch j.epoch

/-- A direct write takes effect between two products (R396): check entry, golden copy, SERVICE. -/
def State.installDirect (s : State) (j : LdJob) : State :=
  let x := s.larr j.pf j.logical
  let s := s.setLarr j.pf j.logical { x with chk := Mem.write Mem.empty 0 (s.hbm.read j.len 3072) }
  let s := (s.wr (.GOLD_BASE j.pf j.logical) F.GOLD_BASE.addr (j.src / 64)).wr (.GOLD_BASE j.pf j.logical) F.GOLD_BASE.valid 1
  s.setArrState j.pf j.phys 1

/-- The status a job ends with, once it can end (R393, R396, R398). -/
def State.jobStatus (s : State) (idx : Nat) (j : LdJob) : Option Nat :=
  if j.kind = 3 then
    match j.status with
    | some c => some c
    | none =>
      if !j.rows.isEmpty then none
      else if j.chkBad then some 0x8005
      else if !j.rebind && !s.betweenProducts j.pf j.logical then none
      else some 1
  else if (s.loader.jobs.take idx).any (fun q => decide (q.kind ≠ 3)) then none
  else match j.status with
    | some 1 => if j.pkgs.isEmpty then some 1 else none
    | c => c

/-- LOADER_JOB_END (R393, R394, R409, R413): the job's effects at its end, its status in the descriptor, its event. -/
def execLoaderJobEnd (idx : Nat) (s : State) : Res :=
  match s.loader.jobs[idx]? with
  | none => .next s
  | some j => match s.jobStatus idx j with
    | none => .next s
    | some c =>
      let key := (j.epoch, j.pf, j.logical)
      let aw := decide (j.kind = 3)
      let s := { s with loader := { s.loader with
        jobs := s.loader.jobs.eraseIdx idx
        failed := if !aw then s.loader.failed
          else if c = 1 then s.loader.failed.filter (fun q => decide (q ≠ key))
          else if s.loader.failed.contains key then s.loader.failed else s.loader.failed ++ [key]
        left := if aw ∧ j.rebind ∧ c = 0x8005 then s.loader.left ++ [(j.pf, j.logical, j.phys)] else s.loader.left } }
      let s := if aw ∧ c = 1 then
          let s := s.clearHistory j.pf j.phys
          (if j.rebind then s.stage j else s.installDirect j).bump .LD_STAT F.LD_STAT.arrays 1
        else s
      let s := { s with hub := s.hub.write (s.descAddr j.slot + 6) (toBytes 2 c) }
      if c = 1 then .next (if j.evt then s.raise ⟨0, 0x101, 0xFFFF, 0xFFFF, [j.tag, j.kind]⟩ else s)
      else
        let s := (s.bump .LD_STAT F.LD_STAT.errors 1).wr .LD_STAT F.LD_STAT.last_err c
        .next (if j.evt then s.raise ⟨0, 0x102, 0xFFFF, 0xFFFF, [j.tag, j.kind, c] ++ (if aw then [j.pf, j.logical] else [])⟩ else s)

end Sys2Proof.Machine
end

