-- ==== Sys2Proof/Machine/Links.lean ====
section
/-! DEFINITION. The links' commands (R483-R500): training, lanes, flits, messages, multicast jobs (R395), system time (R496) and the start
barrier (R497-R499). -/

namespace Sys2Proof.Machine

/-- The fields of LINK_PORT_CTL that a write stores. -/
def State.putLinkCtl (s : State) (p value : Nat) : State :=
  let r := Reg.LINK_PORT_CTL p
  let s := ((s.wr r F.LINK_PORT_CTL.replay_hc (bits value 63 48)).wr r F.LINK_PORT_CTL.replay_max (bits value 47 40)).wr r
    F.LINK_PORT_CTL.lane_err_max (bits value 39 32)
  ((s.wr r F.LINK_PORT_CTL.spare_en (bits value 2 2)).wr r F.LINK_PORT_CTL.time_tx (bits value 1 1)).wr r F.LINK_PORT_CTL.enable (bits value 0 0)

/-- The active lanes of a port shown (R501). -/
def State.putLanes (s : State) (p : Nat) (l : List Nat) : State :=
  let r := Reg.LINK_PORT_STAT p
  (s.wr r F.LINK_PORT_STAT.lanes (l.foldl (fun a i => a + 2 ^ i) 0)).wr r F.LINK_PORT_STAT.width l.length
def State.lanes (s : State) (p : Nat) : List Nat := bitsSet 9 (s.rd (.LINK_PORT_STAT p) F.LINK_PORT_STAT.lanes)

/-- LINK_PORT_ENABLE (R486, R501): a write of LINK_PORT_CTL_p; a rise of enable starts training, a fall disables the port. -/
def execLinkPortEnable (p value : Nat) (s : State) : Res :=
  if 12 ≤ p then .next s
  else
    let was := s.on (.LINK_PORT_CTL p) F.LINK_PORT_CTL.enable
    let s := s.putLinkCtl p value
    let st := Reg.LINK_PORT_STAT p
    if bitAt value 0 then .next (if was then s else (s.wr st F.LINK_PORT_STAT.state 1).putLanes p [])
    else .next (if was then ((s.dropPort p).wr st F.LINK_PORT_STAT.state 0).putLanes p [] else s)

/-- A port's peer has its own number, or one seen on another port with a different identity (R483). -/
def State.conflict (s : State) (p peer ident : Nat) : Bool :=
  decide (peer = s.pkg) || (List.range 12).any (fun q => decide (q ≠ p) && s.portUp q
    && decide (s.rd (.LINK_PORT_STAT q) F.LINK_PORT_STAT.peer_pkg = peer) && decide ((s.lport q).ident ≠ ident))

/-- LINK_TRAIN_DONE (R483, R486): the lanes that trained, the peer's package number, port and identity. -/
def execLinkTrainDone (p : Nat) (good : List Nat) (peer peerPort ident : Nat) (s : State) : Res :=
  if 12 ≤ p ∨ s.portState p ≠ 1 then .next s
  else
    let st := Reg.LINK_PORT_STAT p
    let l := (List.range 9).filter (fun i => good.contains i && !s.faults.active.contains (unitDesc 9 p i 0))
    let act := l.take 8
    let s := (s.wr st F.LINK_PORT_STAT.peer_pkg peer).wr st F.LINK_PORT_STAT.peer_port peerPort
    if l.length < 4 then .next (s.portDown p 0)
    else if s.conflict p peer ident then .next ((s.wr st F.LINK_PORT_STAT.state 5).raise ⟨7, 0x194, 0xFFFF, 0xFFFF, [p, peer]⟩)
    else
      let s := s.setLport p { LPort.reset with good := l, spare := l[8]?, ident := ident }
      let s := (s.putLanes p act).wr st F.LINK_PORT_STAT.state (if act.length = 8 then 2 else 3)
      let s := s.raise ⟨7, 0x190, 0xFFFF, 0xFFFF, [p, peer, peerPort, act.length]⟩
      .next (if act.length = 8 then s else s.raise ⟨7, 0x193, 0xFFFF, 0xFFFF, [p, act.length]⟩)

/-- A lane of a port lost (R486): the spare takes the place of an active one and the lane is fenced, or the port runs on the
lanes left. -/
def State.laneLost (s : State) (p lane cause : Nat) : State :=
  let x := s.lport p
  let act := s.lanes p
  if !s.portUp p then s
  else if x.spare = some lane then s.setLport p { x with spare := none, good := x.good.filter (fun i => decide (i ≠ lane)) }
  else if !act.contains lane then s
  else
    let left := act.filter (fun i => decide (i ≠ lane))
    match (if s.on (.LINK_PORT_CTL p) F.LINK_PORT_CTL.spare_en then x.spare else none) with
    | some sp =>
      let s := s.setLport p { x with spare := none, good := x.good.filter (fun i => decide (i ≠ lane)) }
      let s := s.putLanes p (insertNat left sp)
      let s := s.recordFence (unitDesc 9 p lane 0) clsUnit cause
      s.raise ⟨7, 0x192, 0xFFFF, 0xFFFF, [p, lane]⟩
    | none =>
      let s := (s.setLport p { x with good := x.good.filter (fun i => decide (i ≠ lane)) }).putLanes p left
      if left.length < 4 then s.portDown p 2
      else (s.wr (.LINK_PORT_STAT p) F.LINK_PORT_STAT.state 3).raise ⟨7, 0x193, 0xFFFF, 0xFFFF, [p, left.length]⟩

/-- LANE_REPLACE (R486). -/
def execLaneReplace (p lane : Nat) (s : State) : Res := .next (if p < 12 then s.laneLost p lane 0 else s)

/-- A CONTROL flit sent: its type, and a number (R488, R490; log entry 53). -/
def State.control (s : State) (p typ n : Nat) : State := s.putFlit p ⟨5, 0, false, 0, s.pkg, toBytes 1 typ ++ toBytes 2 n, 0, (0, 0, 0)⟩ 0

/-- Every unacknowledged flit from a sequence number on sent again (R490), or the port DOWN after replay_max replays without
progress. -/
def State.replay (s : State) (p seq : Nat) : State :=
  let x := s.lport p
  if max 1 (s.rd (.LINK_PORT_CTL p) F.LINK_PORT_CTL.replay_max) ≤ x.replays then s.portDown p 1
  else
    let s := (s.setLport p { x with replays := x.replays + 1, timer := some (s.replayAt p) }).bump (.LINK_PORT_ERR p) F.LINK_PORT_ERR.replays 1
    (x.sent.dropWhile (fun e => decide (e.1 ≠ seq))).foldl (fun s e => s.putFlit p e.2 e.1) s

/-- An acknowledgement and credits taken (R490, R491). -/
def State.flitAck (s : State) (p ack : Nat) (credits : List Nat) : State :=
  let x := s.lport p
  let hit := x.sent.any (fun e => decide (e.1 = ack))
  let left := if hit then (x.sent.dropWhile (fun e => decide (e.1 ≠ ack))).drop 1 else x.sent
  let x := { x with sent := left, credits := (x.credits.zip credits).map (fun c => c.1 + c.2)
                    replays := if hit then 0 else x.replays
                    timer := if !hit then x.timer else if left.isEmpty then none else some (s.replayAt p) }
  (s.setLport p x).pump p x.waiting.length

/-- A message from a complete payload (R489). -/
def msgOf (vc src dst : Nat) (mcast : Bool) (b : List Byte) (poison : List Nat) : LMsg :=
  let k := if mcast then 48 else 16
  ⟨field b 12 1, vc, src, dst, if mcast then bitsSet 256 (field b 16 32) else [], mcast, field b 0 8, field b 13 1, field b 14 2,
    (b.drop k).take (field b 8 4), (poison.filter (fun w => decide (k / 8 ≤ w))).map (fun w => w - k / 8)⟩

/-- A complete message goes on toward its destination (R492) or waits to be taken here. -/
def State.messageIn (s : State) (p : Nat) (m : LMsg) : State :=
  if !m.mcast && decide (m.dst ≠ s.pkg) then s.sendMsg m (0, 0, 0)
  else { s with link := { s.link with inbox := s.link.inbox ++ [(p, m)] } }

/-- A sequenced flit delivered (R489): the message of its channel grows, or is complete. -/
def State.flitIn (s : State) (p kind vc src dst : Nat) (mcast : Bool) (data : List Byte) (mask : Nat) : State :=
  let x := s.lport p
  let words := fun (n : Nat) => (bitsSet 28 mask).map (fun w => n / 8 + w)
  let old := Tab.find? x.part vc
  let part : Option Partial :=
    if kind = 1 ∨ kind = 4 then some ⟨data, words 0, s.time, mcast, src, dst⟩
    else old.map (fun q => { q with payload := q.payload ++ data, poison := q.poison ++ words q.payload.length })
  match part with
  | none => s
  | some q =>
    if kind = 3 ∨ kind = 4 then
      (s.setLport p { x with part := Tab.erase x.part vc }).messageIn p (msgOf vc q.src q.dst q.mcast q.payload q.poison)
    else s.setLport p { x with part := Tab.set x.part vc q }

/-- A flit discarded (R490): one NAK with the number expected. -/
def State.nakFlit (s : State) (p : Nat) : State :=
  let x := s.lport p
  if x.nak then s else (s.setLport p { x with nak := true }).control p 1 x.rxNext

/-- FLIT_RECEIVE (R487, R488, R490): a flit's 256 bytes arrive; `fec` tells of its codewords: 0 clean, 1 corrected, 2
uncorrectable. -/
def execFlitReceive (p : Nat) (b : List Byte) (fec : Nat) (s : State) : Res :=
  if 12 ≤ p ∨ !s.portUp p then .next s
  else
    let r := Reg.LINK_PORT_ERR p
    let s := s.loupeFlit p 1 b
    let x := s.lport p
    let s := if fec = 1 then
        (if x.fecLow = 255 then (s.setLport p { x with fecLow := 0 }).bump r F.LINK_PORT_ERR.fec_corrected 1
         else s.setLport p { x with fecLow := x.fecLow + 1 })
      else if fec = 2 then s.bump r F.LINK_PORT_ERR.fec_uncorr 1 else s
    let inj := (List.range 9).any (fun l => s.injArmed 0x12 (unitDesc 9 p l 0))
    let s := if inj then s.injDone else s
    let bad := inj || decide (fec = 2) || decide (b.length ≠ 256) || decide (crc32c (b.take 252) ≠ field b 252 4)
    if bad then .next ((s.bump r F.LINK_PORT_ERR.crc 1).nakFlit p)
    else
      let kind := field b 0 1
      let vc := field b 1 1 % 4
      let seq := field b 2 2 % 4096
      let s := s.flitAck p (field b 240 2 % 4096) ((List.range 4).map (fun i => field b (242 + 2 * i) 2))
      let data := (b.drop 16).take (min 224 (field b 6 1))
      if kind = 5 then
        .next (if field data 0 1 = 1 then s.replay p (field data 1 2) else s)
      else if kind = 0 ∨ 5 < kind then .next s
      else
        let x := s.lport p
        if seq ≠ x.rxNext then .next (s.nakFlit p)
        else
          let s := s.setLport p { x with rxNext := (seq + 1) % 4096, nak := false, owed := setNth x.owed vc (x.owed.getD vc 0 + 1) }
          let s := s.flitIn p kind vc (field b 5 1) (field b 4 1) (bitAt (field b 1 1) 2) data (field b 8 4)
          -- the acknowledgement travels in the next flit of any kind
          .next (if s.portUp p then s.putFlit p ⟨0, 0, false, 0, s.pkg, [], 0, (0, 0, 0)⟩ 0 else s)

/-- LINK_REPLAY_TIMER (R490). -/
def execLinkReplayTimer (p : Nat) (s : State) : Res :=
  let x := s.lport p
  match x.timer with
  | some t => .next (if t ≤ s.time ∧ s.portUp p then s.replay p ((x.sent.map Prod.fst).headD 0) else s)
  | none => .next s

/-- MSG_INCOMPLETE_TIMEOUT (R494). -/
def execMsgIncompleteTimeout (p vc : Nat) (s : State) : Res :=
  let x := s.lport p
  match Tab.find? x.part vc with
  | some q => .next (if q.since + 1000000 ≤ s.time then s.setLport p { x with part := Tab.erase x.part vc } else s)
  | none => .next s

/-- The first message of a kind taken from those received. -/
def State.takeMsg (s : State) (kind : Nat) : Option (State × Nat × LMsg) :=
  let hit := fun (e : Nat × LMsg) => decide (e.2.kind = kind)
  (s.link.inbox.find? hit).map (fun e => ({ s with link := { s.link with inbox := s.link.inbox.eraseP hit } }, e.1, e.2))

/-- The data of a WRITE stored, a poisoned word poisoning its sector (R488, R454). -/
def State.writeMsg (s : State) (m : LMsg) : State :=
  let sectors := (List.range ((m.data.length + 63) / 64)).map (fun i =>
    ((m.data.drop (64 * i)).take 64, (List.range 8).any (fun w => m.poison.contains (8 * i + w))))
  if m.addr % 64 = 0 then (s.sectorsWrite (m.addr % 2 ^ 40) sectors).1
  else s.hbmWrite (m.addr % 2 ^ 40) m.data (!m.poison.isEmpty)

/-- MSG_WRITE (R493): written here when the own bit is set or the message names this package, forwarded by its set, answered with a
RESP. -/
def execMsgWrite (s : State) : Res :=
  match s.takeMsg 1 with
  | none => .next s
  | some (s, _, m) =>
    let s := if m.mcast then s.sendMulti m (0, 0, 0) else s
    if !m.mcast || m.set.contains s.pkg then
      .next ((s.writeMsg m).sendMsg ⟨3, 1, s.pkg, m.src, [], false, 0, 0, m.tag, [], []⟩ (0, 0, 0))
    else .next s

/-- MSG_SEND (R484, R244): a SEND is delivered to its system facet. -/
def execMsgSend (s : State) : Res :=
  match s.takeMsg 2 with
  | none => .next s
  | some (s, _, m) =>
    let lf := m.addr % 1024
    let x : SyncMsg := ⟨2 ^ 24 + m.src * 2 ^ 16 + m.tag % 1024, lf, m.chan, some (m.addr / 2 ^ 32), m.data, m.poison⟩
    match s.pfOf lf with
    | none => .next s
    | some pf =>
      let take := fun (r : RecvOp) => decide (r.src = x.src) && decide (r.chan = x.chan)
      .next (s.asyncCore pf (fun c =>
        if c.dropsMsg x.step then c
        else match c.recvs.find? take with
          | some r => { c with recvs := c.recvs.eraseP take }.deliver r x
          | none => { c with rxq := c.rxq ++ [x] }))

/-- MSG_RESP (R493, R395). -/
def execMsgResp (s : State) : Res :=
  match s.takeMsg 3 with
  | none => .next s
  | some (s, _, m) =>
    .next { s with loader := { s.loader with jobs := s.loader.jobs.map (fun j =>
      if j.kind = 2 ∧ j.slot = m.tag then { j with pkgs := j.pkgs.erase m.src } else j) } }

/-- MCAST (R393, R395, R493): the source is read once, written here when the own bit is set, and sent to the other packages. -/
def execMcast (s : State) : Res :=
  match s.nextJob with
  | none => .next s
  | some (h, b) =>
    let j := jobOf h b
    if j.kind ≠ 2 then .next s
    else if jobBad b then .next (s.failJob j 0x8001)
    else
      let r := s.sectorsRead 2 0 j.src (j.len / 64)
      let s := r.1
      if r.2.any Prod.snd then .next (s.failJob j 0x8002)
      else
        let s := if j.pkgs.contains s.pkg then (s.sectorsWrite j.dst r.2).1 else s
        let set := j.pkgs.filter (fun n => decide (n ≠ s.pkg))
        -- a message's length field has 32 bits: messages of at most 2^31 bytes
        let parts := (r.2.length + 2 ^ 25 - 1) / 2 ^ 25
        let s := s.startJob { j with status := some 1, pkgs := (List.range parts).flatMap (fun _ => set) }
        .next ((List.range parts).foldl (fun s i =>
          let data := ((r.2.drop (i * 2 ^ 25)).take (2 ^ 25)).flatMap Prod.fst
          s.sendMulti ⟨1, 2, s.pkg, 0, set, true, j.dst + i * 2 ^ 31, 0, j.slot, data, []⟩ (2, j.slot, 0)) s)

-- System time

/-- Root time minus own time, in 1/16 st (R500). -/
def State.timeOfs (s : State) : Int := sext 32 (s.rd .TIME_STAT F.TIME_STAT.ofs)

/-- TIME_SEND_TICK (R496): the departure time and the root's time at it, in 1/16 st, and the hops to the root. -/
def execTimeSendTick (p : Nat) (s : State) : Res :=
  if 12 ≤ p ∨ !s.portUp p ∨ !s.on (.LINK_PORT_CTL p) F.LINK_PORT_CTL.time_tx then .next s
  else
    let now := s.sysClock * 16
    let b := toBytes 8 now ++ toBytes 8 (toCode 64 (now + s.timeOfs)) ++ toBytes 1 (s.rd .TIME_STAT F.TIME_STAT.hops)
    .next (s.queueMsg p ⟨4, 3, s.pkg, s.rd (.LINK_PORT_STAT p) F.LINK_PORT_STAT.peer_pkg, [], false, 0, 0, 0, b, []⟩ (0, 0, 0))

/-- The offset predicted at a time from the last offset and the rate (R496). -/
def Link.predict (l : Link) (now : Nat) : Option Int :=
  l.est.map (fun e => e.1 + l.rate.1 * ((now - e.2 : Nat) : Int) / ((max 1 l.rate.2 : Nat) : Int))

/-- MSG_TIME (R496): the estimate of the root's offset and rate; the estimator is log entry 54. -/
def execMsgTime (s : State) : Res :=
  match s.takeMsg 4 with
  | none => .next s
  | some (s, p, m) =>
    if s.pkg = s.rd .LINK_CFG F.LINK_CFG.root ∨ p ≠ s.rd .LINK_CFG F.LINK_CFG.parent then .next s
    else
      let now := s.sysClock
      let ofs : Int := (field m.data 8 8 : Int) + (s.rd (.LINK_PORT_DELAY p) F.LINK_PORT_DELAY.delay : Int) - ((now * 16 : Nat) : Int)
      let l := s.link
      let was := s.on .TIME_STAT F.TIME_STAT.locked
      let met := match l.predict now with
        | some q => if (ofs - q).natAbs ≤ 16 then min 4 (l.met + 1) else 0
        | none => 0
      let rate := match l.est with
        | some e => if e.2 < now then (ofs - e.1, now - e.2) else l.rate
        | none => l.rate
      let s := { s with link := { l with est := some (ofs, now), rate := rate, met := met } }
      let hops := field m.data 16 1 + 1
      let lock := decide (met = 4) || (was && decide (met ≠ 0))
      let s := ((s.wr .TIME_STAT F.TIME_STAT.ofs (toCode 32 ofs)).wr .TIME_STAT F.TIME_STAT.hops hops).wr .TIME_STAT F.TIME_STAT.locked (b2n lock)
      .next (if lock = was then s else s.raise ⟨7, 0x197, 0xFFFF, 0xFFFF, [b2n lock, hops, toCode 32 ofs]⟩)

/-- DELAY_MEASURE (R496): half a round trip in 1/16 st; which way an odd one is halved is free. -/
def execDelayMeasure (p rtt : Nat) (s : State) : Res :=
  if 12 ≤ p ∨ !s.portUp p then .next s
  else
    let up := if rtt % 2 = 1 then Config.freeValue 496 s.free % 2 else 0
    .next (({ s with free := s.free + 1 }).wr (.LINK_PORT_DELAY p) F.LINK_PORT_DELAY.delay (rtt / 2 + up))

-- The start barrier

def State.barState (s : State) : Nat := s.rd .BAR_STAT F.BAR_STAT.state
def State.isRoot (s : State) : Bool := decide (s.pkg = s.rd .LINK_CFG F.LINK_CFG.root)

/-- The root releases once every participant has arrived (R497). -/
def State.barComplete (s : State) : State :=
  let l := s.link
  if s.barState = 1 ∧ s.isRoot ∧ l.barAt = none ∧ max 1 (s.rd .BAR_CTL F.BAR_CTL.count) ≤ l.barFrom.length then
    let t := s.sysClock + s.rd .BAR_CTL F.BAR_CTL.lead
    let s := { s with link := { l with barTimer := none, barAt := some t } }
    let s := s.wr .BAR_T F.BAR_T.t t
    (l.barFrom.filter (fun n => decide (n ≠ s.pkg))).foldl (fun s n =>
      s.sendMsg ⟨6, 3, s.pkg, n, [], false, 0, 0, 0, toBytes 8 t, []⟩ (0, 0, 0)) s
  else s

/-- An arrival latched at the root (R497). -/
def State.arrive (s : State) (n : Nat) : State :=
  let l := s.link
  let s := { s with link := { l with barFrom := l.barFrom ++ [n] } }
  (s.wr .BAR_STAT F.BAR_STAT.arrivals s.link.barFrom.length).barComplete

/-- BAR_ARM (R497, R503): a write of BAR_CTL. -/
def execBarArm (value : Nat) (s : State) : Res :=
  if s.barState = 1 then .next s
  else
    let r := Reg.BAR_CTL
    let s := (((s.wr r F.BAR_CTL.lead (bits value 63 40)).wr r F.BAR_CTL.timeout (bits value 39 16)).wr r F.BAR_CTL.count (bits value 15 7)).wr r
      F.BAR_CTL.align (bits value 3 3)
    let s := s.wr r F.BAR_CTL.hold (bits value 2 2)
    if !bitAt value 0 then .next s
    else
      -- arrivals latched since the last barrier ended count for this one (log entry 55)
      let early := if s.barState = 3 then [] else s.link.barFrom
      let s := { s with link := { s.link with barTimer := some (s.time + max 1 (bits value 39 16) * 1000), barFrom := early, barAt := none } }
      let s := (s.wr .BAR_STAT F.BAR_STAT.state 1).wr .BAR_STAT F.BAR_STAT.arrivals early.length
      .next (if s.isRoot then s.arrive s.pkg
        else s.sendMsg ⟨5, 3, s.pkg, s.rd .LINK_CFG F.LINK_CFG.root, [], false, 0, 0, 0, [], []⟩ (0, 0, 0))

/-- MSG_BAR_ARRIVE (R497). -/
def execMsgBarArrive (s : State) : Res :=
  match s.takeMsg 5 with
  | none => .next s
  | some (s, _, m) => .next (if s.isRoot && decide (s.barState ≠ 3) then s.arrive m.src else s)

/-- An alignment loads the time base only while no entry is live (R498). -/
def State.anyLive (s : State) : Bool := s.serve.entries.any (fun p => p.2.live)

/-- Release at this package (R498). -/
def State.barRelease (s : State) : State :=
  let t := s.rd .BAR_T F.BAR_T.t
  let align := s.on .BAR_CTL F.BAR_CTL.align
  let load := align && !s.anyLive
  let jump : Int := (t : Int) - (s.sysClock : Int)
  let s := (s.wr .BAR_STAT F.BAR_STAT.state 2)
  let s := if align && !load then s.wr .BAR_STAT F.BAR_STAT.align_refused 1 else s
  let s := if load then
      -- the own count jumps, and root time minus own time with it
      let ofs := s.timeOfs - 16 * jump
      let s := (s.setReg .SYS_TIME t).wr .TIME_STAT F.TIME_STAT.ofs (toCode 32 ofs)
      { s with link := { s.link with est := s.link.est.map (fun e => (e.1 - 16 * jump, ((e.2 : Int) + jump).toNat)) } }
    else s
  let s := { s with link := { s.link with barAt := none, barTimer := none, barFrom := [] } }
  s.raise ⟨7, 0x195, 0xFFFF, 0xFFFF, [t, s.rd .BAR_STAT F.BAR_STAT.late, s.rd .BAR_STAT F.BAR_STAT.align_refused]⟩

/-- MSG_BAR_RELEASE (R497, R498): T converted into the own count; one that has passed releases at once and sets late. -/
def execMsgBarRelease (s : State) : Res :=
  match s.takeMsg 6 with
  | none => .next s
  | some (s, _, m) =>
    if s.barState ≠ 1 ∨ s.isRoot then .next s
    else
      let t := field m.data 0 8
      let own := (-((s.timeOfs - 16 * (t : Int)) / 16)).toNat
      let s := s.wr .BAR_T F.BAR_T.t t
      if own < s.sysClock then .next (s.wr .BAR_STAT F.BAR_STAT.late 1).barRelease
      else .next { s with link := { s.link with barAt := some own, barTimer := none } }

/-- BAR_LOCAL_RELEASE (R498). -/
def execBarLocalRelease (s : State) : Res :=
  match s.link.barAt with
  | some t => .next (if s.barState = 1 ∧ t ≤ s.sysClock then s.barRelease else s)
  | none => .next s

/-- The barrier enters FAILED (R497). -/
def State.barFail (s : State) : State :=
  let s := { s with link := { s.link with barTimer := none, barAt := none } }
  (s.wr .BAR_STAT F.BAR_STAT.state 3).raise ⟨7, 0x196, 0xFFFF, 0xFFFF, [s.rd .BAR_STAT F.BAR_STAT.arrivals, b2n (!s.isRoot)]⟩

/-- MSG_BAR_FAIL (R497). -/
def execMsgBarFail (s : State) : Res :=
  match s.takeMsg 7 with
  | none => .next s
  | some (s, _, _) => .next (if s.barState = 1 ∧ !s.isRoot then s.barFail else s)

/-- BAR_TIMER (R497): the root tells the participants that have arrived. -/
def execBarTimer (s : State) : Res :=
  match s.link.barTimer with
  | some t =>
    if t ≤ s.time ∧ s.barState = 1 then
      let l := s.link.barFrom.filter (fun n => decide (n ≠ s.pkg))
      let s := if s.isRoot then l.foldl (fun s n => s.sendMsg ⟨7, 3, s.pkg, n, [], false, 0, 0, 0, [], []⟩ (0, 0, 0)) s else s
      .next s.barFail
    else .next s
  | none => .next s

/-- LINK_CFG_WRITE (R500): pkg only while every port is disabled. -/
def execLinkCfgWrite (value : Nat) (s : State) : Res :=
  let r := Reg.LINK_CFG
  let off := (List.range 12).all (fun p => !s.on (.LINK_PORT_CTL p) F.LINK_PORT_CTL.enable)
  let s := (s.wr r F.LINK_CFG.parent (bits value 27 24)).wr r F.LINK_CFG.root (bits value 23 16)
  .next (if off then s.wr r F.LINK_CFG.pkg (bits value 7 0) else s)

end Sys2Proof.Machine
end

