-- ==== Sys2Proof/Machine/Thermal.lean ====
section
/-! DEFINITION. Region temperatures and trips (R529-R535), the throttle (R533), memory stacks (R537), the coolant plant (R538-R542),
rails, set-points and boost (R543-R547). -/

namespace Sys2Proof.Machine

-- Sensors

/-- The hot limit, 100 °C, in 1/16 °C (R530). -/
def hotLimit : Int := 1600

/-- A reading put into its place in a rising list. -/
def insertInt (x : Int) : List Int → List Int
  | [] => [x]
  | y :: t => if x ≤ y then x :: y :: t else y :: insertInt x t

/-- The median of readings: the middle one, or the mean of the two in the middle. -/
def median (l : List Int) : Int :=
  let q := l.foldr insertInt []
  let n := q.length
  if n % 2 = 1 then q.getD (n / 2) 0 else (q.getD (n / 2 - 1) 0 + q.getD (n / 2) 0) / 2

/-- Sensors in use and found broken (R548). -/
def State.sensUse (s : State) (g : Nat) : List Nat := bitsSet 5 (s.rd (.REGION_THERM g) F.REGION_THERM.in_use)
def State.sensBroken (s : State) (g : Nat) : List Nat := bitsSet 5 (s.rd (.REGION_THERM g) F.REGION_THERM.broken)
def maskOf (l : List Nat) : Nat := l.foldl (fun a i => a + 2 ^ i) 0

/-- A sensor found broken in the round before gives its place to the spare, or stays at the hot limit (R530). -/
def State.replaceSensor (s : State) (g i cause : Nat) (codes : List Int) (fence : Bool) : State :=
  let use := s.sensUse g
  let c := codes.getD 4 0
  let healthy := !(s.sensBroken g).contains 4 && decide (-640 ≤ c) && decide (c ≤ 2400)
  if healthy && !use.contains 4 then
    let s := if fence then
        (s.wr (.REGION_THERM g) F.REGION_THERM.in_use (maskOf (insertNat (use.filter (fun k => decide (k ≠ i))) 4))).recordFence
          (unitDesc 0x0C g i 0) clsUnit cause
      else s
    s.raise ⟨3, 0x184, g, 0xFFFF, [g, i]⟩
  else s.raise ⟨3, 0x185, g, 0xFFFF, [g, i]⟩

/-- The sensors in use that a round finds broken (R530). -/
def State.newlyBroken (s : State) (g : Nat) (x : Region) (codes : List Int) : List Nat :=
  let use := s.sensUse g
  let old := s.sensBroken g
  use.filter (fun i => !old.contains i && (
    (let c := codes.getD i 0
     decide (c < -640) || decide (2400 < c)) || decide (16 ≤ x.sensBad.getD i 0)
      || (decide (65536 ≤ x.sensSame.getD i 0) && (List.range 5).any (fun j => decide (j ≠ i) &&
        (let r := (x.sensRange.getD i []).getD j (0, 0)
         decide (32 ≤ r.2 - r.1))))))

/-- The counts of R530 after a round. -/
def State.sensCount (s : State) (g : Nat) (x : Region) (codes : List Int) : Region :=
  let use := s.sensUse g
  let broken := s.sensBroken g
  let eff := fun (i : Nat) => if broken.contains i then hotLimit else codes.getD i 0
  let bad := (List.range 5).map (fun i =>
    let others := (use.filter (fun j => decide (j ≠ i))).map eff
    if others.isEmpty then 0 else if 240 < (codes.getD i 0 - median others).natAbs then x.sensBad.getD i 0 + 1 else 0)
  let same := (List.range 5).map (fun i => if codes.getD i 0 = x.sens.getD i 0 then x.sensSame.getD i 0 + 1 else 0)
  let range := (List.range 5).map (fun i =>
    if codes.getD i 0 = x.sens.getD i 0 then
      (List.range 5).map (fun j =>
        let c := codes.getD j 0
        let r := (x.sensRange.getD i []).getD j (c, c)
        (min r.1 c, max r.2 c))
    else (List.range 5).map (fun j => (codes.getD j 0, codes.getD j 0)))
  { x with sens := (List.range 5).map (fun i => codes.getD i 0), sensBad := bad, sensSame := same, sensRange := range }

-- Region states

/-- The state a temperature leads to (R531): 0 NORMAL, 1 COLD, 2 WARN, 3 THROTTLE, 4 TRIPPED; `full`: the facet clock is back at
fclk_design. -/
def thermNext (st : Nat) (t : Int) (full : Bool) : Nat :=
  let up := if 1600 ≤ t then 3 else if 1520 ≤ t then 2 else if t < 80 then 1 else 0
  if st = 4 then (if t < 1520 then up else 4)
  else if 1760 ≤ t then 4
  else if st = 1 then (if 128 ≤ t then up else 1)
  else if 1600 ≤ t then 3
  else if st = 3 then (if t < 1568 && full then (if t < 80 then 1 else if 1488 ≤ t then 2 else 0) else 3)
  else if st = 2 then (if t < 80 then 1 else if t < 1488 then 0 else 2)
  else up

/-- A region trip (R534): clock and array drive removed, its steps failed, its calibration run ended, row writes to begin again
from their first cycle. -/
def State.tripRegion (s : State) (g sensor : Nat) (t : Int) : State :=
  let x := s.region g
  let mhz := s.rd (.REGION_CLK g) F.REGION_CLK.fclk_cur
  let resume := (facetsOf g).filter (fun p => !(s.facet p).fenced && (decide (s.facState p = 3) || decide (s.facState p = 4)))
  let s := s.voidRun g
  let s := (facetsOf g).foldl (fun s p =>
    let s := s.failSteps p
    (s.setFacet p { s.facet p with core := { (s.facet p).core with step := none, dq := [] } }).wr (.FAC_STAT p) F.FAC_STAT.dq_depth 0) s
  let s : State := match x.cal with
    | none => s
    | some c =>
      let s := c.covered.foldl (fun s e => s.dropShadows e.1 e.2) s
      (s.setRegion g { s.region g with cal := none }).wr (.CAL_REGION_STAT g) F.CAL_REGION_STAT.running 0
  let x := s.region g
  let s := s.setRegion g { x with
    clkAcc := x.clkAcc + (if x.stopped then 0 else (s.time - x.clkFrom) * mhz), clkFrom := s.time, clkPend := none, clkWait := none
    stopped := true, tripped := true, resume := resume, refs := x.refs.map (fun r => { r with cycle := min 1 r.cycle }) }
  let s := { s with loader := { s.loader with jobs := s.loader.jobs.map (fun (j : LdJob) =>
    if j.kind = 3 ∧ regionOf j.pf = g then { j with cycle := min 1 j.cycle } else j) } }
  (s.bump (.REGION_THERM g) F.REGION_THERM.trips 1).raise ⟨3, 0x182, g, 0xFFFF, [g, sensor, toCode 32 t]⟩

/-- A tripped region restarts (R535): its clock at 400 MHz, each facet reset, those that ran started at their entry. -/
def State.restartRegion (s : State) (g : Nat) : State :=
  let x := s.region g
  let s := s.setRegion g { x with stopped := false, tripped := false, resume := [], clkFrom := s.time, clkChanges := x.clkChanges + 1 }
  let s := (s.wr (.REGION_CLK g) F.REGION_CLK.fclk_cur 400).wr (.REGION_CLK g) F.REGION_CLK.throttled 0
  -- the array drive was removed: products under way end with the reset
  let s := { s with arrs := s.arrs.filterMap (fun (e : Nat × PArr) =>
    if regionOf (e.1 / 256) = g then
      (let y := { e.2 with queue := [], run := none }
       if y = PArr.reset then none else some (e.1, y))
    else some e) }
  let s := (facetsOf g).foldl (fun s p =>
    if (s.facet p).fenced then s
    else
      let s := (s.setFacet p { s.facet p with stop := none }).resetFacet p
      if x.resume.contains p then s.startAtEntry p else s) s
  s.raise ⟨3, 0x183, g, 0xFFFF, [g, x.resume.length]⟩

/-- The region's temperature and state after a round (R529, R531). -/
def State.thermState (s : State) (g sensor : Nat) (t : Int) : State :=
  let r := Reg.REGION_THERM g
  let st := s.rd r F.REGION_THERM.state
  let full := decide (s.rd (.REGION_CLK g) F.REGION_CLK.fclk_design ≤ s.rd (.REGION_CLK g) F.REGION_CLK.fclk_cur)
  let nx := thermNext st t full
  let s := (s.wr r F.REGION_THERM.temp (toCode 16 t)).wr (.CAL_REGION_STAT g) F.CAL_REGION_STAT.t_now (toCode 16 t)
  let s := s.wr r F.REGION_THERM.state nx
  let s := s.wr r F.REGION_THERM.in_window (b2n (decide (240 ≤ t) && decide (t ≤ 1280) && decide (nx ≠ 1) && decide (nx ≠ 4)))
  if nx = st then s
  else
    let s := if st = 4 then s.restartRegion g else s
    if nx = 4 then s.tripRegion g sensor t
    else if nx = 1 then (s.askClock g 400).raise ⟨3, 0x186, g, 0xFFFF, [g, toCode 32 t]⟩
    else if nx = 2 then s.raise ⟨3, 0x180, g, 0xFFFF, [g, toCode 32 t]⟩
    else s

/-- SENSOR_ROUND (R529-R535): the codes of the five sensors, in 1/16 °C. -/
def execSensorRound (g : Nat) (codes : List Int) (s : State) : Res :=
  if 48 ≤ g then .next s
  else
    let x := s.region g
    let s := x.sensNew.foldl (fun s i => s.replaceSensor g i 0 codes true) s
    -- a sensor injected stuck counts as found broken in this round (R470)
    let inj := (s.sensUse g).filter (fun i => s.injArmed 0x14 (unitDesc 0x0C g i 0))
    let dry := s.injDry
    let s := if inj.isEmpty then s else s.injDone
    let s := if dry then inj.foldl (fun s i => s.replaceSensor g i 0x14 codes false) s else s
    let x := s.sensCount g x codes
    let new := (s.newlyBroken g x codes ++ (if dry then [] else inj)).eraseDups
    let s := s.setRegion g { x with sensNew := new }
    let broken := (s.sensBroken g ++ new).eraseDups
    let s := s.wr (.REGION_THERM g) F.REGION_THERM.broken (maskOf broken)
    let reads := (s.sensUse g).map (fun i => (i, if broken.contains i then hotLimit else codes.getD i 0))
    let top := reads.foldl (fun (b : Nat × Int) e => if b.2 < e.2 then e else b) (reads.headD (0, 0))
    .next (s.thermState g top.1 top.2)

/-- THROTTLE_TICK (R533). -/
def execThrottleTick (g : Nat) (s : State) : Res :=
  let st := s.rd (.REGION_THERM g) F.REGION_THERM.state
  let t := s.regionTemp g
  let r := Reg.REGION_CLK g
  let cur := ((s.region g).clkPend).getD (s.rd r F.REGION_CLK.fclk_cur)
  let design := s.rd r F.REGION_CLK.fclk_design
  if 48 ≤ g ∨ st = 1 ∨ st = 4 then .next s
  else if 1600 ≤ t then
    let f := max 400 (cur - 100)
    if f = cur then .next s
    else
      let first := !s.on r F.REGION_CLK.throttled && decide (f < design)
      let s := s.askClock g f
      .next (if first then (s.wr r F.REGION_CLK.throttled 1).throttleEvent g f 0 else s)
  else if t < 1568 ∧ cur < design then .next (s.askClock g (min design (cur + 25)))
  else .next s

-- Rails and clocks

/-- VFAC_SETPOINT_RAISE (R544): the set-point of a die sent before a clock is raised. -/
def execVfacSetpointRaise (d : Nat) (s : State) : Res :=
  let want := (List.range 12).any (fun r => ((s.region (d * 12 + r)).clkWait).isSome)
  if 4 ≤ d ∨ !want ∨ !s.on .PWR_CTL F.PWR_CTL.avs_en ∨ s.power.vwait.any (fun e => decide (e.1 = d)) then .next s
  else
    let mv := s.dieVolt d
    .next (({ s with power := { s.power with vwait := Tab.set s.power.vwait d mv } }).emit (.avs d mv))

/-- A transaction with a rail that failed three times (R546): bus 0 PMBus, 1 AVSBus. -/
def State.busErr (s : State) (n bus : Nat) : State :=
  let s := (s.bump .PWR_STAT F.PWR_STAT.bus_err 1).wr (.PWR_RAIL n) F.PWR_RAIL.comm_err 1
  s.raise ⟨4, 0x18B, 0xFFFF, 0xFFFF, [n, bus]⟩

/-- VFAC_SETTLED (R544, R546): acknowledged and settled, the waiting raises proceed; not acknowledged, they are held. -/
def execVfacSettled (d : Nat) (ok : Bool) (s : State) : Res :=
  match Tab.find? s.power.vwait d with
  | none => .next s
  | some mv =>
    let s := { s with power := { s.power with vwait := Tab.erase s.power.vwait d } }
    if !ok then .next ((List.range 12).foldl (fun s r => s.setRegion (d * 12 + r) { s.region (d * 12 + r) with clkWait := none }) (s.busErr d 1))
    else
      let s := (s.wr (.PWR_RAIL d) F.PWR_RAIL.vset mv).wr (.PWR_RAIL d) F.PWR_RAIL.comm_err 0
      .next ((List.range 12).foldl (fun s r =>
        let g := d * 12 + r
        match (s.region g).clkWait with
        | some f => if s.voltFor f ≤ mv then s.setRegion g { s.region g with clkPend := some f, clkWait := none } else s
        | none => s) s)

/-- BOOST_DECISION (R35, R545): a step up above fclk_design, the return to it, or a step of the ramp toward it. -/
def execBoostDecision (g : Nat) (s : State) : Res :=
  let st := s.rd (.REGION_THERM g) F.REGION_THERM.state
  let r := Reg.REGION_CLK g
  let cur := ((s.region g).clkPend).getD (s.rd r F.REGION_CLK.fclk_cur)
  let design := s.rd r F.REGION_CLK.fclk_design
  let power := decide (s.rd .PWR_STAT F.PWR_STAT.p_in < s.rd .PWR_CTL F.PWR_CTL.p_limit)
  let rest := s.on .THERM_CTL F.THERM_CTL.boost_en && decide (s.regionTemp g < sext 16 (s.rd .THERM_CTL F.THERM_CTL.boost_max)) && decide (st = 0)
  if 48 ≤ g ∨ ((s.region g).clkWait).isSome then .next s
  else if cur < design then
    .next (if (st = 0 ∨ st = 2) ∧ !s.on r F.REGION_CLK.throttled then s.askClock g (min design (cur + 25)) else s)
  else if rest && power then .next (if st = 0 ∧ cur < 1600 then s.askClock g (min 1600 (cur + 25)) else s)
  else if design < cur ∧ (st = 0 ∨ st = 2) then
    let s := s.askClock g design
    .next (if rest && !power then (s.bump .PWR_STAT F.PWR_STAT.limit_events 1).raise
      ⟨4, 0x18A, 0xFFFF, 0xFFFF, [s.rd .PWR_STAT F.PWR_STAT.p_in, s.rd .PWR_CTL F.PWR_CTL.p_limit]⟩ else s)
  else .next s

/-- RAIL_POLL (R543, R545, R546): a rail's voltage in mV, current in 0.1 A and whether it is in regulation; none when the transaction
failed three times. -/
def execRailPoll (n : Nat) (rd : Option (Nat × Nat × Bool)) (s : State) : Res :=
  if 12 ≤ n then .next s
  else
    let r := Reg.PWR_RAIL n
    match rd with
    | none => .next (s.busErr n 0)
    | some (v, i, on) =>
      let warn := decide (9 * s.rd r F.PWR_RAIL.ilimit < i)
      let was := s.on r F.PWR_RAIL.over_warn
      let s := ((s.wr r F.PWR_RAIL.vout (min v 65535)).wr r F.PWR_RAIL.iout (min i 65535)).wr r F.PWR_RAIL.over_warn (b2n warn)
      let s := (s.wr r F.PWR_RAIL.comm_err 0).wr r F.PWR_RAIL.on (b2n on)
      let s := if warn && !was then s.raise ⟨4, 0x189, 0xFFFF, 0xFFFF, [n, i]⟩ else s
      let p := ((List.range 12).map (fun k => s.rd (.PWR_RAIL k) F.PWR_RAIL.vout * s.rd (.PWR_RAIL k) F.PWR_RAIL.iout)).sum / 10000
      let s := s.wr .PWR_STAT F.PWR_STAT.p_in (min p 65535)
      let lim := s.rd .PWR_CTL F.PWR_CTL.p_limit
      let beyond := decide (lim < p) && (List.range 48).all (fun g =>
        decide (s.rd (.REGION_CLK g) F.REGION_CLK.fclk_cur ≤ s.rd (.REGION_CLK g) F.REGION_CLK.fclk_design))
      let was := s.power.beyond
      let s := { s with power := { s.power with beyond := beyond } }
      .next (if beyond && !was then (s.bump .PWR_STAT F.PWR_STAT.limit_events 1).raise ⟨4, 0x18A, 0xFFFF, 0xFFFF, [p, lim]⟩ else s)

/-- POWER_FORECAST (R540): an idle power, whose value the spec does not give, and each enabled service's step power by its live
entries over max_batch. -/
def execPowerForecast (s : State) : Res :=
  let one := fun (sv : Nat) =>
    let c := Tab.getD s.serve.costs sv Cost.reset
    let n := s.serve.entries.countP (fun p => decide (p.2.service = sv) && p.2.live)
    let t := s.tStep sv c (s.sharing sv)
    if t = 0 then 0 else c.energy * nsUnits * n / (t * max 1 (s.maxBatch sv))
  let p := ((List.range 64).filter s.svcOn).map one
  .next (s.wr .PWR_STAT F.PWR_STAT.p_sched (min 65535 (Config.freeValue 540 0 + p.sum)))

-- Memory stacks

/-- HBM_TEMP (R537): a stack's temperature in 1/16 °C. -/
def State.hbmTemp (s : State) (k : Nat) (t : Int) : State :=
  let was := Tab.getD s.plant.hot k 0
  let v := b2n (decide (1360 < t)) + 2 * b2n (decide (1520 < t))
  let s := { s with plant := { s.plant with hot := Tab.put s.plant.hot k 0 v } }
  if 2 ≤ v ∧ was < 2 then s.raise ⟨3, 0x188, k, 0xFFFF, [k, toCode 32 t]⟩ else s

-- The plant

/-- A duty in units of 1/1024 (R538): which way it is rounded is free. -/
def State.dutyOf (s : State) (u : Rat) : State × Nat :=
  let x := u * 1024
  let f := x.floor.toNat
  let up := if x = (f : Rat) then 0 else Config.freeValue 538 s.free % 2
  ({ s with free := s.free + 1 }, min 0x3FF (f + up))

/-- Duties driven, and written to an actuator when they are new (R538). -/
def State.drive (s : State) (valve pump : Nat) : State :=
  let r := Reg.PLANT_STAT
  let new := decide (s.rd r F.PLANT_STAT.valve ≠ valve) || decide (s.rd r F.PLANT_STAT.pump ≠ pump)
  let s := (s.wr r F.PLANT_STAT.valve valve).wr r F.PLANT_STAT.pump pump
  let a := s.rd .PLANT_IO F.PLANT_IO.act_addr
  let s := { s with power := { s.power with released := false } }
  if new ∧ a ≠ 0 then s.emit (.duty a valve pump) else s

/-- The duties in force: those of a fault (R542), u_min while a region is COLD (R532), else those given. -/
def State.driveDuties (s : State) (valve pump : Nat) : State :=
  let cold := (List.range 48).any s.regionCold
  if s.plant.lost || s.plant.low then s.drive (s.rd .PLANT_CTL F.PLANT_CTL.u_max) 0x3FF
  else if cold && s.on .THERM_CTL F.THERM_CTL.plant_en then s.drive (s.rd .PLANT_CTL F.PLANT_CTL.u_min) pump
  else s.drive valve pump

/-- The manual duties (R539). -/
def State.manualDuty (s : State) : State :=
  s.driveDuties (s.rd .PLANT_IO F.PLANT_IO.valve_man) (s.rd .PLANT_IO F.PLANT_IO.pump_man)

/-- PLANT_FAULT (R542): 0 sensor lost, 1 flow low, 2 model deviation. -/
def State.plantFault (s : State) (cause : Nat) : State :=
  let r := Reg.PLANT_STAT
  s.raise ⟨3, 0x187, 0xFFFF, 0xFFFF, [cause, s.rd r F.PLANT_STAT.t_in, s.rd r F.PLANT_STAT.t_out, s.rd r F.PLANT_STAT.flow]⟩

def clampR (x lo hi : Rat) : Rat := if x < lo then lo else if hi < x then hi else x

/-- The new opening and integrator of a loop computation (R539). -/
def State.loop (s : State) : Rat × Rat :=
  let c := Reg.PLANT_CTL
  let t : Int := (List.range 48).foldl (fun m g => max m (s.regionTemp g)) (s.regionTemp 0)
  let tin : Rat := (sext 16 (s.rd .PLANT_STAT F.PLANT_STAT.t_in) : Rat) / 16
  let tmax : Rat := (sext 16 (s.rd .THERM_CTL F.THERM_CTL.t_outmax) : Rat) / 16
  let d := max (tmax - tin) 2
  let uff : Rat := (s.rd .PLANT_MODEL F.PLANT_MODEL.g_ff : Rat) / 1048576 * (s.rd .PWR_STAT F.PWR_STAT.p_sched : Rat) / d
  let e : Rat := ((t : Rat) - (sext 16 (s.rd .THERM_CTL F.THERM_CTL.t_set) : Rat)) / 16
  let kp : Rat := (s.rd c F.PLANT_CTL.kp : Rat) / 4096
  let ki : Rat := (s.rd c F.PLANT_CTL.ki : Rat) / 65536
  let dt : Rat := 1048576 / 1000000000
  let slew : Rat := (s.rd c F.PLANT_CTL.slew : Rat) / 512 * dt
  let raw := uff + kp * e + s.plant.i
  let u := clampR raw ((s.rd c F.PLANT_CTL.u_min : Rat) / 1024) ((s.rd c F.PLANT_CTL.u_max : Rat) / 1024)
  let u := clampR u (s.plant.u - slew) (s.plant.u + slew)
  (u, if u = raw ∨ e * (raw - u) < 0 then s.plant.i + ki * e * dt else s.plant.i)

/-- A prediction of the plant model away from the hottest region by more than 5 °C for 10 s (R541). -/
def State.modelDev (s : State) (pred : Int) : State :=
  let t : Int := (List.range 48).foldl (fun m g => max m (s.regionTemp g)) (s.regionTemp 0)
  if (t - pred).natAbs ≤ 80 then { s with plant := { s.plant with devSince := none } }
  else match s.plant.devSince with
    | none => { s with plant := { s.plant with devSince := some s.time } }
    | some x =>
      if x + 10000000000 ≤ s.time ∧ !s.on .PLANT_ERR F.PLANT_ERR.model_dev then
        (s.wr .PLANT_ERR F.PLANT_ERR.model_dev 1).plantFault 2
      else s

/-- PLANT_STEP (R539, R541): `pred` is the model's prediction in 1/16 °C, whose computation the spec leaves to the loop. -/
def execPlantStep (pred : Int) (s : State) : Res :=
  if !s.on .THERM_CTL F.THERM_CTL.plant_en then .next s
  else
    let r := s.loop
    let s := { s with plant := { s.plant with u := r.1, i := r.2 } }
    let v := s.dutyOf r.1
    let p := max (s.rd .PLANT_CTL F.PLANT_CTL.pump_min) v.2
    .next ((v.1.driveDuties v.2 p).modelDev pred)

/-- PLANT_EN_WRITE (R539, R549): a write of THERM_CTL. -/
def execPlantEnWrite (value : Nat) (s : State) : Res :=
  let r := Reg.THERM_CTL
  let was := s.on r F.THERM_CTL.plant_en
  let s := (((s.wr r F.THERM_CTL.t_set (bits value 63 48)).wr r F.THERM_CTL.t_outmax (bits value 47 32)).wr r F.THERM_CTL.boost_max
    (bits value 31 16)).wr r F.THERM_CTL.boost_en (bits value 1 1)
  let s := s.wr r F.THERM_CTL.plant_en (bits value 0 0)
  let on := bitAt value 0
  if on = was then .next s
  else if on then .next { s with plant := { s.plant with i := 0, u := (s.rd .PLANT_STAT F.PLANT_STAT.valve : Rat) / 1024 } }
  else .next ({ s with plant := { s.plant with i := 0 } }).manualDuty

/-- PLANT_SENSOR_READ (R538, R542): inlet and outlet in 1/16 °C, as far as the reads are valid. -/
def execPlantSensorRead (tin tout : Option Int) (s : State) : Res :=
  let r := Reg.PLANT_STAT
  let s := match tin with | some t => s.wr r F.PLANT_STAT.t_in (toCode 16 t) | none => s
  let s := match tout with | some t => s.wr r F.PLANT_STAT.t_out (toCode 16 t) | none => s
  if tin.isSome && tout.isSome then
    let was := s.plant.lost
    let s := { s with plant := { s.plant with lastRead := s.time, lost := false } }
    .next (if was && !s.on .THERM_CTL F.THERM_CTL.plant_en then s.manualDuty else s)
  else .next s

/-- PLANT_SENSOR_LOST (R542): no valid read for 100 ms. -/
def execPlantSensorLost (s : State) : Res :=
  if s.plant.lost ∨ s.time < s.plant.lastRead + 100000000 then .next s
  else
    let s := ({ s with plant := { s.plant with lost := true } }).wr .PLANT_ERR F.PLANT_ERR.sensor_lost 1
    .next ((s.driveDuties 0 0).plantFault 0)

/-- FLOW_WINDOW (R538, R542): the pulses of 100 ms; which way the quotient is rounded, and its value for k_factor 0, are free. -/
def execFlowWindow (pulses : Nat) (s : State) : Res :=
  let k := s.rd .PLANT_IO F.PLANT_IO.k_factor
  let f := s.free
  let flow := if k = 0 then Config.freeValue 5380 f else pulses * 6000 / k + (if pulses * 6000 % k = 0 then 0 else Config.freeValue 5381 f % 2)
  let s := ({ s with free := f + 1 }).wr .PLANT_STAT F.PLANT_STAT.flow (min 0xFFF flow)
  let need := s.rd .PWR_STAT F.PWR_STAT.p_sched * k
  let low := decide (100000 * pulses < need) && decide (s.rd .PLANT_CTL F.PLANT_CTL.pump_min ≤ s.rd .PLANT_STAT F.PLANT_STAT.pump)
  if !low then
    let was := s.plant.low
    let s := { s with plant := { s.plant with lowSince := none, low := false } }
    .next (if was && !s.on .THERM_CTL F.THERM_CTL.plant_en then s.manualDuty else s)
  else match s.plant.lowSince with
    | none => .next { s with plant := { s.plant with lowSince := some s.time } }
    | some x =>
      if s.plant.low ∨ s.time < x + 1000000000 then .next s
      else
        let s := ({ s with plant := { s.plant with low := true } }).wr .PLANT_ERR F.PLANT_ERR.flow_low 1
        .next ((s.driveDuties 0 0).plantFault 1)

end Sys2Proof.Machine
end

