-- ==== Sys2Proof/Machine/Fences.lean ====
section
/-! DEFINITION. A fence of each kind of unit (R448-R453): what a detector or a write of FLT_FENCE does. -/

namespace Sys2Proof.Machine

/-- The fields of a descriptor (R448). -/
def descKind (d : Nat) : Nat := bits d 63 56
def descMajor (d : Nat) : Nat := bits d 55 40
def descMinor (d : Nat) : Nat := bits d 39 24
def descSub (d : Nat) : Nat := bits d 23 0

/-- Does a descriptor name a unit (R448, R476)?  Fields a kind does not use are zero. -/
def State.names (s : State) (d : Nat) : Bool :=
  let m := descMajor d
  let n := descMinor d
  let u := descSub d
  match descKind d with
  | 1 => decide (m < 816) && decide (n < s.variant.arrays) && decide (u < 264)
  | 2 => decide (m < 816) && decide (n < s.variant.arrays) && decide (u = 0)
  | 3 => decide (m < 816) && decide (n = 0) && decide (u = 0)
  | 4 => decide (m < 816) && decide (n = 0) && decide (u = 0)
  | 5 => decide (m < 48) && decide (n = 0) && decide (u = 0)
  | 6 => decide (m < 4) && decide (n = 0) && decide (u = 0)
  | 7 => decide (m < 2) && decide (n = 0) && decide (u = 0)
  | 8 => decide (m < 20) && decide (n = 0) && decide (u = 0)
  | 9 => decide (m < 12) && decide (n < 9) && decide (u = 0)
  | 0x0A => decide (m < 4) && decide (n < 2)
  | 0x0B => decide (m < 8) && decide (n < 16) && decide (u = 0)
  | 0x0C => decide (m < 48) && decide (n < 5) && decide (u = 0)
  | 0x0D => decide (m < 2) && decide (n = 0) && decide (u = 0)
  | _ => false

/-- An array fenced on demand (R451, R154): a bound one once its logical array has moved by a takeover. -/
def State.fenceArrayNow (s : State) (pf a : Nat) : State :=
  if s.arrState pf a = 5 ∨ s.arrState pf a = 0 then s
  else if (s.logicalOf pf a).isSome then
    let s := (s.setParr pf a { s.parr pf a with fenceReq := true }).requestTakeover pf a
    if (s.claimable pf a).isSome then s else s.raise ⟨6, 0x1C1, 0xFFFF, 0xFFFF, [unitDesc 3 pf 0 0]⟩
  else
    let g := regionOf pf
    let s := s.setRegion g { s.region g with refs := (s.region g).refs.filter (fun r => !(decide (r.pf = pf) && decide (r.new = a))) }
    let s := { s with loader := { s.loader with jobs := s.loader.jobs.map (fun (j : LdJob) =>
      if j.kind = 3 ∧ j.pf = pf ∧ j.phys = a ∧ j.status = none then { j with status := some 0x8004, rows := [] } else j) } }
    s.fenceArray pf a 0

/-- A facet lost with its region or die (R451): it does no further work, and its LF is held by none. -/
def State.loseFacet (s : State) (pf : Nat) : State :=
  if (s.facet pf).fenced then s
  else
    let lf := s.lfOf pf
    let s := s.failSteps pf
    let s := s.setFacet pf { s.facet pf with fenced := true, bun := none, stop := none, bar := none
                                             core := { (s.facet pf).core with step := none, dq := [] } }
    let s := ((s.wr (.FAC_STAT pf) F.FAC_STAT.dq_depth 0).dropStaged pf).wr (.FAC_BIND pf) F.FAC_BIND.lf 0x3FF
    if lf = 0x3FF then s else s.wr (.LF_MAP lf) F.LF_MAP.valid 0

/-- Facets lost together: the fence recorded as CAPACITY, FLT_CAPACITY with the LFs lost (R451, R477). -/
def State.loseFacets (s : State) (desc : Nat) (pfs : List Nat) : State :=
  let n := pfs.countP (fun p => decide (s.lfOf p ≠ 0x3FF))
  let s := pfs.foldl State.loseFacet s
  (s.recordFence desc clsCapacity 0).raise ⟨6, 0x1C2, 0xFFFF, 0xFFFF, [desc, n]⟩

/-- A region fenced (R33, R451): its router or clock is gone. -/
def State.fenceRegion (s : State) (g : Nat) : State := (s.dropRun g).loseFacets (unitDesc 5 g 0 0) (facetsOf g)

/-- A range of HBM lost, in bytes: it reads poison and discards writes (R451, R452). -/
def State.loseHbm (s : State) (a n : Nat) : State :=
  { s with hbm := { s.hbm with lost := s.hbm.lost ++ [(a / 64, (a + n) / 64)] } }

/-- A die bypassed (R33, R451): its facets and its two memory stacks are lost, its vault copy is rebuilt elsewhere (R469). -/
def State.fenceDie (s : State) (d : Nat) : State :=
  let pfs := (List.range 204).map (· + d * 204)
  let s := (List.range 12).foldl (fun s r => s.dropRun (d * 12 + r)) s
  ((s.loseFacets (unitDesc 6 d 0 0) pfs).loseHbm (d * 2 ^ 38) (2 ^ 38)).vaultDieLost d

/-- The ports of a fenced hub (R18, R451): the other hub takes its service port, the management port and, while booting, the SPI
NOR pins; its PCIe link is lost. -/
def State.hubPorts (s : State) (h : Nat) : State :=
  let o := 1 - h
  let s := s.wr (.SPORT_STAT h) F.SPORT_STAT.hub o
  let s := if s.rd .MGMT_STAT F.MGMT_STAT.hub_active = h then
      let s := s.wr .MGMT_STAT F.MGMT_STAT.hub_active o
      -- the port retrains on the other hub's MAC
      if s.on .MGMT_CTL F.MGMT_CTL.enable then
        (s.wr .MGMT_STAT F.MGMT_STAT.state 1).raise ⟨9, 0x1B1, 0xFFFF, 0xFFFF, [1, o]⟩ else s
    else s
  let s := if s.on (.PCIE_STAT h) F.PCIE_STAT.up then
      (((s.wr (.PCIE_STAT h) F.PCIE_STAT.up 0).wr (.PCIE_STAT h) F.PCIE_STAT.speed 0).wr (.PCIE_STAT h) F.PCIE_STAT.width 0).raise
        ⟨0xA + h, 0x1B3, h, 0xFFFF, [0, 0, 0]⟩ else s
  if h = 0 ∧ s.boot.spiHub = 0 ∧ s.boot.a.image.isNone then { s with boot := { s.boot with spiHub := 1 } } else s

/-- The cores of a fenced hub: fenced, their LCs moved. -/
def State.hubCores (s : State) (h : Nat) : State :=
  let cores := (List.range 10).map (· + h * 10)
  let lcs := (List.range 16).filter (fun c => s.on (.CORE_MAP c) F.CORE_MAP.valid && cores.contains (s.rd (.CORE_MAP c) F.CORE_MAP.phys))
  let s := cores.foldl (fun s p => s.setCoreState p 5) s
  lcs.foldl (fun s c => s.rehome c (s.rd (.CORE_MAP c) F.CORE_MAP.phys)) s

/-- A hub fenced (R18, R19, R442, R560): the other takes over its ports and table half, its LCs move; with the other fenced already
the package stops. -/
def State.fenceHub (s : State) (h : Nat) : State :=
  if s.hubFenced (1 - h) then s.setCtl { s.ctl with stopped := true }
  else ((s.recordFence (unitDesc 7 h 0 0) clsUnit 0).hubPorts h).hubCores h

/-- An HBM channel fenced (R451). -/
def State.fenceChannel (s : State) (k c : Nat) : State :=
  (s.recordFence (unitDesc 0x0B k c 0) clsCapacity 0).loseHbm (k * 2 ^ 37 + c * 2 ^ 33) (2 ^ 33)

/-- A die-to-die lane fenced (R451): UCIe lane repair replaces it. -/
def State.fenceD2d (s : State) (desc cause : Nat) : State := s.recordFence desc clsUnit cause

/-- A region sensor fenced (R530): the spare takes its place; without one it reads the hot limit. -/
def State.fenceSensor (s : State) (g i : Nat) : State :=
  if (s.sensUse g).contains i then
    let s := s.wr (.REGION_THERM g) F.REGION_THERM.broken (maskOf (insertNat (s.sensBroken g) i))
    s.replaceSensor g i 0 (s.region g).sens true
  else (s.wr (.REGION_THERM g) F.REGION_THERM.broken (maskOf (insertNat (s.sensBroken g) i))).recordFence (unitDesc 0x0C g i 0) clsUnit 0

/-- The active clock moves (R37), or the package stops for want of one. -/
def State.clockLost (s : State) (c : Nat) : State :=
  let x := s.ctl
  if x.refFailed.contains c then s
  else if x.refclk ≠ c then s.setCtl { x with refFailed := insertNat x.refFailed c }
  else match execRefclkFail s with
    | .next t => t
    | _ => s

/-- A unit fenced (R449, R451). -/
def State.fenceUnit (s : State) (d : Nat) : State :=
  let m := descMajor d
  let n := descMinor d
  match descKind d with
  | 1 => if s.on (.CONV_STAT m n (descSub d)) F.CONV_STAT.fence then s else s.queueFence m n (descSub d)
  | 2 => s.fenceArrayNow m n
  | 3 => s.fenceFacet m 0 []
  | 4 => s.fenceShadow m 0
  | 5 => s.fenceRegion m
  | 6 => s.fenceDie m
  | 7 => s.fenceHub m
  | 8 => s.fenceCore m 0 false
  | 9 =>
    let t := s.laneLost m n 0
    if t.faults.active.contains d then t else t.recordFence d clsUnit 0
  | 0x0A => s.fenceD2d d 0
  | 0x0B => s.fenceChannel m n
  | 0x0C => s.fenceSensor m n
  | 0x0D => (s.clockLost m).recordFence d clsUnit 0
  | _ => s

/-- The fence of a unit already fenced changes nothing (R449). -/
def State.isFenced (s : State) (d : Nat) : Bool := s.faults.active.contains d

end Sys2Proof.Machine
end

