-- ==== Sys2Proof/Machine/Power.lean ====
section
/-! DEFINITION. Package reset, the power sequence and package trips (R434, R456, R521, R536, R537, R568-R572). -/

namespace Sys2Proof.Machine

/-- Registers that survive every reset: wear counts and calibration records (R140, R157), converter trims and their factory pairs,
the vault's and the power sequencer's registers (R466, R571). -/
def keepsKey (k : Nat) : Bool :=
  let o := (k - 0x700010000000) % 0x10000
  let facet := decide (0x700010000000 ≤ k) && decide (k < 0x700010000000 + 816 * 0x10000)
  (facet && ((decide (0xC800 ≤ o) && decide (o < 0xCC20)) || (decide (0xB000 ≤ o) && decide (o < 0xBC20))))
    || (decide (2 ^ 60 ≤ k) && (let w := k % 0x10000; decide (0x6000 ≤ w) && decide (w < 0x7000)))
    || decide (k = Reg.key .VAULT_STAT) || decide (k = Reg.key .PWR_SEQ)

/-- The confirmation counters, which survive every reset but PORST_N (R259, R260, R456). -/
def State.keepCounts (s r : State) : State :=
  let r := (List.range 816).foldl (fun r p =>
    (r.wr (.TEN_SHADOW p) F.TEN_SHADOW.confirmed (s.rd (.TEN_SHADOW p) F.TEN_SHADOW.confirmed)).wr (.TEN_SHADOW p) F.TEN_SHADOW.sfaults
      (s.rd (.TEN_SHADOW p) F.TEN_SHADOW.sfaults)) r
  (List.range 48).foldl (fun r g => r.wr (.MR_CONF g) F.MR_CONF.conf (s.rd (.MR_CONF g) F.MR_CONF.conf)) r

/-- What a package reset keeps as it is (log entry 58), everything else as right after reset. -/
def State.resetKept (s : State) (porst : Bool) : State :=
  let r := State.resetOf s.variant
  let erase := fun (w : VWrite) => s.sec.erase.any (fun e => decide (e.1 = w.rec_))
  let c := s.ctl
  { r with
    time := s.time, free := s.free, out := s.out, pending := s.pending
    regs := s.regs.filter (fun e => keepsKey e.1)
    arrs := s.arrs.filterMap (fun (e : Nat × PArr) => if e.2.w.isEmpty then none else some (e.1, { PArr.reset with w := e.2.w }))
    calStore := s.calStore
    faults := { Faults.reset with map := s.faults.map ++ s.faults.late.map Prod.fst, mapGen := s.faults.mapGen, boots := s.faults.boots, seq := s.faults.seq }
    vault := { s.vault with writes := s.vault.writes.filter erase }
    sec := { s.sec with seed := none, nonce := none, cmd := none, a2 := !porst && s.sec.a2 }
    power := { s.power with ready := false, released := true, vwait := [], beyond := false }
    ctl := { Ctl.reset with refclk := c.refclk, refFailed := c.refFailed } }

/-- The package in reset: what is not kept in reserved rows or in the always-on domain is as after reset (log entry 58).  `porst`
tells an assertion of PORST_N from every other reset. -/
def State.afterReset (s : State) (porst : Bool) : State :=
  let r := s.resetKept porst
  -- the sets come from the calibration store (R140)
  let r := s.calStore.foldl (fun r e =>
    let n := e.1 % 512
    let a := e.1 / 512 % 256
    let pf := e.1 / 512 / 256
    (r.setReg (.CONV_SETLO pf a n) e.2.1).setReg (.CONV_SETHI pf a n) e.2.2) r
  let r := (r.wr .SEC_STAT F.SEC_STAT.id_state (s.rd .SEC_STAT F.SEC_STAT.id_state)).wr .SEC_STAT F.SEC_STAT.erase_pending
    (s.rd .SEC_STAT F.SEC_STAT.erase_pending)
  let r := if porst then r else (s.keepCounts r).wr .SEC_STAT F.SEC_STAT.locked (s.rd .SEC_STAT F.SEC_STAT.locked)
  -- the class of an alarm is sticky (R15, R527)
  let r := if porst then r else (List.range 13).foldl (fun r n => r.wr (.SEC_ALARM n) F.SEC_ALARM.cls (s.rd (.SEC_ALARM n) F.SEC_ALARM.cls)) r
  let r := r.wr .FLT_INJ_CTL F.FLT_INJ_CTL.allowed (s.rd .FLT_INJ_CTL F.FLT_INJ_CTL.allowed)
  r.wr .VAULT_STAT F.VAULT_STAT.busy (b2n (!r.vault.writes.isEmpty))

/-- The entries of the disabled-unit map in force as the package leaves reset (R107, R450): each unit fenced, without events and
records. -/
def State.applyUnits (s : State) : State :=
  let t := s.faults.map.foldl State.fenceUnit s
  let t := { t with raises := s.raises, hbm := { s.hbm with lost := t.hbm.lost }, faults := { s.faults with active := t.faults.active } }
  (t.setReg .FLT_STAT (s.reg .FLT_STAT)).setReg .FLT_CPER_RING (s.reg .FLT_CPER_RING)

/-- The rails of a group in the order of R570. -/
def railGroup (i : Nat) : List Nat := [[6], [0, 1, 2, 3], [4], [9], [10], [7], [8], [5]].getD i []

/-- The sequence begins (R570). -/
def State.beginSeq (s : State) : State :=
  { s with power := { s.power with phase := 2, group := 0, enabled := railGroup 0, good := [], since := s.time } }

/-- The package enters reset and the rails go (R572). -/
def State.enterReset (s : State) (porst : Bool) (phase : Nat) : State :=
  let s := s.afterReset porst
  { s with power := { s.power with phase := phase, enabled := [], good := [], since := s.time } }

/-- PORST_ASSERT (R570, R572): an assertion shorter than 1 µs is ignored. -/
def execPorstAssert (ns : Nat) (s : State) : Res :=
  if ns < 1000 then .next s
  else
    let s := s.enterReset true 1
    .next { s with power := { s.power with fails := 0 } }

/-- PORST_RELEASE (R434, R495, R570): the sequence begins, unless a package trip prevails. -/
def execPorstRelease (s : State) : Res :=
  if s.power.phase ≠ 1 then .next s
  else
    let s := { s with boot := { s.boot with released := s.time }, faults := { s.faults with boots := s.faults.boots + 1 } }
    let s := s.setReg .SYS_TIME 0
    .next (if s.power.trip then { s with power := { s.power with phase := 4 } } else s.beginSeq)

/-- RAIL_PG_RISE (R570): the next group follows the last RAIL_PG of its predecessor; after the last group the package leaves
reset. -/
def execRailPgRise (n : Nat) (s : State) : Res :=
  let p := s.power
  if p.phase ≠ 2 ∨ !p.enabled.contains n then .next s
  else
    let good := insertNat p.good n
    if !p.enabled.all (fun k => good.contains k) then .next { s with power := { p with good := good } }
    else if p.group < 7 then
      .next { s with power := { p with good := good, group := p.group + 1, enabled := p.enabled ++ railGroup (p.group + 1), since := s.time + 100000 } }
    else
      let s := { s with power := { p with good := good, group := 8, phase := 0, fails := 0, since := s.time } }
      .next s.applyUnits

/-- A sequence failed at a rail (R571). -/
def State.failSeq (s : State) (n : Nat) : State :=
  let s := s.enterReset false 3
  let r := Reg.PWR_SEQ
  let s := ((s.bump r F.PWR_SEQ.attempts 1).wr r F.PWR_SEQ.rail n).wr r F.PWR_SEQ.fail 1
  let fails := s.power.fails + 1
  { s with power := { s.power with fails := fails, report := true, phase := if 3 ≤ fails then 5 else 3 } }

/-- RAIL_PG_TIMEOUT (R571): 10 ms after its enable. -/
def execRailPgTimeout (n : Nat) (s : State) : Res :=
  let p := s.power
  .next (if p.phase = 2 ∧ p.enabled.contains n ∧ !p.good.contains n ∧ p.since + 10000000 ≤ s.time then s.failSeq n else s)

/-- RAIL_PG_DROP (R571): `ns` is how long an enabled rail's RAIL_PG has dropped. -/
def execRailPgDrop (n ns : Nat) (s : State) : Res :=
  let p := s.power
  .next (if (p.phase = 0 ∨ p.phase = 2) ∧ p.good.contains n ∧ 10000 < ns then s.failSeq n else s)

/-- SEQ_RESTART_TIMER (R571). -/
def execSeqRestartTimer (s : State) : Res :=
  .next (if s.power.phase = 3 ∧ s.power.since + 1000000000 ≤ s.time then s.beginSeq else s)

/-- A package trip (R536, R572); a record of class PACKAGE follows the next boot. -/
def State.packageTrip (s : State) (detector : Nat) : State :=
  let s := s.enterReset false 4
  { s with power := { s.power with trip := true, owed := s.power.owed ++ [detector] } }

/-- PKG_SENSOR_TRIP (R536): a package sensor's reading in 1/16 °C. -/
def execPkgSensorTrip (n : Nat) (t : Int) (s : State) : Res :=
  if 12 ≤ n then .next s
  else
    let s := if 1920 ≤ t ∧ s.power.phase ≠ 4 then
        let porst := decide (s.power.phase = 1)
        let s := s.packageTrip 0
        if porst then { s with power := { s.power with phase := 1 } } else s
      else s
    .next (s.wr (.THERM_PKG n) F.THERM_PKG.temp (toCode 16 t))

/-- PKG_TRIP_RESTART (R536, R572): every package sensor reads below 85 °C. -/
def execPkgTripRestart (temps : List Int) (s : State) : Res :=
  if !s.power.trip ∨ temps.length ≠ 12 ∨ temps.any (fun t => decide (1360 ≤ t)) then .next s
  else
    let s := (List.range 12).foldl (fun s n => s.wr (.THERM_PKG n) F.THERM_PKG.temp (toCode 16 (temps.getD n 0))) s
    let s := { s with power := { s.power with trip := false } }
    if s.power.phase ≠ 4 then .next s
    else
      let s := { s with boot := { s.boot with released := s.time }, faults := { s.faults with boots := s.faults.boots + 1 } }
      .next ((s.setReg .SYS_TIME 0).beginSeq)

/-- HBM_TEMP (R537): a stack's temperature in 1/16 °C, and its catastrophic-temperature output, which trips the package. -/
def execHbmTemp (k : Nat) (t : Int) (cat : Bool) (s : State) : Res :=
  if 8 ≤ k then .next s
  else if cat then .next (s.packageTrip 0)
  else .next (s.hbmTemp k t)

/-- VDD_AON_LOSS (R517, R521, R568): the always-on domain loses the key store, the lock and erase latches and PWR_SEQ; erase writes
not yet made stay undone; the package waits for the platform to start it again. -/
def execVddAonLoss (s : State) : Res :=
  let s := { s with sec := { s.sec with keys := [], erase := [] } }
  let s := (s.wr .SEC_STAT F.SEC_STAT.erase_pending 0).setReg .PWR_SEQ (Reg.resetVal s.variant .PWR_SEQ)
  let s := s.enterReset true 1
  .next { s with power := { s.power with fails := 0, report := false, trip := false } }

end Sys2Proof.Machine
end

