-- ==== Sys2Proof/Machine/Security.lean ====
section
/-! DEFINITION. The security block (R505-R528): identity, owner tokens, commands, key store, sensors and alarms. -/

namespace Sys2Proof.Machine

/-- An event of the security block (R528). -/
def State.secEvent (s : State) (code : Nat) (fields : List Nat) : State := s.raise ⟨5, code, 0xFFFF, 0xFFFF, fields⟩

def State.locked (s : State) : Bool := s.on .SEC_STAT F.SEC_STAT.locked
def State.idState (s : State) : Nat := s.rd .SEC_STAT F.SEC_STAT.id_state
def State.erasing (s : State) : Bool := s.on .SEC_STAT F.SEC_STAT.erase_pending

/-- NONCE_DRAW (R510): a read of SEC_NONCE_0 draws 64 fresh bytes, latched in the eight words. -/
def execNonceDraw (s : State) : Res :=
  let n := toBytes 64 (Config.entropy s.sec.draws)
  let s := { s with sec := { s.sec with nonce := some n, draws := s.sec.draws + 1 } }
  let s := (List.range 8).foldl (fun s k => s.setReg (.SEC_NONCE k) (field n (8 * k) 8)) s
  .next (s.emit (.read (field n 0 8) false))

-- The identity

/-- The wrap key of a hub (R508). -/
def wrapKey (h : Nat) (help : List Byte) (gen : Nat) : List Byte :=
  shake256 (Config.pufSecret h help ++ [0x5A, 0x4C, 0x57, 0x52, 0x41, 0x50] ++ toBytes 8 gen) 32

/-- The nonce of a blob (R508). -/
def blobNonce (h : Nat) : List Byte := BitVec.ofNat 8 h :: List.replicate 11 0

/-- The owner digest (R508); 64 zero bytes when unowned. -/
def State.owner (s : State) : List Byte := (s.vbytes vOwner).getD (List.replicate 64 0)
def State.owned (s : State) : Bool := s.owner.any (fun b => decide (b ≠ 0))

/-- The identity generation (R507). -/
def State.idGen (s : State) : Nat := s.vcount vGen

/-- A hub's blob unwrapped (R509); none where the tag fails or a record is missing. -/
def State.unwrap (s : State) (h : Nat) : Option (List Byte) :=
  match s.vbytes (vBlob h), s.vbytes (vHelp h) with
  | some blob, some help => gcmOpen (wrapKey h help s.idGen) (blobNonce h) [] blob
  | _, _ => none

/-- A seed wrapped for a hub with fresh helper data: both records written (R508, R509). -/
def State.wrapSeed (s : State) (h gen : Nat) (seed : List Byte) : State :=
  let n := s.sec.puf.getD h 0
  let help := Config.pufHelper h n
  let s := { s with sec := { s.sec with puf := setNth s.sec.puf h (n + 1) } }
  (s.vput (vBlob h) (.bytes (gcmSeal (wrapKey h help gen) (blobNonce h) [] seed))).vput (vHelp h) (.bytes help)

/-- The identity section holds what an erase leaves: zero records for both blobs (R521). -/
def State.erased (s : State) : Bool :=
  [0, 1].all (fun h => match s.vbytes (vBlob h) with | some b => b.all (fun x => decide (x = 0)) | none => false)

/-- PUF_UNWRAP (R508, R509, R521): at power-up; `failed` are the hubs whose PUF response does not correct to its secret. -/
def execPufUnwrap (failed : List Nat) (s : State) : Res :=
  if s.power.phase ≠ 0 ∨ s.sec.seed.isSome then .next s
  else if s.erasing then .next (s.wr .SEC_STAT F.SEC_STAT.id_state 2)
  else
    let s := { s with sec := { s.sec with digest := match s.vbytes vKey with | some k => sha3_512 k | none => List.replicate 64 0 } }
    let got := fun h => if failed.contains h then none else s.unwrap h
    match got 0, got 1 with
    | none, none =>
      .next (s.wr .SEC_STAT F.SEC_STAT.id_state (if !s.owned && (s.vbytes vKey).isNone then 0 else if s.erased then 2 else 3))
    | a, b =>
      let seed := match a with | some x => x | none => b.getD []
      let s := { s with sec := { s.sec with seed := some seed } }
      let s := if a.isNone then s.wrapSeed 0 s.idGen seed else if b.isNone then s.wrapSeed 1 s.idGen seed else s
      .next ((s.wr .SEC_STAT F.SEC_STAT.hub_keys 3).wr .SEC_STAT F.SEC_STAT.id_state 1)

-- Commands

/-- The status of a token (R511, R512), 0 for valid: format and command, nonce, owner, signature. -/
def State.tokenErr (s : State) (t : List Byte) (cmd : Nat) : Nat :=
  let key := (t.drop 192).take 2592
  if !(decide (field t 0 4 = 0x5A4F574E) && decide (field t 4 2 = 1) && decide (field t 6 1 = cmd)
      && ((t.drop 7).take 57).all (fun x => decide (x = 0))
      && (decide (cmd = 5) || ((t.drop 128).take 64).all (fun x => decide (x = 0)))) then 4
  else if s.sec.nonce ≠ some ((t.drop 64).take 64) then 5
  else if !(decide (sha3_512 key = s.owner) || (!s.owned && decide (cmd = 2))) then 4
  else if !Config.dsaVerify key (sha3_512 (t.take 2784)) ((t.drop 2784).take 4627) then 6
  else 0

/-- A sensor whose class is A2 or A3 is in alarm (R520). -/
def State.gravelyAlarmed (s : State) : Bool :=
  (List.range 13).any (fun n => s.on (.SEC_ALARM n) F.SEC_ALARM.active && decide (2 ≤ s.rd (.SEC_ALARM n) F.SEC_ALARM.cls))

/-- A command is not allowed in the present state (R512, R516, R520, R522). -/
def State.stateErr (s : State) (op : Nat) : Nat :=
  if (op = 1 ∨ op = 2 ∨ op = 5) ∧ s.locked = true then 8
  else if (op = 1 ∨ op = 5) ∧ s.idState ≠ 1 then 7
  else if op = 2 ∧ s.erasing = true then 7
  else if op = 3 ∧ s.on .FW_UPDATE F.FW_UPDATE.busy = true then 7
  else if op = 4 ∧ s.gravelyAlarmed = true then 7
  else 0

/-- A command begins: it is busy until SEC_CMD_COMPLETE. -/
def State.startCmd (s : State) (op : Nat) (status : Option Nat) (waits : List (Nat × Nat)) (fields : List Nat) : State :=
  ({ s with sec := { s.sec with cmd := some (SecCmd.mk op waits status fields) } }).wr .SEC_CMD F.SEC_CMD.busy 1

/-- The vault writes in the queue beyond the first `n`, as records and generations awaited. -/
def State.newWaits (s : State) (n : Nat) : List (Nat × Nat) := (s.vault.writes.drop n).map (fun w => (w.rec_, w.gen))

/-- The input of a command (R512), and its poison. -/
def State.secInput (s : State) (n : Nat) : List Byte × Bool := s.hbmRead (s.rd .SEC_CMD_SRC F.SEC_CMD_SRC.addr * 64) n

/-- ENROLL begins (R507, R508, R512): a new seed and generation, and the identity records to write. -/
def State.enroll (s : State) (t : List Byte) : State :=
  let n0 := s.vault.writes.length
  let idx := s.sec.draws
  let seed := (toBytes 64 (Config.entropy idx)).take 32
  let gen := s.idGen + 1
  let fresh := !s.owned
  let s := { s with sec := { s.sec with draws := idx + 1 } }
  let s := if fresh then s.vput vOwner (.bytes (sha3_512 ((t.drop 192).take 2592))) else s
  let s := s.vput vKey (.bytes (Config.dsaPublic seed))
  let s := (s.wrapSeed 0 gen seed).wrapSeed 1 gen seed
  let s := s.vput vGen (.count gen)
  s.startCmd 2 none (s.newWaits n0) ([b2n fresh, gen, idx] ++ toNats ((t.drop 64).take 64))

/-- SVN_COMMIT begins (R516). -/
def State.svnCommit (s : State) : State :=
  let b := s.bootRec.getD (BootRec.mk [0, 1, 2] 0x400000 none [] 0)
  let v := s.rd .FW_STAT F.FW_STAT.svn
  let n0 := s.vault.writes.length
  if b.svn < v then
    let s := s.vput vBoot (.boot { b with svn := v })
    s.startCmd 3 none (s.newWaits n0) [1, v]
  else s.startCmd 3 none [] [0, b.svn]

/-- A write of go with an operation (R512). -/
def State.secGo (s : State) (op : Nat) : State :=
  if s.on .SEC_CMD F.SEC_CMD.busy then s.wr .SEC_CMD F.SEC_CMD.status 2
  else
    let e := s.stateErr op
    if op = 0 ∨ 5 < op then s.startCmd op (some 3) [] []
    else if e ≠ 0 then s.startCmd op (some e) [] []
    else if op = 1 then
      let i := s.secInput 64
      if i.2 then s.startCmd 1 (some 9) [] [] else s.startCmd 1 none [] (toNats i.1)
    else if op = 3 then s.svnCommit
    else
      let i := s.secInput 7411
      if i.2 then s.startCmd op (some 9) [] []
      else
        let te := s.tokenErr i.1 op
        let s := { s with sec := { s.sec with nonce := none } }
        if te ≠ 0 then s.startCmd op (some te) [] []
        else if op = 2 then s.enroll i.1
        else if op = 4 then s.startCmd 4 none [] []
        else
          let n0 := s.vault.writes.length
          let s := s.vput vOwner (.bytes ((i.1.drop 128).take 64))
          s.startCmd 5 none (s.newWaits n0) []

/-- A write of SEC_CMD (R525). -/
def State.secCmdWrite (s : State) (op : Nat) : State :=
  (if s.on .SEC_CMD F.SEC_CMD.busy then s else s.wr .SEC_CMD F.SEC_CMD.op op).secGo op

/-- ATTEST (R512, R514). -/
def execAttest (s : State) : Res := .next (s.secCmdWrite 1)
/-- ENROLL (R507, R508, R511, R512). -/
def execEnroll (s : State) : Res := .next (s.secCmdWrite 2)
/-- SVN_COMMIT (R516). -/
def execSvnCommit (s : State) : Res := .next (s.secCmdWrite 3)
/-- UNLOCK (R520). -/
def execUnlock (s : State) : Res := .next (s.secCmdWrite 4)
/-- OWNER (R512). -/
def execOwner (s : State) : Res := .next (s.secCmdWrite 5)

/-- The digest of a service (R515). -/
def State.serviceDigest (s : State) (sv : Nat) : List Byte :=
  let regs := [Reg.SVC_CFG sv, .SVC_DL sv, .SVC_LEN sv, .SVC_TOKS sv, .SVC_COST sv, .EP_STAT sv, .KV_POOL_CFG sv]
  let facs := (List.range 816).filter (fun p => s.on (.FAC_BIND p) F.FAC_BIND.bound && decide (s.rd (.FAC_BIND p) F.FAC_BIND.service = sv))
  sha3_512 (regs.flatMap (fun r => toBytes 8 (s.reg r))
    ++ facs.flatMap (fun p => toBytes 2 (s.lfOf p) ++ toBytes 2 (s.rd (.FAC_BIND p) F.FAC_BIND.prog_id)))

/-- The attestation report before its signature (R514). -/
def State.report (s : State) (nonce : List Byte) : List Byte :=
  let mask := s.reg .SEC_ATT_MASK
  let svcs := bitsSet 64 mask
  let vsvn := match s.bootRec with | some b => b.svn | none => 0
  let flags := b2n (s.on .FLT_INJ_CTL F.FLT_INJ_CTL.allowed) + 2 * b2n s.sec.a2 + 4 * b2n (s.on .FW_UPDATE F.FW_UPDATE.busy)
  toBytes 4 0x5A415452 ++ toBytes 2 1 ++ toBytes 2 (s.rd .PKG_VARIANT F.PKG_VARIANT.part) ++ nonce ++ s.sec.digest
    ++ imgDigest s.boot.running ++ toBytes 4 (s.rd .FW_STAT F.FW_STAT.version) ++ toBytes 2 (s.rd .FW_STAT F.FW_STAT.svn) ++ toBytes 2 vsvn
    ++ toBytes 8 s.sysClock ++ toBytes 8 s.idGen ++ toBytes 8 s.faults.mapGen ++ sha3_512 (s.faults.map.flatMap (toBytes 8))
    ++ toBytes 1 flags ++ toBytes 1 svcs.length ++ toBytes 6 0 ++ toBytes 8 mask ++ toBytes 8 0 ++ svcs.flatMap s.serviceDigest

/-- The result of a command written (R512). -/
def State.secResult (s : State) (bs : List Byte) : State := s.hbmWrite (s.rd .SEC_CMD_DST F.SEC_CMD_DST.addr * 64) bs false

/-- The command ends with a status (R512, R525). -/
def State.endCmd (s : State) (op status : Nat) : State :=
  let s := { s with sec := { s.sec with cmd := none } }
  ((s.wr .SEC_CMD F.SEC_CMD.busy 0).wr .SEC_CMD F.SEC_CMD.status status).secEvent 0x1A5 [op, status]

/-- What a command does at its end. -/
def State.cmdEffect (s : State) (c : SecCmd) : State :=
  match c.op with
  | 1 =>
    let r := s.report (ofNats c.fields)
    s.secResult (r ++ Config.dsaSign (s.sec.seed.getD []) (sha3_512 r))
  | 2 =>
    let gen := c.fields.getD 1 0
    let seed := (toBytes 64 (Config.entropy (c.fields.getD 2 0))).take 32
    let pub := Config.dsaPublic seed
    let s := { s with sec := { s.sec with seed := some seed, digest := sha3_512 pub } }
    let s := (s.wr .SEC_STAT F.SEC_STAT.hub_keys 3).wr .SEC_STAT F.SEC_STAT.id_state 1
    let s := s.secResult (pub ++ Config.dsaSign seed (sha3_512 (pub ++ ofNats (c.fields.drop 3) ++ toBytes 8 gen)))
    s.secEvent 0x1A3 [gen, c.fields.getD 0 0]
  | 3 => if c.fields.getD 0 0 = 1 then s.secEvent 0x1A4 [c.fields.getD 1 0] else s
  | 4 => s.wr .SEC_STAT F.SEC_STAT.locked 0
  | _ => s

/-- SEC_CMD_COMPLETE (R512): a refused command ends with its status; another once two copies hold every record it writes. -/
def execSecCmdComplete (s : State) : Res :=
  match s.sec.cmd with
  | none => .next s
  | some c => match c.status with
    | some e => .next (s.endCmd c.op e)
    | none =>
      if !c.waits.all (fun w => s.vheld w.1 w.2) then .next s
      else .next ((s.cmdEffect c).endCmd c.op 1)

-- The key store

/-- The valid bit of the selected slot, as SEC_KEY_SEL shows it. -/
def State.showValid (s : State) : State :=
  s.wr .SEC_KEY_SEL F.SEC_KEY_SEL.valid (b2n (Tab.find? s.sec.keys (s.rd .SEC_KEY_SEL F.SEC_KEY_SEL.slot)).isSome)

/-- A write of SEC_KEY_SEL with commit or clear (R518). -/
def State.keyWrite (s : State) (slot : Nat) (commit : Bool) : State :=
  let s := s.wr .SEC_KEY_SEL F.SEC_KEY_SEL.slot slot
  let bad := s.locked || decide (8191 < slot) || s.serve.chans.any (fun p => p.2.enabled && decide (p.2.keySlot = slot))
  let key := [0, 1, 2, 3].flatMap (fun k => toBytes 8 (s.reg (.SEC_KEY_DATA k)))
  let s := if bad then s.wr .SEC_KEY_SEL F.SEC_KEY_SEL.refused 1
    else { s with sec := { s.sec with keys := if commit then Tab.set s.sec.keys slot key else Tab.erase s.sec.keys slot } }
  ([0, 1, 2, 3].foldl (fun s k => s.setReg (.SEC_KEY_DATA k) 0) s).showValid

/-- KEY_COMMIT (R518). -/
def execKeyCommit (slot : Nat) (s : State) : Res := .next (s.keyWrite slot true)
/-- KEY_CLEAR (R518). -/
def execKeyClear (slot : Nat) (s : State) : Res := .next (s.keyWrite slot false)

-- Sensors and alarms

/-- The alarm reported (R519, A1). -/
def State.alarmA1 (s : State) (n cls : Nat) (injected : Bool) : State :=
  let s := (s.bump (.SEC_ALARM n) F.SEC_ALARM.count 1).wr .SEC_STAT F.SEC_STAT.last_sensor n
  (s.wr .SEC_STAT F.SEC_STAT.last_class cls).secEvent 0x1A0 [n, cls, b2n injected]

/-- A command in progress is aborted (R522): what is left of its vault writes is not made. -/
def State.abortCmd (s : State) : State :=
  match s.sec.cmd with
  | none => s
  | some c =>
    let left := s.vault.writes.filter (fun w => !c.waits.contains (w.rec_, w.gen))
    let s := ({ s with vault := { s.vault with writes := left } }).wr .VAULT_STAT F.VAULT_STAT.busy (b2n (!left.isEmpty))
    s.endCmd c.op 0x0A

/-- The lock of R520. -/
def State.lock (s : State) (n : Nat) : State :=
  let s := (s.wr .SEC_STAT F.SEC_STAT.locked 1).abortCmd
  let s := { s with sec := { s.sec with a2 := true } }
  let chans := (s.serve.chans.filter (fun p => p.2.prot && p.2.enabled && decide (p.2.state ≠ 1))).map Prod.fst
  (chans.foldl State.chanDown s).secEvent 0x1A1 [n]

/-- The erase of R521; the package then stops and restarts (R447, R519). -/
def State.eraseAll (s : State) (n : Nat) : State :=
  let s := { s with sec := { s.sec with keys := [], seed := none } }
  let s := (s.wr .SEC_STAT F.SEC_STAT.hub_keys 0).wr .SEC_STAT F.SEC_STAT.erase_pending 1
  let s := (s.wr .SEC_STAT F.SEC_STAT.id_state 2).showValid
  let n0 := s.vault.writes.length
  let s : State := [0, 1].foldl (fun (s : State) h => (s.vput (vBlob h) (.bytes (List.replicate 48 0))).vput (vHelp h) (.bytes (List.replicate 4096 0))) s
  let s := { s with sec := { s.sec with erase := s.newWaits n0 } }
  let s := { s with power := { s.power with owed := s.power.owed ++ [0x20 + n] } }
  if s.power.phase ≠ 0 then s
  else
    let s := s.enterReset false 2
    let s := { s with boot := { s.boot with released := s.time }, faults := { s.faults with boots := s.faults.boots + 1 } }
    (s.setReg .SYS_TIME 0).beginSeq

/-- An alarm acts by its class (R519); one injected dry acts as A1 (R523). -/
def State.alarm (s : State) (n : Nat) (injected dry : Bool) : State :=
  let cls := if dry then 1 else s.rd (.SEC_ALARM n) F.SEC_ALARM.cls
  let s := s.alarmA1 n cls injected
  let s := if 2 ≤ cls then s.lock n else s
  if 3 ≤ cls then s.eraseAll n else s

/-- A sensor's condition appears or goes; an appearing one latches an alarm. -/
def State.sensor (s : State) (n : Nat) (present : Bool) : State :=
  let was := s.on (.SEC_ALARM n) F.SEC_ALARM.active
  let s := s.wr (.SEC_ALARM n) F.SEC_ALARM.active (b2n present)
  if present && !was then s.alarm n false false else s

/-- SENSOR_ALARM (R519): a sensor's alarm condition appears (`present`) or goes. -/
def execSensorAlarm (n : Nat) (present : Bool) (s : State) : Res :=
  .next (if n < 13 then s.sensor n present else s)

/-- ERASE_COMPLETE (R521). -/
def execEraseComplete (s : State) : Res :=
  if !s.erasing ∨ s.sec.erase.isEmpty ∨ !s.sec.erase.all (fun w => s.vheld w.1 w.2) then .next s
  else
    let s := { s with sec := { s.sec with erase := [] } }
    .next ((s.wr .SEC_STAT F.SEC_STAT.erase_pending 0).secEvent 0x1A2 [s.idGen])

/-- SEC_ALARM_CLASS_WRITE (R527): a write of SEC_ALARM_n sets the count; a class takes effect only when it is not lower. -/
def execSecAlarmClassWrite (n value : Nat) (s : State) : Res :=
  if 13 ≤ n then .next s
  else
    let r := Reg.SEC_ALARM n
    let s := s.wr r F.SEC_ALARM.count (bits value 63 48)
    let c := bits value 3 2
    .next (if s.rd r F.SEC_ALARM.cls < c then s.wr r F.SEC_ALARM.cls c else s)

/-- D2D_CHALLENGE (R519): a hub challenges each compute die; `failing` are the dies whose response is wrong. -/
def execD2dChallenge (h : Nat) (failing : List Nat) (s : State) : Res :=
  if 2 ≤ h ∨ s.hubFenced h then .next s
  else .next (s.sensor 11 ((List.range 4).any (fun d => failing.contains d && !s.dieFenced d)))

end Sys2Proof.Machine
end

