-- ==== Sys2Proof/Machine/Faults.lean ====
section
/-! DEFINITION. The fault block: fences by software (R449, R476), the map's late entries (R450), mirror runs (R457-R463),
injection (R470, R471), export of records (R475). -/

namespace Sys2Proof.Machine

/-- FLT_FENCE_WRITE (R449, R476). -/
def execFltFenceWrite (value : Nat) (s : State) : Res :=
  if !s.names value then .next (s.wr .FLT_STAT F.FLT_STAT.fence_err 1)
  else .next (if s.isFenced value then s else s.fenceUnit value)

/-- MAP_APPEND_TIMEOUT (R450): the entries of facet fences whose second has passed. -/
def execMapAppendTimeout (s : State) : Res :=
  let due := fun (e : Nat × Nat) => decide (e.2 ≤ s.time)
  let l := s.faults.late.filter due
  let s := { s with faults := { s.faults with late := s.faults.late.filter (fun e => !due e) } }
  .next (l.foldl (fun s e => s.appendMap e.1) s)

-- Mirror runs

/-- A facet in service that is bound and in RUN or WAIT (R457). -/
def State.mirrorable (s : State) (pf : Nat) : Bool :=
  !(s.facet pf).fenced && decide (s.lfOf pf ≠ 0x3FF) && s.on (.FAC_BIND pf) F.FAC_BIND.bound
    && (decide (s.facState pf = 3) || decide (s.facState pf = 4))

/-- The region may run mirror runs (R457, R463). -/
def State.mirrorsOn (s : State) (g : Nat) : Bool :=
  s.on (.MR_CTL g) F.MR_CTL.enable && !s.on (.MR_CTL g) F.MR_CTL.pause && s.on (.MR_BUF g) F.MR_BUF.valid
    && decide (s.lfOf (mirrorPf g) = 0x3FF) && !(s.facet (mirrorPf g)).fenced

/-- The slot taken next (R457): one in focus, else the next in slot order. -/
def State.nextSlot (s : State) (g : Nat) : Option Nat :=
  let r := s.region g
  match r.focus.find? (fun e => s.mirrorable (g * 17 + e.1)) with
  | some e => some e.1
  | none => ((List.range 16).map (fun i => (r.mrNext + i) % 16)).find? (fun i => s.mirrorable (g * 17 + i))

/-- MR_RUN_START (R457, R458): the chosen facet is in WAIT after an SCOMMIT. -/
def execMrRunStart (g : Nat) (s : State) : Res :=
  if 48 ≤ g ∨ (s.region g).mr.isSome ∨ !s.mirrorsOn g then .next s
  else match s.nextSlot g with
    | none => .next s
    | some i =>
      if s.facState (g * 17 + i) ≠ 4 then .next s
      else
        let r := s.region g
        let focus := match r.focus.find? (fun e => decide (e.1 = i)) with
          | some e => r.focus.filter (fun q => decide (q.1 ≠ i)) ++ [e]
          | none => r.focus
        .next (s.setRegion g { r with mr := some (MRun.mk i 0 0 [] none), focus := focus, mrNext := if r.focus.any (fun e => decide (e.1 = i)) then r.mrNext else (i + 1) % 16 })

/-- MR_SNAPSHOT_DONE (R458). -/
def execMrSnapshotDone (g : Nat) (s : State) : Res :=
  match (s.region g).mr with
  | some m => .next (if m.phase = 0 then s.setRegion g { s.region g with mr := some { m with phase := 1 } } else s)
  | none => .next s

/-- A mirror run passes (R460, R462). -/
def State.runPassed (s : State) (g slot : Nat) : State :=
  let r := s.region g
  let focus := r.focus.filterMap (fun e => if e.1 ≠ slot then some e else if e.2 ≤ 1 then none else some (e.1, e.2 - 1))
  (s.setRegion g { r with mr := none, focus := focus }).bump (.MR_STAT g) F.MR_STAT.runs 1

/-- An output with bit 0 of its first byte flipped (R470). -/
def flipFirst (bs : List Byte) : List Byte :=
  match bs with
  | [] => []
  | b :: t => (b ^^^ 1) :: t

/-- An output that differs, as the run keeps it. -/
def MOut.toDiff (o : MOut) : MDiff := ⟨o.kind, o.order, o.bundle, o.orig, o.mirror, none⟩

/-- MR_MIRROR_STEP_END (R460-R462): `overflow` tells that the log or its staging buffer overflowed, `first` is the first output
of the step and `diff` the first that differs, each with the original's and the mirror's bytes. -/
def execMrMirrorStepEnd (g : Nat) (overflow : Bool) (first diff : Option MOut) (s : State) : Res :=
  match (s.region g).mr with
  | none => .next s
  | some m =>
    if overflow then .next (s.voidRun g)
    else if m.phase ≠ 2 then .next s
    else
      let i8 := s.injArmed 8 (unitDesc 3 (g * 17 + m.slot) 0 0)
      let i9 := s.injArmed 9 (unitDesc 3 (mirrorPf g) 0 0)
      let dry := s.injDry
      let inj := (i8 || i9) && first.isSome
      let d : Option MDiff := match first with
        | some f => if i8 then some { MOut.toDiff f with orig := flipFirst f.orig, inj := some dry }
          else if i9 then some { MOut.toDiff f with mirror := flipFirst f.mirror, inj := some dry } else diff.map MOut.toDiff
        | none => diff.map MOut.toDiff
      let s := if inj then s.injDone else s
      match d with
      | some x => .next (s.setRegion g { s.region g with mr := some { m with phase := 3, diff := some x } })
      | none => .next (s.runPassed g m.slot)

/-- The payload of a mirror run's record (R474). -/
def mirrorPayload (m : MRun) (d : MDiff) (replay : List Byte) : List Byte :=
  let cut := fun (n : Nat) (b : List Byte) => (b ++ List.replicate n 0).take n
  cut 512 m.desc ++ toBytes 2 d.kind ++ toBytes 2 d.order ++ toBytes 4 d.bundle ++ cut 64 d.orig ++ cut 64 d.mirror ++ cut 64 replay

/-- The count of a slot in MR_CONF_g raised, up to 2 (R463). -/
def State.countConf (s : State) (g slot : Nat) : State :=
  let r := Reg.MR_CONF g
  let c := s.rd r F.MR_CONF.conf
  s.wr r F.MR_CONF.conf (setBits c (2 * slot + 1) (2 * slot) (min 2 (bits c (2 * slot + 1) (2 * slot) + 1)))
def State.confOf (s : State) (g slot : Nat) : Nat := bits (s.rd (.MR_CONF g) F.MR_CONF.conf) (2 * slot + 1) (2 * slot)

/-- A facet put into focus (R462). -/
def State.putFocus (s : State) (g slot : Nat) : State :=
  let n := max 1 (s.rd (.MR_CTL g) F.MR_CTL.focus_clean)
  let r := s.region g
  s.setRegion g { r with focus := r.focus.filter (fun e => decide (e.1 ≠ slot)) ++ [(slot, n)] }

/-- MR_REPLAY_DONE (R462): `before` tells that the replay agrees with the log at every output before the differing one, and
`replay` is its output there. -/
def execMrReplayDone (g : Nat) (before : Bool) (replay : List Byte) (s : State) : Res :=
  match (s.region g).mr with
  | none => .next s
  | some m => match m.diff with
    | none => .next s
    | some d =>
      let pf := g * 17 + m.slot
      let lf := s.lfField pf
      let sv := s.rd (.FAC_BIND pf) F.FAC_BIND.service
      let dry := decide (d.inj = some true)
      let pay := mirrorPayload m d replay
      let s := s.dropRun g
      let report := fun (s : State) (cls det unit code : Nat) (conf : Bool) =>
        s.cper ⟨cls, det, d.inj.isSome, conf, false, false, unit, m.step, lf, sv, code, pay⟩
      if before ∧ replay = d.mirror ∧ replay ≠ d.orig then
        let s := if dry then s else ((s.bump (.MR_STAT g) F.MR_STAT.confirmations 1).countConf g m.slot).putFocus g m.slot
        let s := s.raise ⟨6, 0x1C3, pf, lf, [m.step, s.confOf g m.slot]⟩
        let s := report s clsLatent 8 (unitDesc 3 pf 0 0) 0x1C3 true
        .next (if !dry && decide (s.confOf g m.slot = 2) then s.fenceFacet pf 8 pay else s)
      else if before ∧ replay = d.orig then
        let mp := mirrorPf g
        let s := if dry then s else (s.bump (.MR_STAT g) F.MR_STAT.mirror_faults 1).countConf g 16
        let s := s.raise ⟨6, 0x1C4, mp, 0xFFFF, [s.confOf g 16]⟩
        let s := report s clsRecovered 9 (unitDesc 3 mp 0 0) 0x1C4 false
        .next (if !dry && decide (s.confOf g 16 = 2) then s.fenceFacet mp 9 pay else s)
      else
        let s := s.bump (.MR_STAT g) F.MR_STAT.unresolved 1
        let s := if dry then s else s.putFocus g m.slot
        let s := s.raise ⟨6, 0x1C5, pf, lf, [m.step]⟩
        .next (report s clsLatent 8 (unitDesc 3 pf 0 0) 0x1C5 false)

-- Injection

/-- The kinds of R470 and R523. -/
def knownKind (k : Nat) : Bool := (decide (1 ≤ k) && decide (k ≤ 0x16)) || (decide (0x20 ≤ k) && decide (k ≤ 0x2C))

/-- The ranges of hub SRAM that hardware keeps in both hubs (R420). -/
def replicated (a : Nat) : Bool :=
  decide (a < 0xC0000) || (decide (0x100000 ≤ a) && decide (a < 0x180000)) || (decide (0x200000 ≤ a) && decide (a < 0x280000))
    || (decide (0x2000000 ≤ a) && decide (a < 0x2080000)) || (decide (0x3FE0000 ≤ a) && decide (a < 0x4000000))

/-- An uncorrectable error in hub SRAM (R454, R455, R472): rewritten from the other hub's copy, or the word poisoned. -/
def State.hubUe (s : State) (a : Nat) (inj : Bool) : State :=
  let pay := toBytes 8 a ++ toBytes 8 0
  if replicated a then
    (s.bump .FLT_STAT F.FLT_STAT.hub_repair 1).cper ⟨clsRecovered, 0x10, inj, false, false, false, 0, 0, 0xFFFF, 0xFFFF, 0, pay⟩
  else
    ({ s with hub := s.hub.setPoison (a / 8) true }).cper ⟨clsContained, 0x10, inj, false, false, false, 0, 0, 0xFFFF, 0xFFFF, 0, pay⟩

/-- The injections that act at once on their target; none where the target is not of the kind (R470). -/
def State.injectNow (s : State) (kind : Nat) : Option State :=
  let d := s.reg .FLT_INJ_SEL
  let arg := s.rd .FLT_INJ_CTL F.FLT_INJ_CTL.arg
  let dry := s.injDry
  let pf := descMajor d
  let facet := decide (descKind d = 3) && s.names d
  let core := fun (g : FCore → FCore) => some (s.asyncCore pf g)
  if kind = 0x0A ∧ facet = true ∧ arg < 0x600000 then core (fun c => { c with latentCe := insertNat c.latentCe (arg / 8) })
  else if kind = 0x0B ∧ facet = true ∧ arg < 0x600000 then core (fun c => { c with latentUe := insertNat c.latentUe (arg / 8) })
  else if kind = 0x0C ∧ facet = true ∧ arg < 8192 then core (fun c => { c with imemUe := insertNat c.imemUe arg })
  else if kind = 0x0E then some { s with faults := { s.faults with hbmCe := insertNat s.faults.hbmCe (arg / 64) } }
  else if kind = 0x0F then some { s with faults := { s.faults with hbmUe := insertNat s.faults.hbmUe (arg / 64) } }
  else if kind = 0x10 ∧ arg < 0x4000000 then some (s.hubUe arg true)
  else if kind = 0x11 ∧ descKind d = 8 ∧ s.names d = true then
    let lc := s.rd (.CORE_STAT pf) F.CORE_STAT.lc
    let s := if lc < 16 then s.raise ⟨2 ^ 16 + lc * 64 + 32, 0, 0xFFFF, 0xFFFF, []⟩ else s
    some (if dry then s.cper ⟨clsUnit, 0x11, true, false, false, false, d, 0, 0xFFFF, 0xFFFF, 0x1C0, []⟩ else s.fenceCore pf 0x11 false)
  else if kind = 0x13 ∧ descKind d = 0x0A ∧ s.names d = true then
    some (if dry then s.cper ⟨clsUnit, 0x13, true, false, false, false, d, 0, 0xFFFF, 0xFFFF, 0x1C0, []⟩
      else if s.isFenced d then s else s.fenceD2d d 0x13)
  else if kind = 0x16 then (match execRefclkFail s with | .next t => some t | _ => none)
  else if 0x20 ≤ kind then some (s.alarm (kind - 0x20) true dry)
  else none

/-- FLT_INJ_ARM (R470, R471): a write of FLT_INJ_CTL. -/
def execFltInjArm (value : Nat) (s : State) : Res :=
  let r := Reg.FLT_INJ_CTL
  let kind := bits value 23 16
  let s := ((s.wr r F.FLT_INJ_CTL.arg (bits value 63 24)).wr r F.FLT_INJ_CTL.kind kind).wr r F.FLT_INJ_CTL.dry (bits value 1 1)
  let s := if bitAt value 3 then s.wr r F.FLT_INJ_CTL.refused 0 else s
  let s := if bitAt value 2 then s.wr r F.FLT_INJ_CTL.done 0 else s
  if !bitAt value 0 then .next s
  else if !s.on r F.FLT_INJ_CTL.allowed ∨ !knownKind kind then .next (s.wr r F.FLT_INJ_CTL.refused 1)
  else
    let s := s.wr r F.FLT_INJ_CTL.arm 1
    match s.injDone.injectNow kind with
    | some t => .next t
    | none => .next s

-- Export

/-- The record of a slot sent to the collector (R475). -/
def State.sendSlot (s : State) (k : Nat) : State :=
  let a := s.rd .FLT_CPER_RING F.FLT_CPER_RING.addr * 2 ^ 21 + k * 8192
  let n := min 8192 (s.hbm.readNat (a + 20) 4)
  s.emit (.cper (s.reg (.FLT_EXPORT_IP 0)) (s.reg (.FLT_EXPORT_IP 1)) (s.rd .FLT_EXPORT F.FLT_EXPORT.port) (s.hbm.read a n))

/-- The management port is up (R574). -/
def State.mgmtUp (s : State) : Bool := decide (s.rd .MGMT_STAT F.MGMT_STAT.state = 2)

/-- CPER_EXPORT (R475): the oldest record not yet sent. -/
def execCperExport (s : State) : Res :=
  match s.faults.toSend with
  | [] => .next s
  | k :: t =>
    if s.on .FLT_EXPORT F.FLT_EXPORT.enable && s.mgmtUp then .next (({ s with faults := { s.faults with toSend := t } }).sendSlot k)
    else .next s

/-- CPER_RESEND (R475, R476): a write of FLT_EXPORT; resend sends the slot again, at once or when the port is up. -/
def execCperResend (value : Nat) (s : State) : Res :=
  let r := Reg.FLT_EXPORT
  let s := ((s.wr r F.FLT_EXPORT.enable (bits value 63 63)).wr r F.FLT_EXPORT.auto_release (bits value 62 62)).wr r F.FLT_EXPORT.port (bits value 47 32)
  let k := bits value 15 8
  let s := s.wr r F.FLT_EXPORT.resend_idx k
  if !bitAt value 0 then .next s
  else if s.mgmtUp then .next (s.sendSlot k)
  else .next { s with faults := { s.faults with toSend := s.faults.toSend ++ [k] } }

end Sys2Proof.Machine
end

