-- ==== Sys2Proof/Machine/Ports.lean ====
section
/-! DEFINITION. External interfaces (R558-R577): service and management ports, software frames, PCIe, TAP, loupe, TIME_IN, and the
losses of links and memory channels (R451). -/

namespace Sys2Proof.Machine

/-- TIME_IN_EDGE (R567): `ns` is the time since the edge before. -/
def execTimeInEdge (ns : Nat) (s : State) : Res :=
  if ns < 1000 then .next s
  else
    let s := s.wr .TIME_IN_STAMP F.TIME_IN_STAMP.time s.sysClock
    .next (s.raise ⟨0xC, 0x1B5, 0xFFFF, 0xFFFF, [s.sysClock]⟩)

-- Software frames

/-- The CRC-32 of Ethernet (IEEE 802.3). -/
def fcsBit (c : Nat) : Nat := if c % 2 = 1 then (c / 2) ^^^ 0xEDB88320 else c / 2
def fcsByte (c : Nat) (b : Byte) : Nat := (List.range 8).foldl (fun x _ => fcsBit x) (c ^^^ b.toNat)
def frameFcs (bs : List Byte) : List Byte := toBytes 4 ((bs.foldl fcsByte 0xFFFFFFFF) ^^^ 0xFFFFFFFF)

/-- Entries of a ring (R574): values 9-15 of size_log2 are taken as 8. -/
def ringLen (sz : Nat) : Nat := 2 ^ (min 8 sz + 4)

/-- The state of a port, 0 and 1 service, 2 management (R573, R574): 2 is UP. -/
def State.macState (s : State) (p : Nat) : Nat :=
  if p < 2 then s.rd (.SPORT_STAT p) F.SPORT_STAT.state else s.rd .MGMT_STAT F.MGMT_STAT.state

/-- FRAME_TO_SOFTWARE (R559, R561): a frame addressed to a port that is neither a Zelier nor a load frame; `fcs` tells of a bad
FCS, `poison` of poison. -/
def execFrameToSoftware (p : Nat) (frame : List Byte) (fcs poison : Bool) (s : State) : Res :=
  if 3 ≤ p ∨ s.macState p ≠ 2 ∨ 9216 < frame.length then .next s
  else
    let s := if fcs && decide (p < 2) then s.bump (.SPORT_ERR p) F.SPORT_ERR.fcs 1 else s
    if p < 2 ∧ !s.on (.SPORT_CTL p) F.SPORT_CTL.to_sw then .next s
    else
      let k := p / 2
      let q := Reg.NET_RX k
      let n := ringLen (s.rd q F.NET_RX.size_log2)
      let tail := s.rd q F.NET_RX.tail % n
      if (tail + 1) % n = s.rd q F.NET_RX.head % n then
        .next (if p < 2 then s.bump (.SPORT_ERR p) F.SPORT_ERR.sw_drop 1 else s)
      else
        let e := s.rd q F.NET_RX.addr * 64 + tail * 16
        let buf := s.hbm.readNat e 8
        let s := s.hbmWrite buf frame poison
        let s := s.hbmWrite (e + 8) (toBytes 2 frame.length ++ toBytes 1 p ++ toBytes 1 (1 + 2 * b2n (fcs || poison))) false
        let s := s.wr q F.NET_RX.tail ((tail + 1) % n)
        .next (s.raise ⟨8 + k, 0x1B2, 0xFFFF, 0xFFFF, [k, (tail + 1) % n]⟩)

/-- NET_TX_SEND (R561): the entry at head is sent with its FCS, done set and head advanced. -/
def execNetTxSend (k : Nat) (s : State) : Res :=
  let q := Reg.NET_TX k
  let n := ringLen (s.rd q F.NET_TX.size_log2)
  let head := s.rd q F.NET_TX.head % n
  if 2 ≤ k ∨ head = s.rd q F.NET_TX.tail % n then .next s
  else
    let e := s.rd q F.NET_TX.addr * 64 + head * 16
    let p := s.hbm.readNat (e + 10) 1
    let r := s.hbmRead (s.hbm.readNat e 8) (s.hbm.readNat (e + 8) 2)
    if p / 2 = k ∧ p < 3 ∧ s.macState p ≠ 2 then .next s
    else
      let own := decide (p / 2 = k) && decide (p < 3)
      let s := if own && !r.2 then s.emit (.frame p (r.1 ++ frameFcs r.1)) else s
      let s := if own && r.2 then s.poisonSeen 4 0 (s.hbm.readNat e 8) else s
      let s := s.hbmWrite (e + 11) (toBytes 1 (1 + 2 * b2n (own && r.2))) false
      .next (s.wr q F.NET_TX.head ((head + 1) % n))

-- Ports

/-- SPORT_ENABLE (R558, R573): a write of SPORT_CTL_q; a port enabled trains, and is UP when all 4 lanes do; `lanes` are those that
trained. -/
def execSportEnable (q value lanes : Nat) (s : State) : Res :=
  if 2 ≤ q then .next s
  else
    let r := Reg.SPORT_CTL q
    let x := Reg.SPORT_STAT q
    let was := s.on r F.SPORT_CTL.enable
    let on := bitAt value 0
    let s := ((s.wr r F.SPORT_CTL.to_sw (bits value 3 3)).wr r F.SPORT_CTL.an_en (bits value 2 2)).wr r F.SPORT_CTL.enable (bits value 0 0)
    let put := fun (s : State) (st l : Nat) =>
      ((s.wr x F.SPORT_STAT.state st).wr x F.SPORT_STAT.lanes_ok l).raise ⟨8, 0x1B0, 0xFFFF, 0xFFFF, [q, st, s.rd x F.SPORT_STAT.hub]⟩
    if on && !(was && decide (s.rd x F.SPORT_STAT.state = 2)) then .next (put s (if lanes % 16 = 15 then 2 else 3) (lanes % 16))
    else if !on && was then .next (put s 0 0)
    else .next s

/-- MGMT_PORT_ENABLE (R560, R574): a write of MGMT_CTL; the port trains on the hub it names, or on the other when that one is
fenced; `ok` tells how training ends. -/
def execMgmtPortEnable (value : Nat) (ok : Bool) (s : State) : Res :=
  let r := Reg.MGMT_CTL
  let x := Reg.MGMT_STAT
  let was := s.on r F.MGMT_CTL.enable
  let on := bitAt value 0
  let h := bits value 4 4
  let act := if s.hubFenced h then 1 - h else h
  let moved := decide (act ≠ s.rd x F.MGMT_STAT.hub_active)
  let s := ((s.wr r F.MGMT_CTL.hub h).wr r F.MGMT_CTL.an_en (bits value 1 1)).wr r F.MGMT_CTL.enable (bits value 0 0)
  let s := if bits value 3 2 = 3 then s else s.wr r F.MGMT_CTL.fec (bits value 3 2)
  let s := s.wr x F.MGMT_STAT.hub_active act
  let put := fun (s : State) (st : Nat) => (s.wr x F.MGMT_STAT.state st).raise ⟨9, 0x1B1, 0xFFFF, 0xFFFF, [st, act]⟩
  if on && !(was && !moved && s.mgmtUp) then .next (put s (if ok then 2 else 3))
  else if !on && was then .next (put s 0)
  else .next s

/-- PCIE_ENABLE (R569, R575): a write of PCIE_CTL_h; the root port trains once enabled with PERST released, to `speed` and
2^`width` lanes, or not at all. -/
def execPcieEnable (h value speed width : Nat) (s : State) : Res :=
  if 2 ≤ h then .next s
  else
    let r := Reg.PCIE_CTL h
    let x := Reg.PCIE_STAT h
    let gen := bits value 7 4
    let top := if 1 ≤ gen ∧ gen ≤ 6 then gen else 6
    let s := ((s.wr r F.PCIE_CTL.max_speed gen).wr r F.PCIE_CTL.perst (bits value 1 1)).wr r F.PCIE_CTL.enable (bits value 0 0)
    let was := s.on x F.PCIE_STAT.up
    let go := bitAt value 0 && !bitAt value 1 && !s.hubFenced h
    let put := fun (s : State) (sp w up : Nat) =>
      (((s.wr x F.PCIE_STAT.speed sp).wr x F.PCIE_STAT.width w).wr x F.PCIE_STAT.up up).raise ⟨0xA + h, 0x1B3, h, 0xFFFF, [sp, w, up]⟩
    if go && !was && decide (speed ≠ 0) then .next (put s (min speed top) (min width 4) 1)
    else if !go && was then .next (put s 0 0 0)
    else .next s

-- PCIe

/-- A range of HBM written by sectors, as the controllers take it (R299, R451, R454). -/
def State.bytesWrite (s : State) (a : Nat) (bs : List Byte) (poison : Bool) : State :=
  (List.range ((a + bs.length + 63) / 64 - a / 64)).foldl (fun s i =>
    let lo := max a ((a / 64 + i) * 64)
    let hi := min (a + bs.length) ((a / 64 + i + 1) * 64)
    (s.sectorWrite lo ((bs.drop (lo - a)).take (hi - lo)) poison).1) s

/-- PCIE_INBOUND (R562): a device's write (`data`, with its EP bit) or read of `n` bytes. -/
def execPcieInbound (h addr n : Nat) (data : Option (List Byte)) (ep : Bool) (s : State) : Res :=
  if 2 ≤ h ∨ !s.on (.PCIE_STAT h) F.PCIE_STAT.up then .next s
  else
    let size := s.rd (.PCIE_WINSZ h) F.PCIE_WINSZ.mib * 2 ^ 20
    let base := s.rd (.PCIE_WIN h) F.PCIE_WIN.base * 2 ^ 20
    let len := match data with | some b => b.length | none => n
    let inside := decide (addr + len ≤ size) && decide (base + addr + len ≤ 2 ^ 40)
    let msi := decide (0xFEE00000 ≤ addr) && decide (addr ≤ 0xFEE00FFF) && data.isSome
    if msi then .next (s.raise ⟨0xA + h, 0x1B4, h, 0xFFFF, [addr, ofBytes ((data.getD []).take 4)]⟩)
    else if !inside then .next ((s.bump (.PCIE_STAT h) F.PCIE_STAT.ur 1).emit (.pcieCpl h [] false true))
    else match data with
      | some b => .next (s.bytesWrite (base + addr) b ep)
      | none =>
        let a := base + addr
        let r := s.sectorsRead 5 0 (a / 64 * 64) ((a + n + 63) / 64 - a / 64)
        let bytes := ((r.2.flatMap Prod.fst).drop (a % 64)).take n
        .next (r.1.emit (.pcieCpl h bytes (r.2.any Prod.snd) false))

/-- PCIE_OB_ACCESS (R563): a read or a write of PCIE_OB_DATA_h; `answer` is what the device returns, none for an error or a
time-out. -/
def execPcieObAccess (h : Nat) (write : Option Nat) (answer : Option Nat) (s : State) : Res :=
  if 2 ≤ h then .next s
  else
    let cfg := s.on (.PCIE_OB_CTL h) F.PCIE_OB_CTL.cfg
    let up := s.on (.PCIE_STAT h) F.PCIE_STAT.up
    let w := if cfg then 2 ^ 32 else 2 ^ 64
    let s := if up then s.emit (.pcieOb h write.isSome cfg (s.reg (.PCIE_OB_ADDR h)) (write.getD 0 % w)) else s
    let ans := if up then answer else none
    let s := if ans.isNone then s.wr (.PCIE_OB_CTL h) F.PCIE_OB_CTL.err 1 else s
    .next (if write.isSome then s else s.emit (.read (match ans with | some v => v % w | none => 2 ^ 64 - 1) false))

-- The TAP

/-- The IDCODE (R565). -/
def idcode (v : Variant) : Nat := match v with | .zlp440 => 0x10440B47 | .zlp240 => 0x10240B47

/-- An instruction of the TAP takes effect; EXTEST, CLAMP and HIGHZ act as BYPASS while PKG_READY is asserted (R565). -/
def State.tapIr (s : State) (ir : Nat) : State :=
  let ir := if (ir = 0 ∨ ir = 4 ∨ ir = 5) ∧ s.power.ready = true then 0xFF else ir
  { s with tap := { s.tap with ir := ir } }

/-- The number that a boundary register shifts out, first bit lowest. -/
def scanOut (l : List Bool) : Nat := ofBits l
where ofBits : List Bool → Nat
  | [] => 0
  | b :: t => b2n b + 2 * ofBits t

/-- TAP_BYPASS (R565). -/
def execTapBypass (s : State) : Res := .next ((s.tapIr 0xFF).emit (.tap 1 0))
/-- TAP_IDCODE (R565). -/
def execTapIdcode (s : State) : Res := .next ((s.tapIr 0x02).emit (.tap 32 (idcode s.variant)))
/-- TAP_SAMPLE_PRELOAD (R565): the pins are captured and shifted out while the boundary register is loaded. -/
def execTapSamplePreload (pins load : List Bool) (s : State) : Res :=
  let s := s.tapIr 0x01
  .next (({ s with tap := { s.tap with boundary := load } }).emit (.tap pins.length (scanOut pins)))
/-- TAP_EXTEST (R565): the boundary register drives the pins; what they carry is captured. -/
def execTapExtest (pins load : List Bool) (s : State) : Res :=
  let s := s.tapIr 0x00
  .next (if s.tap.ir = 0xFF then s.emit (.tap 1 0)
    else ({ s with tap := { s.tap with boundary := load } }).emit (.tap pins.length (scanOut pins)))
/-- TAP_CLAMP (R565): the boundary register holds the pins, BYPASS is scanned. -/
def execTapClamp (s : State) : Res := .next ((s.tapIr 0x04).emit (.tap 1 0))
/-- TAP_HIGHZ (R565). -/
def execTapHighz (s : State) : Res := .next ((s.tapIr 0x05).emit (.tap 1 0))
/-- TAP_RESET (R565): after it the instruction is IDCODE, as IEEE 1149.1 lays down. -/
def execTapReset (s : State) : Res := .next { s with tap := Tap.reset }

-- The loupe

/-- LOUPE_TRIG_IN (R566). -/
def execLoupeTrigIn (s : State) : Res :=
  .next (if s.on .LOUPE_CTL F.LOUPE_CTL.trig_mode then s.setCtl { s.ctl with loupe := true } else s)

/-- LOUPE_SAMPLE (R566): a record of the selected facet. -/
def execLoupeSample (s : State) : Res :=
  let pf := s.rd .LOUPE_CTL F.LOUPE_CTL.pf
  if !s.on .LOUPE_CTL F.LOUPE_CTL.samples ∨ 816 ≤ pf then .next s
  else .next (s.loupeSend 2 (toBytes 2 pf ++ toBytes 2 (s.lfField pf) ++ toBytes 2 (s.facet pf).core.pc ++ toBytes 1 (s.facState pf) ++ toBytes 1 0
    ++ toBytes 8 (s.cycles pf) ++ toBytes 8 s.sysClock ++ toBytes 8 (s.reg (.FAC_STALL pf))))

-- Losses

/-- HUB_LINK_LOSS (R451, R18, R19): the hub that is fenced. -/
def execHubLinkLoss (h : Nat) (s : State) : Res := .next (if h < 2 then (if s.hubFenced h then s else s.fenceHub h) else s)

/-- D2D_LANE_FAILURE (R451): a lane repaired and fenced, or a whole link group lost with its die. -/
def execD2dLaneFailure (die hub lane : Nat) (group : Bool) (s : State) : Res :=
  if 4 ≤ die ∨ 2 ≤ hub ∨ 2 ^ 24 ≤ lane then .next s
  else
    let d := unitDesc 0x0A die hub lane
    let s := if s.isFenced d then s else s.fenceD2d d 0x13
    .next (if group && !s.dieFenced die then s.fenceDie die else s)

/-- HBM_CHANNEL_RETRAIN_FAIL (R451, R452). -/
def execHbmChannelRetrainFail (k c : Nat) (s : State) : Res :=
  if 8 ≤ k ∨ 16 ≤ c ∨ s.isFenced (unitDesc 0x0B k c 0) then .next s else .next (s.fenceChannel k c)

end Sys2Proof.Machine
end

