-- ==== Sys2Proof/Machine/RegWrite.lean ====
section
/-! DEFINITION. REGISTER_WRITE: a core's 8-byte write of an address (R15, R16, R416-R418) and the registers that stand there. -/

namespace Sys2Proof.Machine

/-- The number of a register in a row of `n` registers from `base`, `stride` apart. -/
def idx (o base stride n : Nat) : Option Nat :=
  if base ≤ o ∧ (o - base) % stride = 0 ∧ (o - base) / stride < n then some ((o - base) / stride) else none

/-- A register of its own at an offset. -/
def one (o base : Nat) (r : Reg) : Option Reg := if o = base then some r else none

/-- The registers of a physical facet (R418); converter and calibration registers are those of the array that the window shows. -/
def State.facetReg (s : State) (pf o : Nat) : Option Reg :=
  let a := s.winArr pf
  ([(idx o 0x0000 8 128).map (Reg.ARR_MAP pf), (idx o 0x0800 8 132).map (Reg.ARR_STAT pf), one o 0x1000 (.ARR_CTL pf),
    (idx o 0x1008 8 5).map (Reg.ARR_APCNT pf), one o 0x1040 (.ARR_WIN_SEL pf), (idx o 0x2000 8 256).map (Reg.CONV_MAP pf a),
    (idx o 0x2800 8 264).map (Reg.CONV_STAT pf a), one o 0x4008 (.CHK_WIN_SEL pf), one o 0x4010 (.SP_STAT pf), one o 0x4018 (.SP_ERR pf),
    (idx o 0x4400 8 132).map (Reg.SP_ARR pf), (idx o 0x4C00 8 128).map (Reg.GOLD_BASE pf), (idx o 0x6000 8 264).map (Reg.CONV_CAL pf a),
    (idx o 0x7000 8 264).map (Reg.CONV_SETLO pf a), (idx o 0x8000 8 264).map (Reg.CONV_SETHI pf a), (idx o 0xB000 8 132).map (Reg.ARR_CAL pf),
    (idx o 0xB800 8 132).map (Reg.ARR_CAL_TIME pf), (idx o 0xC000 8 132).map (Reg.ARR_MARGIN pf), (idx o 0xC800 8 132).map (Reg.ARR_WEAR pf)]
  ++ [one o 0xD000 (.FAC_CTL pf), one o 0xD008 (.FAC_STAT pf), one o 0xD010 (.FAC_EXC pf), one o 0xD018 (.FAC_BIND pf),
    one o 0xD020 (.FAC_LOAD_SRC pf), one o 0xD028 (.FAC_LOAD_CTL pf), one o 0xD030 (.FAC_STALL pf), one o 0xD038 (.FAC_ERR pf),
    one o 0xD040 (.FAC_EPOCH pf), one o 0xE000 (.ACC16_CTL pf), one o 0xE008 (.TEN_STAT pf), one o 0xE010 (.TEN_SHADOW pf),
    one o 0xE018 (.TEN_SIG_CTL pf), one o 0xE100 (.ATT_STAT pf), one o 0xE200 (.PRISM_STAT pf), one o 0xE208 (.PRISM_ERR pf),
    one o 0xE210 (.PRISM_LAST pf), (idx o 0xE220 8 4).map (Reg.PRISM_TBL_VALID pf), one o 0xF800 (.FMT_STAT pf)]).findSome? id

/-- The registers of a region (R418). -/
def regionReg (g o : Nat) : Option Reg :=
  [one o 0x000 (.REGION_CLK g), one o 0x008 (.REGION_ARB_POP g), one o 0x010 (.CAL_REGION_CTL g), one o 0x018 (.CAL_REGION_STAT g),
   one o 0x020 (.CAL_REGION_TLAST g), one o 0x028 (.REF_REGION_CTL g), one o 0x030 (.REGION_THERM g), one o 0x040 (.MR_CTL g),
   one o 0x048 (.MR_STAT g), one o 0x050 (.MR_BUF g), one o 0x058 (.MR_CONF g)].findSome? id

/-- The registers of a memory stack's controller (R311, R336). -/
def stackReg (st o : Nat) : Option Reg :=
  [(idx o 0x8000 8 1024).map (fun i => Reg.KV_CODE st (i / 16) (i % 16)), (idx o 0xA000 16 8).map (Reg.PRISM_RANGE_BASE st),
   (idx o 0xA008 16 8).map (Reg.PRISM_RANGE_SLOTS st), one o 0xA080 (.PRISM_RANGE_STAT st)].findSome? id

/-- The registers of hub globals and event controller (R431-R433, R443-R446, R576). -/
def globalReg (o : Nat) : Option Reg :=
  [one o 0x8 .PKG_VARIANT, one o 0x10 .FW_STAT, one o 0x18 .FW_UPDATE, (idx o 0x100 8 16).map Reg.CORE_MAP, (idx o 0x200 8 20).map Reg.CORE_STAT,
   one o 0x300 .CORE_HANDOVER, one o 0x400 .LOUPE_CTL, one o 0x408 .TIME_IN_STAMP, (idx o 0x100000 8 4096).map Reg.EV_SRC,
   (idx o 0x108000 8 1024).map (fun i => Reg.EV_PRIV (i / 64) (i % 64)), (idx o 0x10A000 0x40 16).map Reg.EV_MODE,
   (idx o 0x10A008 0x40 16).map Reg.EV_CLAIM, (idx o 0x10A010 0x40 16).map Reg.EV_CLAIMF, (idx o 0x10A018 0x40 16).map Reg.EV_COMPLETE,
   (idx o 0x10A020 0x40 16).map Reg.EV_RING, (idx o 0x10A028 0x40 16).map Reg.EV_STAT, one o 0x10B000 .EV_RAISE].findSome? id

/-- The registers of the request table engine, the pools, the norm watch, the sampler and the loader. -/
def serveReg (o : Nat) : Option Reg :=
  ([one o 0x200000 .RT_CTL, one o 0x200008 .RT_STAT, one o 0x200010 .RT_AREA, one o 0x300000 .SMP_STAT,
    (idx o 0x201000 0x40 64).map Reg.SVC_CFG, (idx o 0x201008 0x40 64).map Reg.SVC_DL, (idx o 0x201010 0x40 64).map Reg.SVC_LEN,
    (idx o 0x201018 0x40 64).map Reg.SVC_COST, (idx o 0x201020 0x40 64).map Reg.SVC_TOKS, (idx o 0x201028 0x40 64).map Reg.SVC_MISS,
    (idx o 0x201030 0x40 64).map Reg.SVC_CTL, (idx o 0x201038 0x40 64).map Reg.SVC_STAT, (idx o 0x202000 8 64).map Reg.SVCQ,
    (idx o 0x204000 16 1024).map Reg.BUD_CFG, (idx o 0x204008 16 1024).map Reg.BUD_STAT]
  ++ [(idx o 0x20E000 0x20 64).map Reg.KV_POOL_BASE, (idx o 0x20E008 0x20 64).map Reg.KV_POOL_DESC, (idx o 0x20E010 0x20 64).map Reg.KV_POOL_CFG,
    (idx o 0x20E018 0x20 64).map Reg.KV_POOL_STAT, one o 0x20E800 .PFX_STAT, (idx o 0x20E900 8 64).map Reg.KV_POOL_STRIDE,
    (idx o 0x20F000 8 64).map Reg.NW_CTL, (idx o 0x20F200 8 64).map Reg.NW_STAT, one o 0x400000 .LD_CTL, one o 0x400008 .LD_RING,
    one o 0x400010 .LD_STAT, (idx o 0x401000 0x18 64).map Reg.EP_CTL, (idx o 0x401008 0x18 64).map Reg.EP_COST,
    (idx o 0x401010 0x18 64).map Reg.EP_STAT, (idx o 0x402000 8 768).map Reg.LF_MAP]).findSome? id

/-- The registers of thermal control, power, security and faults. -/
def careReg (o : Nat) : Option Reg :=
  ([one o 0x500000 .THERM_CTL, one o 0x500008 .PLANT_MODEL, one o 0x500010 .PLANT_CTL, one o 0x500018 .PLANT_IO, one o 0x500020 .PLANT_STAT,
    one o 0x500028 .PLANT_ERR, (idx o 0x500100 8 12).map Reg.THERM_PKG, one o 0x600000 .PWR_CTL, one o 0x600008 .PWR_STAT, one o 0x600010 .PWR_SEQ,
    (idx o 0x600100 8 12).map Reg.PWR_RAIL, one o 0x700000 .SEC_STAT, one o 0x700008 .SEC_CMD, one o 0x700010 .SEC_CMD_SRC,
    one o 0x700018 .SEC_CMD_DST, one o 0x700020 .SEC_ATT_MASK, (idx o 0x700040 8 8).map Reg.SEC_NONCE, one o 0x700100 .SEC_KEY_SEL]
  ++ [(idx o 0x700108 8 4).map Reg.SEC_KEY_DATA, (idx o 0x700200 8 13).map Reg.SEC_ALARM, one o 0x800008 .FLT_STAT, one o 0x800010 .FLT_INJ_SEL,
    one o 0x800018 .FLT_INJ_CTL, one o 0x800020 .FLT_CPER_RING, one o 0x800028 .FLT_EXPORT, (idx o 0x800030 8 2).map Reg.FLT_EXPORT_IP,
    one o 0x800040 .VAULT_STAT]).findSome? id

/-- The registers of the ports. -/
def portReg (o : Nat) : Option Reg :=
  ([one o 0x900000 .LINK_CFG, one o 0x900008 .SYS_TIME, one o 0x900010 .TIME_STAT, (idx o 0x901000 0x40 12).map Reg.LINK_PORT_CTL,
    (idx o 0x901008 0x40 12).map Reg.LINK_PORT_STAT, (idx o 0x901010 0x40 12).map Reg.LINK_PORT_ERR, (idx o 0x901018 0x40 12).map Reg.LINK_PORT_DELAY,
    (idx o 0x902000 8 256).map Reg.LINK_ROUTE, one o 0x903000 .BAR_CTL, one o 0x903008 .BAR_STAT, one o 0x903010 .BAR_T, one o 0x903018 .BAR_SVC,
    (idx o 0xA00000 0x40 2).map Reg.SPORT_CTL, (idx o 0xA00008 0x40 2).map Reg.SPORT_STAT, (idx o 0xA00010 0x40 2).map Reg.SPORT_ERR,
    (idx o 0xA00018 0x40 2).map Reg.SPORT_MAC, (idx o 0xA00020 0x40 2).map Reg.SPORT_GW, (idx o 0xA00028 0x40 2).map Reg.SPORT_IP4]
  ++ [(idx o 0xA00030 0x40 2).map (fun q => Reg.SPORT_IP6 q 0), (idx o 0xA00038 0x40 2).map (fun q => Reg.SPORT_IP6 q 1),
    one o 0xB00000 .MGMT_CTL, one o 0xB00008 .MGMT_STAT, one o 0xB00010 .MGMT_MAC, (idx o 0xB00100 0x20 2).map Reg.NET_RX,
    (idx o 0xB00108 0x20 2).map Reg.NET_TX, (idx o 0xC00000 0x100 2).map Reg.PCIE_CTL, (idx o 0xC00008 0x100 2).map Reg.PCIE_STAT,
    (idx o 0xC00010 0x100 2).map Reg.PCIE_WIN, (idx o 0xC00018 0x100 2).map Reg.PCIE_WINSZ, (idx o 0xC00020 0x100 2).map Reg.PCIE_OB_ADDR,
    (idx o 0xC00028 0x100 2).map Reg.PCIE_OB_CTL, (idx o 0xC00030 0x100 2).map Reg.PCIE_OB_DATA]).findSome? id

/-- The register at an offset of register space (R418). -/
def State.regAt (s : State) (o : Nat) : Option Reg :=
  if 0x20000000 ≤ o then (if o < 0x20000000 + 48 * 0x1000 then regionReg ((o - 0x20000000) / 0x1000) (o % 0x1000) else none)
  else if 0x10000000 ≤ o then (if o < 0x10000000 + 816 * 0x10000 then s.facetReg ((o - 0x10000000) / 0x10000) (o % 0x10000) else none)
  else if 0xD00000 ≤ o then (if o < 0xD80000 then stackReg ((o - 0xD00000) / 0x10000) (o % 0x10000) else none)
  else if o < 0x200000 then globalReg o
  else if o < 0x500000 then serveReg o
  else if o < 0x900000 then careReg o
  else portReg o

/-- A field of a value written, by its access code (R15): RO keeps it, W1C clears where 1 is written, W1S sets there. -/
def storeField (old value : Nat) (row : FieldRow) : Nat :=
  let f := row.fld
  let v := bits value f.hi f.lo
  let o := bits old f.hi f.lo
  setBits old f.hi f.lo (match row.acc with
    | .ro => o
    | .rw | .rws | .wo => v
    | .w1c => o - (o &&& v)
    | .w1s => o ||| v)

/-- A value stored into the writable fields of a register, but those in `but` (R15, R16). -/
def State.store (s : State) (r : Reg) (value : Nat) (but : List String := []) : State :=
  s.setReg r ((r.fields s.variant).foldl (fun old row => if but.contains row.name then old else storeField old value row) (s.reg r))

/-- The ports of a path's rings are disabled (R574). -/
def State.pathOff (s : State) (k : Nat) : Bool :=
  if k = 0 then !s.on (.SPORT_CTL 0) F.SPORT_CTL.enable && !s.on (.SPORT_CTL 1) F.SPORT_CTL.enable else !s.on .MGMT_CTL F.MGMT_CTL.enable

/-- A configuration register of a service (R386). -/
def State.svcStore (s : State) (sv : Nat) (r : Reg) (value : Nat) : State :=
  if s.on (.SVC_CTL sv) F.SVC_CTL.enable then s.bump .RT_STAT F.RT_STAT.sw_reject 1 else s.store r value

/-- A register without a behaviour of its own stores the writable fields, where its block accepts a write. -/
def State.plainWrite (s : State) (r : Reg) (value : Nat) : State :=
  match r with
  | .SVC_CFG sv => s.svcStore sv r value
  | .SVC_DL sv => s.svcStore sv r value
  | .SVC_LEN sv => s.svcStore sv r value
  | .SVC_COST sv => s.svcStore sv r value
  | .SVC_TOKS sv => s.svcStore sv r value
  | .KV_POOL_BASE sv => if s.poolOn sv then s.wr (.KV_POOL_STAT sv) F.KV_POOL_STAT.cfg_err 1 else s.store r value
  | .KV_POOL_DESC sv => if s.poolOn sv then s.wr (.KV_POOL_STAT sv) F.KV_POOL_STAT.cfg_err 1 else s.store r value
  | .KV_CODE _ sv _ => if s.poolOn sv then s else s.store r value
  | .PRISM_RANGE_SLOTS st k =>
    if s.on (.PRISM_RANGE_BASE st k) F.PRISM_RANGE_BASE.enable then s.wr (.PRISM_RANGE_STAT st) F.PRISM_RANGE_STAT.cfg_err 1 else s.store r value
  | .LD_RING => s.store r value (if s.on .LD_CTL F.LD_CTL.enable then ["size_log2"] else [])
  | .NET_RX k => s.store r value (if s.pathOff k then [] else ["size_log2", "addr"])
  | .NET_TX k => s.store r value (if s.pathOff k then [] else ["size_log2", "addr"])
  | .PCIE_WIN h => if s.on (.PCIE_CTL h) F.PCIE_CTL.enable then s else s.store r value
  | .PCIE_WINSZ h => if s.on (.PCIE_CTL h) F.PCIE_CTL.enable then s else s.store r value
  | .GOLD_BASE _ n => if s.variant.logicals ≤ n then s else s.store r value
  | .ARR_STAT _ n => if s.variant.arrays ≤ n then s else s.store r value
  | .SP_ARR _ n => if s.variant.arrays ≤ n then s else s.store r value
  | .PLANT_IO =>
    let s := s.store r value
    if s.on .THERM_CTL F.THERM_CTL.plant_en || s.plant.lost || s.plant.low then s else s.manualDuty
  | .EV_PRIV c _ => (s.store r value).settleIrq c
  | .LOUPE_CTL =>
    let s := s.store r value
    if s.on r F.LOUPE_CTL.enable && s.on r F.LOUPE_CTL.trig_mode then s else s.setCtl { s.ctl with loupe := false }
  | _ => s.store r value

/-- One effect after another. -/
def Res.andThen (r : Res) (f : State → Res) : Res :=
  match r with
  | .next t => f t
  | x => x

/-- A write of KV_POOL_CFG_s (R307). -/
def State.poolCfgWrite (s : State) (sv value : Nat) : Res :=
  let r := Reg.KV_POOL_CFG sv
  let locked := ["pages", "pg_units", "pt_log2", "enable"]
  if s.poolOn sv then
    let same := decide (bits value 63 32 = s.rd r F.KV_POOL_CFG.pages) && decide (bits value 31 12 = s.rd r F.KV_POOL_CFG.pg_units)
      && decide (bits value 11 8 = s.rd r F.KV_POOL_CFG.pt_log2)
    let s := if same then s else s.wr (.KV_POOL_STAT sv) F.KV_POOL_STAT.cfg_err 1
    let s := s.store r value locked
    if bitAt value 0 then .next s else execKvPoolDisable sv s
  else
    let s := s.store r value ["enable"]
    if bitAt value 0 then execKvPoolEnable sv s else .next s

/-- A write of SVC_CTL_s (R370, R373, R381, R386). -/
def State.svcCtlWrite (s : State) (sv value : Nat) : Res :=
  let r := Reg.SVC_CTL sv
  let s := s.wr r F.SVC_CTL.stop (bits value 1 1)
  let a := if bitAt value 0 then execServiceEnable sv s else execServiceDisable sv s
  a.andThen (fun s => if bitAt value 2 then execSvcReadmit sv s else .next s)

/-- A write of FAC_CTL (R199, R200). -/
def State.facCtlWrite (s : State) (pf value : Nat) : Res :=
  let s := s.store (.FAC_CTL pf) value ["stop", "run", "reset"]
  if bitAt value 0 then execFacReset pf s
  else
    let a := if bitAt value 1 then execFacRun pf s else .next s
    a.andThen (fun s => if bitAt value 2 then execFacStop pf s else .next s)

/-- A write of SEC_KEY_SEL (R518, R526). -/
def State.keySelWrite (s : State) (value : Nat) : State :=
  let r := Reg.SEC_KEY_SEL
  let s := if bitAt value 61 then s.wr r F.SEC_KEY_SEL.refused 0 else s
  let slot := bits value 12 0
  if bitAt value 63 then s.keyWrite slot true
  else if bitAt value 62 then s.keyWrite slot false
  else (s.wr r F.SEC_KEY_SEL.slot slot).showValid

/-- An outcome that the block's surroundings decide when a port is enabled by a plain write: free (log entry 60). -/
def State.freeOutcome (s : State) : State × Nat := ({ s with free := s.free + 1 }, Config.freeValue 60 s.free)

/-- A register written: one with a behaviour of its own has it. -/
def State.regWrite (s : State) (r : Reg) (value : Nat) : Res :=
  match r with
  | .FW_UPDATE => execFwUpdate value s
  | .CORE_HANDOVER => execCoreHandover value s
  | .REGION_CLK g => execRegionClkWrite g value s
  | .ARR_MAP pf n => execArrMapWrite pf n value s
  | .ARR_CTL pf => execApCeilingWrite pf value s
  | .ARR_WIN_SEL pf => execArrWinSelWrite pf value s
  | .CONV_MAP pf _ n => execConvMapWrite pf n value s
  | .CONV_STAT pf _ n =>
    let s := s.store r value ["fence"]
    if bitAt value 3 then execConvFenceWrite pf n s else .next s
  | .CHK_WIN_SEL pf => execChkWinSelWrite pf value s
  | .FAC_CTL pf => s.facCtlWrite pf value
  | .FAC_BIND pf => execFacBindWrite pf value s
  | .FAC_LOAD_CTL pf => if bitAt value 0 then execFacLoadGo pf s else .next s
  | .FAC_EPOCH pf => execFacEpochWrite pf value s
  | .ACC16_CTL pf => execAcc16CtlWrite pf value s
  | .TEN_SHADOW pf => execTenShadowWrite pf value s
  | .TEN_SIG_CTL pf => if bitAt value 0 then execSigWindowRelease pf s else .next s
  | .SVC_CTL sv => s.svcCtlWrite sv value
  | .BUD_CFG c => execBudCfgWrite c value s
  | .KV_POOL_CFG sv => s.poolCfgWrite sv value
  | .KV_POOL_STRIDE sv => execKvPoolStrideWrite sv value s
  | .NW_CTL sv =>
    let s := s.store r value ["clear"]
    if bitAt value 2 then execNwClear sv s else .next s
  | .PRISM_RANGE_BASE st k => execPrismRangeEnable st k value s
  | .EP_CTL sv =>
    let s := s.store r value ["switch"]
    if bitAt value 0 then execEpochSwitch sv s else .next s
  | .LF_MAP n => execLfMapWrite n value s
  | .EV_SRC n => execEvSrcWrite n value s
  | .EV_COMPLETE c => execEvComplete c (bits value 12 0) s
  | .EV_RAISE => execEvRaiseWrite value s
  | .FLT_INJ_CTL => execFltInjArm value s
  | .FLT_EXPORT => execCperResend value s
  | .LINK_CFG => execLinkCfgWrite value s
  | .LINK_PORT_CTL p => execLinkPortEnable p value s
  | .BAR_CTL => execBarArm value s
  | .SEC_CMD => .next (if bitAt value 63 then s.secCmdWrite (bits value 7 0) else s.wr r F.SEC_CMD.op (bits value 7 0))
  | .SEC_KEY_SEL => .next (s.keySelWrite value)
  | .SEC_ALARM n => execSecAlarmClassWrite n value s
  | .THERM_CTL => execPlantEnWrite value s
  | .SPORT_CTL q =>
    let f := s.freeOutcome
    execSportEnable q value (f.2 % 16) f.1
  | .MGMT_CTL =>
    let f := s.freeOutcome
    execMgmtPortEnable value (decide (f.2 % 2 = 1)) f.1
  | .PCIE_CTL h =>
    let f := s.freeOutcome
    execPcieEnable h value (f.2 % 8) (f.2 / 8 % 8) f.1
  | .PCIE_OB_DATA h =>
    let f := s.freeOutcome
    execPcieObAccess h (some value) (if f.2 % 2 = 1 then some 0 else none) f.1
  | _ => .next (s.plainWrite r value)

/-- A core's write of 8 bytes to hub SRAM (R355, R420): into the request table it is refused, the channel table takes only whole
entries (CHANNEL_ENABLE). -/
def State.hubStore (s : State) (o value : Nat) : State :=
  if o < 0x80000 ∨ (0x2000000 ≤ o ∧ o < 0x2080000) then s.swReject
  else if o < 0xC0000 then s
  else
    let h := s.hub.writeNat o 8 value
    { s with hub := if o % 8 = 0 then h.setPoison (o / 8) false else h }

/-- REGISTER_WRITE (R15-R17, R416-R418): a write of 8 bytes at an address of the package's map; an unmapped one faults. -/
def execRegisterWrite (addr value : Nat) (s : State) : Res :=
  let value := value % 2 ^ 64
  let a := addr
  if a + 8 ≤ 2 ^ 40 then .next (s.bytesWrite a (toBytes 8 value) false)
  else if 0x400000000000 ≤ a ∧ a + 8 ≤ 0x400180000000 then execWindowWrite a (toBytes 8 value) false s
  else if 0x600000000000 ≤ a ∧ a + 8 ≤ 0x600004000000 then .next (s.hubStore (a - 0x600000000000) value)
  else if 0x700000000000 ≤ a ∧ a < 0x700100000000 then
    let o := a - 0x700000000000
    if o = 0x308 then execCoreStart value s
    else if o = 0x800000 then execFltFenceWrite value s
    else if 0x10000000 ≤ o ∧ o < 0x10000000 + 816 * 0x10000 ∧ 0x5000 ≤ o % 0x10000 ∧ o % 0x10000 < 0x5C00 then
      execCheckWindowWrite ((o - 0x10000000) / 0x10000) ((o % 0x10000 - 0x5000) / 8) value s
    else match s.regAt o with
      | some r => s.regWrite r value
      | none => .next s
  else .fault (.unmapped addr)

end Sys2Proof.Machine
end

