-- ==== Sys2Proof/Machine/Dispatch.lean ====
section
/-! DEFINITION. One arm per command: its meaning. -/

namespace Sys2Proof.Machine

/-- A command's effect on everything but the queue. -/
def exec (i : Instr) (s : State) : Host.Outcome State Fault Refusal :=
  match i with
  | .registerWrite addr value => Sys2Proof.Machine.execRegisterWrite addr value s
  | .submit f pick => Sys2Proof.Machine.execSubmit f pick s
  | .cancel f => Sys2Proof.Machine.execCancel f s
  | .clientBareAck f => Sys2Proof.Machine.execClientBareAck f s
  | .asmTimeout e => Sys2Proof.Machine.execAsmTimeout e s
  | .tokenizeBlock hub => Sys2Proof.Machine.execTokenizeBlock hub s
  | .formStep service => Sys2Proof.Machine.execFormStep service s
  | .copyOnWrite idx => Sys2Proof.Machine.execCopyOnWrite idx s
  | .descriptorArrive pf => Sys2Proof.Machine.execDescriptorArrive pf s
  | .kvWriteCompletion service step => Sys2Proof.Machine.execKvWriteCompletion service step s
  | .sealImageDone idx => Sys2Proof.Machine.execSealImageDone idx s
  | .sealSwap idx => Sys2Proof.Machine.execSealSwap idx s
  | .scommitReport lf step => Sys2Proof.Machine.execScommitReport lf step s
  | .stepFailedReport lf step => Sys2Proof.Machine.execStepFailedReport lf step s
  | .soutLogits pf e => Sys2Proof.Machine.execSoutLogits pf e s
  | .tokenCommit e => Sys2Proof.Machine.execTokenCommit e s
  | .verifySample e => Sys2Proof.Machine.execVerifySample e s
  | .commitCopy idx => Sys2Proof.Machine.execCommitCopy idx s
  | .egressTokens e => Sys2Proof.Machine.execEgressTokens e s
  | .egressEnd e => Sys2Proof.Machine.execEgressEnd e s
  | .bareAckTimer ch => Sys2Proof.Machine.execBareAckTimer ch s
  | .retransmitTimer ch => Sys2Proof.Machine.execRetransmitTimer ch s
  | .channelEnable ch cfg => Sys2Proof.Machine.execChannelEnable ch cfg s
  | .swEntryQueue e bytes => Sys2Proof.Machine.execSwEntryQueue e bytes s
  | .swEntryCancel e => Sys2Proof.Machine.execSwEntryCancel e s
  | .swEntryRelease e => Sys2Proof.Machine.execSwEntryRelease e s
  | .swTreeWrite e n => Sys2Proof.Machine.execSwTreeWrite e n s
  | .deadlineExpire e => Sys2Proof.Machine.execDeadlineExpire e s
  | .pageGrant e => Sys2Proof.Machine.execPageGrant e s
  | .pageWaitTimer e => Sys2Proof.Machine.execPageWaitTimer e s
  | .resumePreempted e => Sys2Proof.Machine.execResumePreempted e s
  | .serviceEnable service => Sys2Proof.Machine.execServiceEnable service s
  | .admissionDone service cost => Sys2Proof.Machine.execAdmissionDone service cost s
  | .svcReadmit service => Sys2Proof.Machine.execSvcReadmit service s
  | .serviceDisable service => Sys2Proof.Machine.execServiceDisable service s
  | .svcStop service => Sys2Proof.Machine.execSvcStop service s
  | .budCfgWrite c value => Sys2Proof.Machine.execBudCfgWrite c value s
  | .fclkChange region => Sys2Proof.Machine.execFclkChange region s
  | .regionClkWrite region value => Sys2Proof.Machine.execRegionClkWrite region value s
  | .refclkFail => Sys2Proof.Machine.execRefclkFail s
  | .populationRefresh arb active => Sys2Proof.Machine.execPopulationRefresh arb active s
  | .arbiterGrant arb pending => Sys2Proof.Machine.execArbiterGrant arb pending s
  | .productStart pf arr => Sys2Proof.Machine.execProductStart pf arr s
  | .planeComplete pf arr errs margins disagree => Sys2Proof.Machine.execPlaneComplete pf arr errs margins disagree s
  | .productComplete pf arr => Sys2Proof.Machine.execProductComplete pf arr s
  | .drainRequestLatch pf idx => Sys2Proof.Machine.execDrainRequestLatch pf idx s
  | .drainVectorReturn pf idx => Sys2Proof.Machine.execDrainVectorReturn pf idx s
  | .arrMapWrite pf n value => Sys2Proof.Machine.execArrMapWrite pf n value s
  | .bindingApply pf n => Sys2Proof.Machine.execBindingApply pf n s
  | .apCeilingWrite pf value => Sys2Proof.Machine.execApCeilingWrite pf value s
  | .arrWinSelWrite pf value => Sys2Proof.Machine.execArrWinSelWrite pf value s
  | .convMapWrite pf n value => Sys2Proof.Machine.execConvMapWrite pf n value s
  | .convMapApply pf arr => Sys2Proof.Machine.execConvMapApply pf arr s
  | .convFenceWrite pf n => Sys2Proof.Machine.execConvFenceWrite pf n s
  | .converterFenceApply pf arr => Sys2Proof.Machine.execConverterFenceApply pf arr s
  | .replayComplete pf arr errs => Sys2Proof.Machine.execReplayComplete pf arr errs s
  | .exactFallbackStart pf arr => Sys2Proof.Machine.execExactFallbackStart pf arr s
  | .exactFallbackDone pf arr => Sys2Proof.Machine.execExactFallbackDone pf arr s
  | .outlierRowRead pf bad1 bad2 => Sys2Proof.Machine.execOutlierRowRead pf bad1 bad2 s
  | .outlierGoldRow pf => Sys2Proof.Machine.execOutlierGoldRow pf s
  | .chkWinSelWrite pf value => Sys2Proof.Machine.execChkWinSelWrite pf value s
  | .checkWindowWrite pf word value => Sys2Proof.Machine.execCheckWindowWrite pf word value s
  | .trimRecompute g => Sys2Proof.Machine.execTrimRecompute g s
  | .trimApply pf arr => Sys2Proof.Machine.execTrimApply pf arr s
  | .calRunStart g => Sys2Proof.Machine.execCalRunStart g s
  | .calRunTimeout g => Sys2Proof.Machine.execCalRunTimeout g s
  | .calWindowFull pf arr conv => Sys2Proof.Machine.execCalWindowFull pf arr conv s
  | .shadowWindowStart pf arr => Sys2Proof.Machine.execShadowWindowStart pf arr s
  | .calAttemptEnd pf arr conv => Sys2Proof.Machine.execCalAttemptEnd pf arr conv s
  | .calStartWrite g => Sys2Proof.Machine.execCalStartWrite g s
  | .calStoreWrite pf arr conv => Sys2Proof.Machine.execCalStoreWrite pf arr conv s
  | .arrayScanEnd pf arr cells => Sys2Proof.Machine.execArrayScanEnd pf arr cells s
  | .refreshStart pf arr => Sys2Proof.Machine.execRefreshStart pf arr s
  | .refreshRebind pf arr => Sys2Proof.Machine.execRefreshRebind pf arr s
  | .refreshComplete pf arr cells => Sys2Proof.Machine.execRefreshComplete pf arr cells s
  | .rowWriteCycle pf arr ok same => Sys2Proof.Machine.execRowWriteCycle pf arr ok same s
  | .writeWindowResume pf arr => Sys2Proof.Machine.execWriteWindowResume pf arr s
  | .facLoadGo pf => Sys2Proof.Machine.execFacLoadGo pf s
  | .facLoadDone pf => Sys2Proof.Machine.execFacLoadDone pf s
  | .facRun pf => Sys2Proof.Machine.execFacRun pf s
  | .facStop pf => Sys2Proof.Machine.execFacStop pf s
  | .facReset pf => Sys2Proof.Machine.execFacReset pf s
  | .facBindWrite pf value => Sys2Proof.Machine.execFacBindWrite pf value s
  | .facEpochWrite pf value => Sys2Proof.Machine.execFacEpochWrite pf value s
  | .windowRead addr n => Sys2Proof.Machine.execWindowRead addr n s
  | .windowWrite addr data poison => Sys2Proof.Machine.execWindowWrite addr data poison s
  | .exception pf slot cause => Sys2Proof.Machine.execException pf slot cause s
  | .exceptionSettle pf => Sys2Proof.Machine.execExceptionSettle pf s
  | .nop h => Sys2Proof.Machine.execNop h s
  | .br h target => Sys2Proof.Machine.execBr h target s
  | .loop h cnt last => Sys2Proof.Machine.execLoop h cnt last s
  | .halt h => Sys2Proof.Machine.execHalt h s
  | .add h rd ra rb => Sys2Proof.Machine.execAdd h rd ra rb s
  | .sub h rd ra rb => Sys2Proof.Machine.execSub h rd ra rb s
  | .and h rd ra rb => Sys2Proof.Machine.execAnd h rd ra rb s
  | .or h rd ra rb => Sys2Proof.Machine.execOr h rd ra rb s
  | .xor h rd ra rb => Sys2Proof.Machine.execXor h rd ra rb s
  | .shl h rd ra rb => Sys2Proof.Machine.execShl h rd ra rb s
  | .shr h rd ra rb => Sys2Proof.Machine.execShr h rd ra rb s
  | .sra h rd ra rb => Sys2Proof.Machine.execSra h rd ra rb s
  | .mul h rd ra rb => Sys2Proof.Machine.execMul h rd ra rb s
  | .mulhu h rd ra rb => Sys2Proof.Machine.execMulhu h rd ra rb s
  | .div h rd ra rb => Sys2Proof.Machine.execDiv h rd ra rb s
  | .divu h rd ra rb => Sys2Proof.Machine.execDivu h rd ra rb s
  | .rem h rd ra rb => Sys2Proof.Machine.execRem h rd ra rb s
  | .remu h rd ra rb => Sys2Proof.Machine.execRemu h rd ra rb s
  | .min h rd ra rb => Sys2Proof.Machine.execMin h rd ra rb s
  | .max h rd ra rb => Sys2Proof.Machine.execMax h rd ra rb s
  | .minu h rd ra rb => Sys2Proof.Machine.execMinu h rd ra rb s
  | .maxu h rd ra rb => Sys2Proof.Machine.execMaxu h rd ra rb s
  | .addi h rd ra imm => Sys2Proof.Machine.execAddi h rd ra imm s
  | .andi h rd ra imm => Sys2Proof.Machine.execAndi h rd ra imm s
  | .ori h rd ra imm => Sys2Proof.Machine.execOri h rd ra imm s
  | .xori h rd ra imm => Sys2Proof.Machine.execXori h rd ra imm s
  | .shli h rd ra imm => Sys2Proof.Machine.execShli h rd ra imm s
  | .shri h rd ra imm => Sys2Proof.Machine.execShri h rd ra imm s
  | .srai h rd ra imm => Sys2Proof.Machine.execSrai h rd ra imm s
  | .muli h rd ra imm => Sys2Proof.Machine.execMuli h rd ra imm s
  | .li h rd imm => Sys2Proof.Machine.execLi h rd imm s
  | .lis h rd imm => Sys2Proof.Machine.execLis h rd imm s
  | .lih h rd imm => Sys2Proof.Machine.execLih h rd imm s
  | .cmp h pd ra rb cond => Sys2Proof.Machine.execCmp h pd ra rb cond s
  | .cmpi h pd ra cond imm => Sys2Proof.Machine.execCmpi h pd ra cond imm s
  | .plog h pd pa pb table => Sys2Proof.Machine.execPlog h pd pa pb table s
  | .ld h rt ra size sx imm => Sys2Proof.Machine.execLd h rt ra size sx imm s
  | .st h rt ra size sx imm => Sys2Proof.Machine.execSt h rt ra size sx imm s
  | .rdc h rd sel => Sys2Proof.Machine.execRdc h rd sel s
  | .vld h v ra imm => Sys2Proof.Machine.execVld h v ra imm s
  | .vst h v ra imm => Sys2Proof.Machine.execVst h v ra imm s
  | .vadd h vd va vb typ => Sys2Proof.Machine.execVadd h vd va vb typ s
  | .vsub h vd va vb typ => Sys2Proof.Machine.execVsub h vd va vb typ s
  | .vmul h vd va vb typ => Sys2Proof.Machine.execVmul h vd va vb typ s
  | .vfma h vd va vb vc typ => Sys2Proof.Machine.execVfma h vd va vb vc typ s
  | .vmax h vd va vb typ => Sys2Proof.Machine.execVmax h vd va vb typ s
  | .vmin h vd va vb typ => Sys2Proof.Machine.execVmin h vd va vb typ s
  | .vabs h vd va typ => Sys2Proof.Machine.execVabs h vd va typ s
  | .vneg h vd va typ => Sys2Proof.Machine.execVneg h vd va typ s
  | .vbcs h vd ra typ => Sys2Proof.Machine.execVbcs h vd ra typ s
  | .vsel h vd va vb vc typ => Sys2Proof.Machine.execVsel h vd va vb vc typ s
  | .vcmp h vd va vb typ cond => Sys2Proof.Machine.execVcmp h vd va vb typ cond s
  | .vexp2 h vd va typ => Sys2Proof.Machine.execVexp2 h vd va typ s
  | .vrcp h vd va typ => Sys2Proof.Machine.execVrcp h vd va typ s
  | .vrsqrt h vd va typ => Sys2Proof.Machine.execVrsqrt h vd va typ s
  | .vact h vd va typ table => Sys2Proof.Machine.execVact h vd va typ table s
  | .vred h vd va typ op seg => Sys2Proof.Machine.execVred h vd va typ op seg s
  | .vcvt h vd va sf df half => Sys2Proof.Machine.execVcvt h vd va sf df half s
  | .vquant h vd va vx sd df blk kc => Sys2Proof.Machine.execVquant h vd va vx sd df blk kc s
  | .vmovs h rd va lane sx => Sys2Proof.Machine.execVmovs h rd va lane sx s
  | .vwatch h va layer spec grad => Sys2Proof.Machine.execVwatch h va layer spec grad s
  | .hset h hd ra => Sys2Proof.Machine.execHset h hd ra s
  | .aiss h hn vs ss bank acc spec kc vo => Sys2Proof.Machine.execAiss h hn vs ss bank acc spec kc vo s
  | .adrnv h vd hn tile bank dq sd => Sys2Proof.Machine.execAdrnv h vd hn tile bank dq sd s
  | .adrnm h hn bank dq ra => Sys2Proof.Machine.execAdrnm h hn bank dq ra s
  | .tmm h td fa fb acc16 clr sa sb sk m n mask rk => Sys2Proof.Machine.execTmm h td fa fb acc16 clr sa sb sk m n mask rk s
  | .tclr h td => Sys2Proof.Machine.execTclr h td s
  | .tdrnv h vd td df rows clr => Sys2Proof.Machine.execTdrnv h vd td df rows clr s
  | .tdrnm h ra td df rows clr => Sys2Proof.Machine.execTdrnm h ra td df rows clr s
  | .tmsk h vs => Sys2Proof.Machine.execTmsk h vs s
  | .mcpy h tag dir posted rl rr rn => Sys2Proof.Machine.execMcpy h tag dir posted rl rr rn s
  | .mpage h tag dir posted rl vdesc => Sys2Proof.Machine.execMpage h tag dir posted rl vdesc s
  | .mdec h tag rs rd rn => Sys2Proof.Machine.execMdec h tag rs rd rn s
  | .mwait h mask => Sys2Proof.Machine.execMwait h mask s
  | .step h vd rd => Sys2Proof.Machine.execStep h vd rd s
  | .scommit h => Sys2Proof.Machine.execScommit h s
  | .send h rl ra rn chan => Sys2Proof.Machine.execSend h rl ra rn chan s
  | .recv h pd ra rn rs chan => Sys2Proof.Machine.execRecv h pd ra rn rs chan s
  | .sout h re ra rn ro => Sys2Proof.Machine.execSout h re ra rn ro s
  | .bar h id rn => Sys2Proof.Machine.execBar h id rn s
  | .tensorOpBegin pf => Sys2Proof.Machine.execTensorOpBegin pf s
  | .tmmComplete pf tileErr shadowErr => Sys2Proof.Machine.execTmmComplete pf tileErr shadowErr s
  | .shadowReplayDone pf err => Sys2Proof.Machine.execShadowReplayDone pf err s
  | .tileDrainComplete pf idx => Sys2Proof.Machine.execTileDrainComplete pf idx s
  | .movementOpComplete pf idx => Sys2Proof.Machine.execMovementOpComplete pf idx s
  | .prismBlockDecode pf reader => Sys2Proof.Machine.execPrismBlockDecode pf reader s
  | .messageArrive pf src chan => Sys2Proof.Machine.execMessageArrive pf src chan s
  | .sendCreditReturn pf idx => Sys2Proof.Machine.execSendCreditReturn pf idx s
  | .barrierRelease service id step => Sys2Proof.Machine.execBarrierRelease service id step s
  | .acc16CtlWrite pf value => Sys2Proof.Machine.execAcc16CtlWrite pf value s
  | .tenShadowWrite pf value => Sys2Proof.Machine.execTenShadowWrite pf value s
  | .sigWindowRelease pf => Sys2Proof.Machine.execSigWindowRelease pf s
  | .nwClear service => Sys2Proof.Machine.execNwClear service s
  | .kvPoolEnable service => Sys2Proof.Machine.execKvPoolEnable service s
  | .kvPoolDisable service => Sys2Proof.Machine.execKvPoolDisable service s
  | .kvPoolStrideWrite service value => Sys2Proof.Machine.execKvPoolStrideWrite service value s
  | .codedSectorRead kind num addr => Sys2Proof.Machine.execCodedSectorRead kind num addr s
  | .prismRangeEnable stack range value => Sys2Proof.Machine.execPrismRangeEnable stack range value s
  | .copy => Sys2Proof.Machine.execCopy s
  | .mcast => Sys2Proof.Machine.execMcast s
  | .awriteDirect => Sys2Proof.Machine.execAwriteDirect s
  | .awriteRebind => Sys2Proof.Machine.execAwriteRebind s
  | .loaderJobEnd idx => Sys2Proof.Machine.execLoaderJobEnd idx s
  | .epochSwitch service => Sys2Proof.Machine.execEpochSwitch service s
  | .epochSwitchDone service cost => Sys2Proof.Machine.execEpochSwitchDone service cost s
  | .epochRetire service => Sys2Proof.Machine.execEpochRetire service s
  | .lfMapWrite n value => Sys2Proof.Machine.execLfMapWrite n value s
  | .eventRaise idx => Sys2Proof.Machine.execEventRaise idx s
  | .coalTimer src => Sys2Proof.Machine.execCoalTimer src s
  | .interruptDeliver lc fast asleep => Sys2Proof.Machine.execInterruptDeliver lc fast asleep s
  | .evClaim lc => Sys2Proof.Machine.execEvClaim lc s
  | .evClaimf lc => Sys2Proof.Machine.execEvClaimf lc s
  | .vectorAccept lc fast => Sys2Proof.Machine.execVectorAccept lc fast s
  | .evComplete lc n => Sys2Proof.Machine.execEvComplete lc n s
  | .evRaiseWrite value => Sys2Proof.Machine.execEvRaiseWrite value s
  | .evSrcWrite n value => Sys2Proof.Machine.execEvSrcWrite n value s
  | .bootRomStart h failed => Sys2Proof.Machine.execBootRomStart h failed s
  | .bootSourceRound h imgs => Sys2Proof.Machine.execBootSourceRound h imgs s
  | .bootRetryTimer h => Sys2Proof.Machine.execBootRetryTimer h s
  | .spiPinTakeover => Sys2Proof.Machine.execSpiPinTakeover s
  | .hubBBootTimeout => Sys2Proof.Machine.execHubBBootTimeout s
  | .bootJump h => Sys2Proof.Machine.execBootJump h s
  | .coreStart value => Sys2Proof.Machine.execCoreStart value s
  | .coreHandover value => Sys2Proof.Machine.execCoreHandover value s
  | .fwUpdate value => Sys2Proof.Machine.execFwUpdate value s
  | .fwUpdateStandby => Sys2Proof.Machine.execFwUpdateStandby s
  | .coreEccError p corrected => Sys2Proof.Machine.execCoreEccError p corrected s
  | .fltFenceWrite value => Sys2Proof.Machine.execFltFenceWrite value s
  | .mapAppendTimeout => Sys2Proof.Machine.execMapAppendTimeout s
  | .mrRunStart g => Sys2Proof.Machine.execMrRunStart g s
  | .mrSnapshotDone g => Sys2Proof.Machine.execMrSnapshotDone g s
  | .mrMirrorStepEnd g overflow first diff => Sys2Proof.Machine.execMrMirrorStepEnd g overflow first diff s
  | .mrReplayDone g before replay => Sys2Proof.Machine.execMrReplayDone g before replay s
  | .fltInjArm value => Sys2Proof.Machine.execFltInjArm value s
  | .cperExport => Sys2Proof.Machine.execCperExport s
  | .cperResend value => Sys2Proof.Machine.execCperResend value s
  | .vaultWrite => Sys2Proof.Machine.execVaultWrite s
  | .vaultRebuild => Sys2Proof.Machine.execVaultRebuild s
  | .linkPortEnable p value => Sys2Proof.Machine.execLinkPortEnable p value s
  | .linkTrainDone p good peer peerPort ident => Sys2Proof.Machine.execLinkTrainDone p good peer peerPort ident s
  | .laneReplace p lane => Sys2Proof.Machine.execLaneReplace p lane s
  | .flitReceive p b fec => Sys2Proof.Machine.execFlitReceive p b fec s
  | .linkReplayTimer p => Sys2Proof.Machine.execLinkReplayTimer p s
  | .msgWrite => Sys2Proof.Machine.execMsgWrite s
  | .msgSend => Sys2Proof.Machine.execMsgSend s
  | .msgResp => Sys2Proof.Machine.execMsgResp s
  | .msgTime => Sys2Proof.Machine.execMsgTime s
  | .msgBarArrive => Sys2Proof.Machine.execMsgBarArrive s
  | .msgBarRelease => Sys2Proof.Machine.execMsgBarRelease s
  | .msgBarFail => Sys2Proof.Machine.execMsgBarFail s
  | .timeSendTick p => Sys2Proof.Machine.execTimeSendTick p s
  | .delayMeasure p rtt => Sys2Proof.Machine.execDelayMeasure p rtt s
  | .msgIncompleteTimeout p vc => Sys2Proof.Machine.execMsgIncompleteTimeout p vc s
  | .barArm value => Sys2Proof.Machine.execBarArm value s
  | .barLocalRelease => Sys2Proof.Machine.execBarLocalRelease s
  | .barTimer => Sys2Proof.Machine.execBarTimer s
  | .linkCfgWrite value => Sys2Proof.Machine.execLinkCfgWrite value s
  | .nonceDraw => Sys2Proof.Machine.execNonceDraw s
  | .attest => Sys2Proof.Machine.execAttest s
  | .enroll => Sys2Proof.Machine.execEnroll s
  | .svnCommit => Sys2Proof.Machine.execSvnCommit s
  | .unlock => Sys2Proof.Machine.execUnlock s
  | .owner => Sys2Proof.Machine.execOwner s
  | .secCmdComplete => Sys2Proof.Machine.execSecCmdComplete s
  | .pufUnwrap failed => Sys2Proof.Machine.execPufUnwrap failed s
  | .keyCommit slot => Sys2Proof.Machine.execKeyCommit slot s
  | .keyClear slot => Sys2Proof.Machine.execKeyClear slot s
  | .sensorAlarm n present => Sys2Proof.Machine.execSensorAlarm n present s
  | .eraseComplete => Sys2Proof.Machine.execEraseComplete s
  | .secAlarmClassWrite n value => Sys2Proof.Machine.execSecAlarmClassWrite n value s
  | .d2dChallenge h failing => Sys2Proof.Machine.execD2dChallenge h failing s
  | .sensorRound g codes => Sys2Proof.Machine.execSensorRound g codes s
  | .throttleTick g => Sys2Proof.Machine.execThrottleTick g s
  | .pkgSensorTrip n t => Sys2Proof.Machine.execPkgSensorTrip n t s
  | .pkgTripRestart temps => Sys2Proof.Machine.execPkgTripRestart temps s
  | .hbmTemp k t cat => Sys2Proof.Machine.execHbmTemp k t cat s
  | .plantStep pred => Sys2Proof.Machine.execPlantStep pred s
  | .plantEnWrite value => Sys2Proof.Machine.execPlantEnWrite value s
  | .plantSensorRead tin tout => Sys2Proof.Machine.execPlantSensorRead tin tout s
  | .plantSensorLost => Sys2Proof.Machine.execPlantSensorLost s
  | .flowWindow pulses => Sys2Proof.Machine.execFlowWindow pulses s
  | .powerForecast => Sys2Proof.Machine.execPowerForecast s
  | .railPoll n rd => Sys2Proof.Machine.execRailPoll n rd s
  | .vfacSetpointRaise d => Sys2Proof.Machine.execVfacSetpointRaise d s
  | .vfacSettled d ok => Sys2Proof.Machine.execVfacSettled d ok s
  | .boostDecision g => Sys2Proof.Machine.execBoostDecision g s
  | .porstAssert ns => Sys2Proof.Machine.execPorstAssert ns s
  | .porstRelease => Sys2Proof.Machine.execPorstRelease s
  | .railPgRise n => Sys2Proof.Machine.execRailPgRise n s
  | .railPgTimeout n => Sys2Proof.Machine.execRailPgTimeout n s
  | .railPgDrop n ns => Sys2Proof.Machine.execRailPgDrop n ns s
  | .seqRestartTimer => Sys2Proof.Machine.execSeqRestartTimer s
  | .timeInEdge ns => Sys2Proof.Machine.execTimeInEdge ns s
  | .frameToSoftware p frame fcs poison => Sys2Proof.Machine.execFrameToSoftware p frame fcs poison s
  | .netTxSend k => Sys2Proof.Machine.execNetTxSend k s
  | .sportEnable q value lanes => Sys2Proof.Machine.execSportEnable q value lanes s
  | .pcieInbound h addr n data ep => Sys2Proof.Machine.execPcieInbound h addr n data ep s
  | .pcieObAccess h write answer => Sys2Proof.Machine.execPcieObAccess h write answer s
  | .tapBypass => Sys2Proof.Machine.execTapBypass s
  | .tapIdcode => Sys2Proof.Machine.execTapIdcode s
  | .tapSamplePreload pins load => Sys2Proof.Machine.execTapSamplePreload pins load s
  | .tapExtest pins load => Sys2Proof.Machine.execTapExtest pins load s
  | .tapClamp => Sys2Proof.Machine.execTapClamp s
  | .tapHighz => Sys2Proof.Machine.execTapHighz s
  | .tapReset => Sys2Proof.Machine.execTapReset s
  | .loupeTrigIn => Sys2Proof.Machine.execLoupeTrigIn s
  | .loupeSample => Sys2Proof.Machine.execLoupeSample s
  | .vddAonLoss => Sys2Proof.Machine.execVddAonLoss s
  | .hubLinkLoss h => Sys2Proof.Machine.execHubLinkLoss h s
  | .d2dLaneFailure die hub lane group => Sys2Proof.Machine.execD2dLaneFailure die hub lane group s
  | .hbmChannelRetrainFail k c => Sys2Proof.Machine.execHbmChannelRetrainFail k c s
  | .mgmtPortEnable value ok => Sys2Proof.Machine.execMgmtPortEnable value ok s
  | .pcieEnable h value speed width => Sys2Proof.Machine.execPcieEnable h value speed width s

end Sys2Proof.Machine
end

