-- ==== Sys2Proof/Machine/Idle.lean ====
section
/-! DEFINITION. What a step does when no command waits. -/

namespace Sys2Proof.Machine

/-- The block idles: 1 st passes (R12, R495; log entry 7).  SYS_TIME does not count while the package is in reset. -/
def idle (s : State) : Res :=
  let t := { s with time := s.time + 1 }
  if s.power.phase = 0 ∨ s.power.phase = 2 then .next (t.setReg .SYS_TIME (s.sysClock + 1)) else .next t

end Sys2Proof.Machine
end

