-- ==== Sys2Proof/Safety.lean ====
section
/-! DEFINITION. What the statements say of a command's answer: that it answers a next state, that a run does not stop, the
canonical form of the state's tables, and what every command keeps. -/

namespace Sys2Proof.Machine

/-- The command answers a next state of which `P` holds. -/
def Answers (r : Res) (P : State → Prop) : Prop := ∃ t, r = .next t ∧ P t

/-- A run of `n` steps from `s` is safe: no step of it stops. -/
def SafeRun (n : Nat) (s : State) : Prop := ∃ t, Host.Core.run Sys2Proof.core n s = .next t

/-- The canonical form of what the state lists: HBM and hub SRAM list rising addresses and no byte 0x00, poisoned units rising;
the register file and the facets list rising keys. -/
def State.Canonical (s : State) : Prop :=
  s.hbm.wf = true ∧ s.hub.wf = true ∧ Tab.sorted s.regs = true ∧ Tab.sorted s.facets = true

/-- What a command keeps: the variant, the queue, the model's clock, the free values drawn so far, and the canonical forms. -/
def State.Keeps (s t : State) : Prop :=
  t.variant = s.variant ∧ t.pending = s.pending ∧ t.time = s.time ∧ s.free ≤ t.free
    ∧ (s.hbm.wf = true → t.hbm.wf = true) ∧ (s.hub.wf = true → t.hub.wf = true)
    ∧ (Tab.sorted s.regs = true → Tab.sorted t.regs = true) ∧ (Tab.sorted s.facets = true → Tab.sorted t.facets = true)

/-- The parts of the state a command may change; the variant, the queue and the model's clock are no command's to change. -/
inductive Part where
  | regs | hbm | facets | arrs | larrs | outJobs | fbPlaces | staged | regions | calStore | loader | faults | vault | boot | sec | link
  | plant | power | tap | noc | serve | kv | hub | ctl | raises | free | out
  deriving DecidableEq, Repr

/-- Every part outside `w` is unchanged. -/
structure State.SameBut (w : List Part) (s t : State) : Prop where
  regs : .regs ∉ w → t.regs = s.regs
  hbm : .hbm ∉ w → t.hbm = s.hbm
  facets : .facets ∉ w → t.facets = s.facets
  arrs : .arrs ∉ w → t.arrs = s.arrs
  larrs : .larrs ∉ w → t.larrs = s.larrs
  outJobs : .outJobs ∉ w → t.outJobs = s.outJobs
  fbPlaces : .fbPlaces ∉ w → t.fbPlaces = s.fbPlaces
  staged : .staged ∉ w → t.staged = s.staged
  regions : .regions ∉ w → t.regions = s.regions
  calStore : .calStore ∉ w → t.calStore = s.calStore
  loader : .loader ∉ w → t.loader = s.loader
  faults : .faults ∉ w → t.faults = s.faults
  vault : .vault ∉ w → t.vault = s.vault
  boot : .boot ∉ w → t.boot = s.boot
  sec : .sec ∉ w → t.sec = s.sec
  link : .link ∉ w → t.link = s.link
  plant : .plant ∉ w → t.plant = s.plant
  power : .power ∉ w → t.power = s.power
  tap : .tap ∉ w → t.tap = s.tap
  noc : .noc ∉ w → t.noc = s.noc
  serve : .serve ∉ w → t.serve = s.serve
  kv : .kv ∉ w → t.kv = s.kv
  hub : .hub ∉ w → t.hub = s.hub
  ctl : .ctl ∉ w → t.ctl = s.ctl
  raises : .raises ∉ w → t.raises = s.raises
  free : .free ∉ w → t.free = s.free
  out : .out ∉ w → t.out = s.out

/-- All of them: what a command that may reset the package changes. -/
def allParts : List Part :=
  [.regs, .hbm, .facets, .arrs, .larrs, .outJobs, .fbPlaces, .staged, .regions, .calStore, .loader, .faults, .vault, .boot, .sec,
    .link, .plant, .power, .tap, .noc, .serve, .kv, .hub, .ctl, .raises, .free, .out]

/-- What each command may change (log entry 70): the frame of every command. -/
def changes : Instr → List Part
  | .nop .. | .br .. | .loop .. | .halt .. | .add .. | .sub .. | .and .. | .or .. | .xor .. | .shl .. | .shr .. | .sra ..
  | .mul .. | .mulhu .. | .div .. | .divu .. | .rem .. | .remu .. | .min .. | .max .. | .minu .. | .maxu .. | .addi ..
  | .andi .. | .ori .. | .xori .. | .shli .. | .shri .. | .srai .. | .muli .. | .li .. | .lis .. | .lih .. | .cmp ..
  | .cmpi .. | .plog .. | .ld .. | .st .. | .rdc .. | .vld .. | .vst .. | .vadd .. | .vsub .. | .vmul .. | .vfma ..
  | .vmax .. | .vmin .. | .vabs .. | .vneg .. | .vbcs .. | .vsel .. | .vcmp .. | .vexp2 .. | .vrcp .. | .vrsqrt .. | .vact ..
  | .vred .. | .vcvt .. | .vquant .. | .vmovs .. | .vwatch .. | .hset .. | .aiss .. | .adrnv .. | .adrnm .. | .tmm ..
  | .tclr .. | .tdrnv .. | .tdrnm .. | .tmsk .. | .mcpy .. | .mpage .. | .mdec .. | .mwait .. | .step .. | .scommit ..
  | .send .. | .recv .. | .sout .. | .bar ..
    => [.regs, .hbm, .facets, .arrs, .larrs, .outJobs, .staged, .regions, .loader, .faults, .link, .noc, .raises, .out]
  | .serviceEnable .. | .svcReadmit .. | .svcStop .. | .regionClkWrite .. | .apCeilingWrite .. | .chkWinSelWrite ..
  | .calStartWrite .. | .facStop .. | .facEpochWrite .. | .acc16CtlWrite .. | .tenShadowWrite .. | .kvPoolStrideWrite ..
  | .prismRangeEnable .. | .epochSwitch .. | .lfMapWrite .. | .linkCfgWrite .. | .secAlarmClassWrite .. | .powerForecast ..
    => [.regs]
  | .registerWrite .. | .fltInjArm .. | .sensorAlarm .. | .d2dChallenge .. | .pkgSensorTrip .. | .hbmTemp ..
  | .porstAssert .. | .railPgTimeout .. | .railPgDrop .. | .vddAonLoss .. => allParts
  | .copyOnWrite .. | .sealSwap .. | .commitCopy .. | .pageGrant .. | .pageWaitTimer .. | .resumePreempted ..
    => [.regs, .hbm, .serve, .kv]
  | .arrWinSelWrite .. | .facLoadGo .. | .timeInEdge .. | .sportEnable .. | .mgmtPortEnable .. | .pcieEnable ..
    => [.regs, .raises]
  | .attest .. | .enroll .. | .svnCommit .. | .unlock .. | .owner .. | .pufUnwrap .. => [.regs, .vault, .sec]
  | .tapBypass .. | .tapIdcode .. | .tapSamplePreload .. | .tapExtest .. | .tapClamp .. | .tapHighz .. => [.tap, .out]
  | .populationRefresh .. | .coalTimer .. | .interruptDeliver .. | .evComplete .. | .evSrcWrite .. => [.regs, .ctl]
  | .drainVectorReturn .. | .facRun .. | .facReset .. | .tileDrainComplete .. | .sigWindowRelease .. => [.regs, .facets]
  | .calRunTimeout .. | .calWindowFull .. | .shadowWindowStart .. | .calAttemptEnd .. => [.regs, .arrs, .regions, .raises]
  | .msgTime .. | .msgBarRelease .. | .msgBarFail .. | .barLocalRelease .. => [.regs, .link, .raises]
  | .refreshStart .. | .mrMirrorStepEnd .. | .throttleTick .. | .boostDecision .. => [.regs, .regions, .raises]
  | .bootRetryTimer .. | .spiPinTakeover .. | .hubBBootTimeout .. => [.boot]
  | .drainRequestLatch .. | .sendCreditReturn .. | .barrierRelease .. => [.facets]
  | .trimRecompute .. | .mrRunStart .. | .mrSnapshotDone .. => [.regions]
  | .convMapApply .. | .trimApply .. | .arrayScanEnd .. => [.regs, .arrs]
  | .evClaim .. | .evClaimf .. | .vectorAccept .. => [.regs, .ctl, .out]
  | .planeComplete .. | .replayComplete .. | .exactFallbackDone .. => [.regs, .hbm, .arrs, .larrs, .fbPlaces, .faults, .raises]
  | .facLoadDone .. | .tensorOpBegin .. | .prismBlockDecode .. => [.regs, .hbm, .facets, .faults, .raises]
  | .kvWriteCompletion .. | .scommitReport .. | .swEntryCancel .. => [.regs, .hbm, .noc, .serve, .kv, .hub, .raises]
  | .swEntryRelease .. | .admissionDone .. | .epochRetire .. => [.regs, .hbm, .serve, .kv, .raises]
  | .flitReceive .. | .linkReplayTimer .. | .barTimer .. => [.regs, .loader, .link, .noc, .raises, .out]
  | .egressTokens .. | .egressEnd .. | .channelEnable .. => [.serve, .raises, .out]
  | .arbiterGrant .. | .loupeTrigIn .. => [.ctl]
  | .awriteDirect .. | .awriteRebind .. => [.regs, .arrs, .loader, .raises]
  | .convMapWrite .. | .convFenceWrite .. => [.regs, .arrs, .raises]
  | .exception .. | .tmmComplete .. => [.regs, .facets, .raises]
  | .facBindWrite .. | .mapAppendTimeout .. => [.regs, .faults]
  | .pkgTripRestart .. | .porstRelease .. => [.regs, .faults, .boot, .power]
  | .shadowReplayDone .. | .mrReplayDone .. => [.regs, .hbm, .facets, .staged, .regions, .faults, .noc, .serve, .raises]
  | .coreEccError .. | .hubLinkLoss .. => [.regs, .hbm, .faults, .boot, .ctl, .raises, .out]
  | .codedSectorRead .. | .pcieInbound .. => [.regs, .hbm, .faults, .raises, .out]
  | .cancel .. | .retransmitTimer .. => [.regs, .hbm, .noc, .serve, .kv, .hub, .raises, .out]
  | .clientBareAck .. | .asmTimeout .. => [.regs, .hbm, .serve, .kv, .raises, .out]
  | .msgBarArrive .. | .barArm .. => [.regs, .loader, .link, .noc, .out]
  | .pcieObAccess .. | .loupeSample .. => [.regs, .out]
  | .plantEnWrite .. | .plantSensorRead .. => [.regs, .plant, .power, .out]
  | .plantStep .. | .flowWindow .. => [.regs, .plant, .power, .raises, .free, .out]
  | .keyCommit .. | .keyClear .. => [.regs, .sec]
  | .vaultWrite .. | .vaultRebuild .. => [.regs, .vault]
  | .productStart .. => [.arrs]
  | .exactFallbackStart .. => [.arrs, .fbPlaces]
  | .refclkFail .. => [.ctl, .raises]
  | .msgSend .. => [.facets, .link]
  | .messageArrive .. => [.facets, .noc]
  | .soutLogits .. => [.facets, .noc, .serve]
  | .cperExport .. => [.faults, .out]
  | .sealImageDone .. => [.hbm, .kv]
  | .nwClear .. => [.hub]
  | .checkWindowWrite .. => [.larrs]
  | .msgIncompleteTimeout .. => [.link]
  | .msgResp .. => [.loader, .link]
  | .seqRestartTimer .. => [.power]
  | .vfacSetpointRaise .. => [.power, .out]
  | .evRaiseWrite .. => [.raises]
  | .calStoreWrite .. => [.regions, .calStore]
  | .writeWindowResume .. => [.regions, .loader]
  | .calRunStart .. => [.regs, .arrs, .regions]
  | .bootRomStart .. => [.regs, .boot]
  | .coreHandover .. => [.regs, .boot, .ctl, .raises, .out]
  | .fwUpdateStandby .. => [.regs, .boot, .hub, .raises]
  | .coreStart .. => [.regs, .boot, .out]
  | .bootSourceRound .. => [.regs, .boot, .power]
  | .fwUpdate .. => [.regs, .boot, .raises]
  | .productComplete .. => [.regs, .facets, .arrs, .larrs]
  | .outlierRowRead .. => [.regs, .facets, .larrs, .outJobs]
  | .exceptionSettle .. => [.regs, .facets, .noc]
  | .descriptorArrive .. => [.regs, .facets, .regions, .serve]
  | .cperResend .. => [.regs, .faults, .out]
  | .delayMeasure .. => [.regs, .free]
  | .converterFenceApply .. => [.regs, .hbm, .arrs, .faults, .raises]
  | .bindingApply .. => [.regs, .hbm, .arrs, .larrs, .staged, .faults, .raises]
  | .loaderJobEnd .. => [.regs, .hbm, .arrs, .larrs, .staged, .loader, .faults, .hub, .raises]
  | .refreshRebind .. => [.regs, .hbm, .arrs, .larrs, .staged, .regions, .faults, .raises]
  | .rowWriteCycle .. => [.regs, .hbm, .arrs, .larrs, .staged, .regions, .loader, .faults, .raises]
  | .refreshComplete .. => [.regs, .hbm, .arrs, .staged, .regions, .faults, .raises]
  | .sensorRound .. => [.regs, .hbm, .facets, .arrs, .regions, .loader, .faults, .noc, .serve, .raises]
  | .fltFenceWrite ..
    => [.regs, .hbm, .facets, .arrs, .staged, .regions, .loader, .faults, .vault, .boot, .link, .noc, .serve, .ctl, .raises, .out]
  | .railPgRise ..
    => [.regs, .hbm, .facets, .arrs, .staged, .regions, .loader, .faults, .vault, .boot, .link, .power, .noc, .serve, .ctl, .raises, .out]
  | .windowRead .. => [.regs, .hbm, .facets, .faults, .raises, .out]
  | .outlierGoldRow .. => [.regs, .hbm, .facets, .larrs, .outJobs, .faults, .raises]
  | .movementOpComplete .. => [.regs, .hbm, .facets, .regions, .faults, .noc, .serve, .raises, .free]
  | .windowWrite .. => [.regs, .hbm, .facets, .regions, .faults, .raises]
  | .d2dLaneFailure .. => [.regs, .hbm, .facets, .staged, .regions, .faults, .vault, .noc, .serve, .raises]
  | .bootJump .. => [.regs, .hbm, .faults, .boot, .power, .hub, .raises, .out]
  | .hbmChannelRetrainFail .. => [.regs, .hbm, .faults, .raises]
  | .kvPoolEnable .. => [.regs, .hbm, .kv]
  | .laneReplace .. => [.regs, .hbm, .loader, .faults, .link, .noc, .raises]
  | .mcast .. => [.regs, .hbm, .loader, .faults, .link, .noc, .raises, .out]
  | .copy .. => [.regs, .hbm, .loader, .faults, .raises]
  | .msgWrite .. => [.regs, .hbm, .loader, .link, .noc, .out]
  | .tokenCommit .. => [.regs, .hbm, .noc, .serve, .kv, .hub, .raises, .free]
  | .frameToSoftware .. => [.regs, .hbm, .raises]
  | .netTxSend .. => [.regs, .hbm, .raises, .out]
  | .stepFailedReport .. => [.regs, .hbm, .regions, .noc, .serve, .kv, .hub, .raises]
  | .verifySample .. => [.regs, .hbm, .regions, .noc, .serve, .kv, .hub, .raises, .free]
  | .secCmdComplete .. => [.regs, .hbm, .sec, .raises]
  | .formStep .. => [.regs, .hbm, .serve, .kv, .free]
  | .serviceDisable .. => [.regs, .hbm, .serve, .kv, .hub, .raises]
  | .tokenizeBlock .. => [.regs, .hbm, .serve, .kv, .hub, .raises, .free]
  | .submit .. => [.regs, .hbm, .serve, .kv, .hub, .raises, .out]
  | .swEntryQueue .. => [.regs, .hbm, .serve, .raises]
  | .eventRaise .. => [.regs, .hub, .ctl, .raises, .out]
  | .kvPoolDisable .. => [.regs, .kv]
  | .arrMapWrite .. => [.regs, .larrs, .raises]
  | .timeSendTick .. => [.regs, .link, .out]
  | .linkPortEnable .. => [.regs, .loader, .link, .noc]
  | .linkTrainDone .. => [.regs, .loader, .link, .noc, .raises]
  | .plantSensorLost .. => [.regs, .plant, .power, .raises, .out]
  | .railPoll .. => [.regs, .power, .raises]
  | .vfacSettled .. => [.regs, .regions, .power, .raises]
  | .fclkChange .. => [.regs, .regions, .raises, .out]
  | .nonceDraw .. => [.regs, .sec, .out]
  | .eraseComplete .. => [.regs, .sec, .raises]
  | .budCfgWrite .. => [.regs, .serve]
  | .deadlineExpire .. => [.regs, .serve, .hub, .raises]
  | .epochSwitchDone .. => [.regs, .serve, .kv, .hub, .raises]
  | .swTreeWrite .. => [.regs, .serve, .raises]
  | .bareAckTimer .. => [.serve, .out]
  | .tapReset .. => [.tap]

/-- The slot a command presents, where it presents one. -/
def slotOf : Instr → Option Hdr
  | .nop h | .br h _ | .loop h _ _ | .halt h | .add h _ _ _ | .sub h _ _ _ | .and h _ _ _ | .or h _ _ _ | .xor h _ _ _
  | .shl h _ _ _ | .shr h _ _ _ | .sra h _ _ _ | .mul h _ _ _ | .mulhu h _ _ _ | .div h _ _ _ | .divu h _ _ _ | .rem h _ _ _
  | .remu h _ _ _ | .min h _ _ _ | .max h _ _ _ | .minu h _ _ _ | .maxu h _ _ _ | .addi h _ _ _ | .andi h _ _ _
  | .ori h _ _ _ | .xori h _ _ _ | .shli h _ _ _ | .shri h _ _ _ | .srai h _ _ _ | .muli h _ _ _ | .li h _ _ | .lis h _ _
  | .lih h _ _ | .cmp h _ _ _ _ | .cmpi h _ _ _ _ | .plog h _ _ _ _ | .ld h _ _ _ _ _ | .st h _ _ _ _ _ | .rdc h _ _
  | .vld h _ _ _ | .vst h _ _ _ | .vadd h _ _ _ _ | .vsub h _ _ _ _ | .vmul h _ _ _ _ | .vfma h _ _ _ _ _ | .vmax h _ _ _ _
  | .vmin h _ _ _ _ | .vabs h _ _ _ | .vneg h _ _ _ | .vbcs h _ _ _ | .vsel h _ _ _ _ _ | .vcmp h _ _ _ _ _ | .vexp2 h _ _ _
  | .vrcp h _ _ _ | .vrsqrt h _ _ _ | .vact h _ _ _ _ | .vred h _ _ _ _ _ | .vcvt h _ _ _ _ _ | .vquant h _ _ _ _ _ _ _
  | .vmovs h _ _ _ _ | .vwatch h _ _ _ _ | .hset h _ _ | .aiss h _ _ _ _ _ _ _ _ | .adrnv h _ _ _ _ _ _ | .adrnm h _ _ _ _
  | .tmm h _ _ _ _ _ _ _ _ _ _ _ _ | .tclr h _ | .tdrnv h _ _ _ _ _ | .tdrnm h _ _ _ _ _ | .tmsk h _ | .mcpy h _ _ _ _ _ _
  | .mpage h _ _ _ _ _ | .mdec h _ _ _ _ | .mwait h _ | .step h _ _ | .scommit h | .send h _ _ _ _ | .recv h _ _ _ _ _
  | .sout h _ _ _ _ | .bar h _ _ => some h
  | _ => none

/-- The bundle a facet is presenting, with the slot `h` still to come. -/
def openBundle (s : State) (pf : Nat) : Bundle := (s.facet pf).bundle

/-- The register destinations that count: S0 and P0 take no write (R168). -/
def realDests (dests : List (Nat × Nat)) : List (Nat × Nat) :=
  dests.filter (fun d => !(decide (d.1 ≤ 1) && decide (d.2 = 0)))

/-- A slot executes (R178 to R183): the facet issues, its bundle lies in the loaded program and reads without error, the slot's
class takes the instruction, no destination is named twice, and the guard is ready, true and not poisoned. -/
def SlotGoes (h : Hdr) (cls : List Nat) (dests : List (Nat × Nat)) (s : State) : Prop :=
  let c := (s.facet h.pf).core
  s.issuing h.pf = true ∧ c.pc < c.nBundles ∧ c.imemUe.contains c.pc = false ∧ cls.contains h.slot = true
    ∧ (realDests dests).any (fun d => (openBundle s h.pf).dests.contains d) = false
    ∧ c.pendP h.pred = none ∧ (c.recvBad.contains h.pred = true → h.pred = 0)
    ∧ (c.rdP h.pred).p = false ∧ (c.rdP h.pred).v ≠ h.pneg

/-- The open bundle after a slot that met nothing: its working core is `w`. -/
def slotBundle (h : Hdr) (dests : List (Nat × Nat)) (w : FCore) (s : State) : Bundle :=
  { openBundle s h.pf with work := w, dests := (openBundle s h.pf).dests ++ realDests dests, slots := (openBundle s h.pf).slots + 1 }

/-- The state after such a slot: the bundle stays open, or, after its last slot, ends. -/
def slotDone (h : Hdr) (dests : List (Nat × Nat)) (w : FCore) (s : State) : State :=
  if h.last then finishBundle s h.pf (slotBundle h dests w s)
  else s.setFacet h.pf { s.facet h.pf with bun := some (slotBundle h dests w s) }

/-- The state after a slot that raises the cause `code` (R191): nothing of the slot takes effect, and with the bundle's last slot the
bundle ends. -/
def slotRaises (h : Hdr) (dests : List (Nat × Nat)) (code : Nat) (s : State) : State :=
  let b := { slotBundle h dests (openBundle s h.pf).work s with excs := (openBundle s h.pf).excs ++ [(code, h.slot)] }
  if h.last then finishBundle s h.pf b else s.setFacet h.pf { s.facet h.pf with bun := some b }

/-- No register of a list is waited for. -/
def NoWait (l : List (Option Nat)) : Prop := firstWait l = none

end Sys2Proof.Machine
end

