-- ==== Sys2Proof/WellFormed.lean ====
section
/-! DEFINITION. When a command is well formed: each operand within the range the spec gives it. -/

namespace Sys2Proof

/-- A slot's header: a facet of the package, one of eight slots, one of sixteen predicates (R166, R177). -/
def Hdr.wf (h : Hdr) : Bool := decide (h.pf < 816) && decide (h.slot < 8) && decide (h.pred < 16)

/-- A command whose operands lie within their ranges: a physical facet below 816 (R5), a physical array below
132 (R102), a region below 48 (R5), a service below 64, an entry below 8,192 (R353), a channel below 4,096 (R340), a customer
below 1,024 (R388), a key slot below 8,192 (R517), an event source below 4,096 (R421), a package sensor or a rail below 12 (R536,
R543), a lane of a port below 9 (R486), an HBM channel of a stack below 16 (R451), a system facet below 2^25 (R484), a logical core
below 16, a register's value below 2^64, an instruction's field within its width (R177 to R250). -/
def Instr.wf : Instr → Bool
  | .productStart pf arr => decide (pf < 816) && decide (arr < 132)
  | .planeComplete pf arr _ _ _ => decide (pf < 816) && decide (arr < 132)
  | .productComplete pf arr => decide (pf < 816) && decide (arr < 132)
  | .drainRequestLatch pf _ => decide (pf < 816)
  | .drainVectorReturn pf _ => decide (pf < 816)
  | .arrMapWrite pf n value => decide (pf < 816) && decide (n < 128) && decide (value < 2 ^ 64)
  | .bindingApply pf n => decide (pf < 816) && decide (n < 128)
  | .apCeilingWrite pf value => decide (pf < 816) && decide (value < 2 ^ 64)
  | .arrWinSelWrite pf value => decide (pf < 816) && decide (value < 2 ^ 64)
  | .convMapWrite pf n value => decide (pf < 816) && decide (n < 256) && decide (value < 2 ^ 64)
  | .convMapApply pf arr => decide (pf < 816) && decide (arr < 132)
  | .convFenceWrite pf n => decide (pf < 816) && decide (n < 264)
  | .converterFenceApply pf arr => decide (pf < 816) && decide (arr < 132)
  | .replayComplete pf arr _ => decide (pf < 816) && decide (arr < 132)
  | .exactFallbackStart pf arr => decide (pf < 816) && decide (arr < 132)
  | .exactFallbackDone pf arr => decide (pf < 816) && decide (arr < 132)
  | .outlierRowRead pf _ _ => decide (pf < 816)
  | .outlierGoldRow pf => decide (pf < 816)
  | .chkWinSelWrite pf value => decide (pf < 816) && decide (value < 2 ^ 64)
  | .checkWindowWrite pf word value => decide (pf < 816) && decide (word < 384) && decide (value < 2 ^ 64)
  | .facLoadGo pf => decide (pf < 816)
  | .facLoadDone pf => decide (pf < 816)
  | .facRun pf => decide (pf < 816)
  | .facStop pf => decide (pf < 816)
  | .facReset pf => decide (pf < 816)
  | .facBindWrite pf value => decide (pf < 816) && decide (value < 2 ^ 64)
  | .facEpochWrite pf value => decide (pf < 816) && decide (value < 2 ^ 64)
  | .windowRead addr n => decide (addr < 2 ^ 64) && decide (n < 2 ^ 32)
  | .windowWrite addr _ _ => decide (addr < 2 ^ 64)
  | .exception pf slot cause => decide (pf < 816) && decide (slot < 8) && decide (cause < 256)
  | .exceptionSettle pf => decide (pf < 816)
  | .nop h => h.wf
  | .br h target => h.wf && decide (target < 8192)
  | .loop h cnt last => h.wf && decide (cnt < 64) && decide (last < 8192)
  | .halt h => h.wf
  | .add h rd ra rb => h.wf && decide (rd < 64) && decide (ra < 64) && decide (rb < 64)
  | .sub h rd ra rb => h.wf && decide (rd < 64) && decide (ra < 64) && decide (rb < 64)
  | .and h rd ra rb => h.wf && decide (rd < 64) && decide (ra < 64) && decide (rb < 64)
  | .or h rd ra rb => h.wf && decide (rd < 64) && decide (ra < 64) && decide (rb < 64)
  | .xor h rd ra rb => h.wf && decide (rd < 64) && decide (ra < 64) && decide (rb < 64)
  | .shl h rd ra rb => h.wf && decide (rd < 64) && decide (ra < 64) && decide (rb < 64)
  | .shr h rd ra rb => h.wf && decide (rd < 64) && decide (ra < 64) && decide (rb < 64)
  | .sra h rd ra rb => h.wf && decide (rd < 64) && decide (ra < 64) && decide (rb < 64)
  | .mul h rd ra rb => h.wf && decide (rd < 64) && decide (ra < 64) && decide (rb < 64)
  | .mulhu h rd ra rb => h.wf && decide (rd < 64) && decide (ra < 64) && decide (rb < 64)
  | .div h rd ra rb => h.wf && decide (rd < 64) && decide (ra < 64) && decide (rb < 64)
  | .divu h rd ra rb => h.wf && decide (rd < 64) && decide (ra < 64) && decide (rb < 64)
  | .rem h rd ra rb => h.wf && decide (rd < 64) && decide (ra < 64) && decide (rb < 64)
  | .remu h rd ra rb => h.wf && decide (rd < 64) && decide (ra < 64) && decide (rb < 64)
  | .min h rd ra rb => h.wf && decide (rd < 64) && decide (ra < 64) && decide (rb < 64)
  | .max h rd ra rb => h.wf && decide (rd < 64) && decide (ra < 64) && decide (rb < 64)
  | .minu h rd ra rb => h.wf && decide (rd < 64) && decide (ra < 64) && decide (rb < 64)
  | .maxu h rd ra rb => h.wf && decide (rd < 64) && decide (ra < 64) && decide (rb < 64)
  | .addi h rd ra imm => h.wf && decide (rd < 64) && decide (ra < 64) && decide (imm < 2 ^ 32)
  | .andi h rd ra imm => h.wf && decide (rd < 64) && decide (ra < 64) && decide (imm < 2 ^ 32)
  | .ori h rd ra imm => h.wf && decide (rd < 64) && decide (ra < 64) && decide (imm < 2 ^ 32)
  | .xori h rd ra imm => h.wf && decide (rd < 64) && decide (ra < 64) && decide (imm < 2 ^ 32)
  | .shli h rd ra imm => h.wf && decide (rd < 64) && decide (ra < 64) && decide (imm < 2 ^ 32)
  | .shri h rd ra imm => h.wf && decide (rd < 64) && decide (ra < 64) && decide (imm < 2 ^ 32)
  | .srai h rd ra imm => h.wf && decide (rd < 64) && decide (ra < 64) && decide (imm < 2 ^ 32)
  | .muli h rd ra imm => h.wf && decide (rd < 64) && decide (ra < 64) && decide (imm < 2 ^ 32)
  | .li h rd imm => h.wf && decide (rd < 64) && decide (imm < 2 ^ 47)
  | .lis h rd imm => h.wf && decide (rd < 64) && decide (imm < 2 ^ 47)
  | .lih h rd imm => h.wf && decide (rd < 64) && decide (imm < 2 ^ 17)
  | .cmp h pd ra rb cond => h.wf && decide (pd < 16) && decide (ra < 64) && decide (rb < 64) && decide (cond < 16)
  | .cmpi h pd ra cond imm => h.wf && decide (pd < 16) && decide (ra < 64) && decide (cond < 16) && decide (imm < 2 ^ 32)
  | .plog h pd pa pb table => h.wf && decide (pd < 16) && decide (pa < 16) && decide (pb < 16) && decide (table < 16)
  | .ld h rt ra size _ imm => h.wf && decide (rt < 64) && decide (ra < 64) && decide (size < 4) && decide (imm < 2 ^ 24)
  | .st h rt ra size _ imm => h.wf && decide (rt < 64) && decide (ra < 64) && decide (size < 4) && decide (imm < 2 ^ 24)
  | .rdc h rd sel => h.wf && decide (rd < 64) && decide (sel < 8)
  | .vld h v ra imm => h.wf && decide (v < 32) && decide (ra < 64) && decide (imm < 2 ^ 24)
  | .vst h v ra imm => h.wf && decide (v < 32) && decide (ra < 64) && decide (imm < 2 ^ 24)
  | .vadd h vd va vb typ => h.wf && decide (vd < 32) && decide (va < 32) && decide (vb < 32) && decide (typ < 16)
  | .vsub h vd va vb typ => h.wf && decide (vd < 32) && decide (va < 32) && decide (vb < 32) && decide (typ < 16)
  | .vmul h vd va vb typ => h.wf && decide (vd < 32) && decide (va < 32) && decide (vb < 32) && decide (typ < 16)
  | .vfma h vd va vb vc typ => h.wf && decide (vd < 32) && decide (va < 32) && decide (vb < 32) && decide (vc < 32) && decide (typ < 16)
  | .vmax h vd va vb typ => h.wf && decide (vd < 32) && decide (va < 32) && decide (vb < 32) && decide (typ < 16)
  | .vmin h vd va vb typ => h.wf && decide (vd < 32) && decide (va < 32) && decide (vb < 32) && decide (typ < 16)
  | .vabs h vd va typ => h.wf && decide (vd < 32) && decide (va < 32) && decide (typ < 16)
  | .vneg h vd va typ => h.wf && decide (vd < 32) && decide (va < 32) && decide (typ < 16)
  | .vbcs h vd ra typ => h.wf && decide (vd < 32) && decide (ra < 64) && decide (typ < 16)
  | .vsel h vd va vb vc typ => h.wf && decide (vd < 32) && decide (va < 32) && decide (vb < 32) && decide (vc < 32) && decide (typ < 16)
  | .vcmp h vd va vb typ cond => h.wf && decide (vd < 32) && decide (va < 32) && decide (vb < 32) && decide (typ < 16) && decide (cond < 16)
  | .vexp2 h vd va typ => h.wf && decide (vd < 32) && decide (va < 32) && decide (typ < 16)
  | .vrcp h vd va typ => h.wf && decide (vd < 32) && decide (va < 32) && decide (typ < 16)
  | .vrsqrt h vd va typ => h.wf && decide (vd < 32) && decide (va < 32) && decide (typ < 16)
  | .vact h vd va typ table => h.wf && decide (vd < 32) && decide (va < 32) && decide (typ < 16) && decide (table < 16)
  | .vred h vd va typ op seg => h.wf && decide (vd < 32) && decide (va < 32) && decide (typ < 16) && decide (op < 4) && decide (seg < 8)
  | .vcvt h vd va sf df half => h.wf && decide (vd < 32) && decide (va < 32) && decide (sf < 16) && decide (df < 16) && decide (half < 2)
  | .vquant h vd va vx sd df _ kc => h.wf && decide (vd < 32) && decide (va < 32) && decide (vx < 32) && decide (sd < 64) && decide (df < 16) && decide (kc < 4)
  | .vmovs h rd va lane _ => h.wf && decide (rd < 64) && decide (va < 32) && decide (lane < 128)
  | .vwatch h va layer _ _ => h.wf && decide (va < 32) && decide (layer < 128)
  | .hset h hd ra => h.wf && decide (hd < 16) && decide (ra < 64)
  | .aiss h hn vs ss bank _ _ kc vo => h.wf && decide (hn < 16) && decide (vs < 32) && decide (ss < 64) && decide (bank < 2) && decide (kc < 4) && decide (vo < 32)
  | .adrnv h vd hn tile bank _ sd => h.wf && decide (vd < 32) && decide (hn < 16) && decide (tile < 128) && decide (bank < 2) && decide (sd < 64)
  | .adrnm h hn bank _ ra => h.wf && decide (hn < 16) && decide (bank < 2) && decide (ra < 64)
  | .tmm h td fa fb _ _ sa sb sk m n _ rk => h.wf && decide (td < 4) && decide (fa < 16) && decide (fb < 16) && decide (sa < 64) && decide (sb < 64) && decide (sk < 64) && decide (1 ≤ m) && decide (m ≤ 32) && decide (1 ≤ n) && decide (n ≤ 64) && decide (rk < 64)
  | .tclr h td => h.wf && decide (td < 4)
  | .tdrnv h vd td df rows _ => h.wf && decide (vd < 32) && decide (td < 4) && decide (df < 16) && decide (1 ≤ rows) && decide (rows ≤ 32)
  | .tdrnm h ra td df rows _ => h.wf && decide (ra < 64) && decide (td < 4) && decide (df < 16) && decide (1 ≤ rows) && decide (rows ≤ 32)
  | .tmsk h vs => h.wf && decide (vs < 32)
  | .mcpy h tag dir _ rl rr rn => h.wf && decide (tag < 16) && decide (dir < 4) && decide (rl < 64) && decide (rr < 64) && decide (rn < 64)
  | .mpage h tag dir _ rl vdesc => h.wf && decide (tag < 16) && decide (dir < 2) && decide (rl < 64) && decide (vdesc < 32)
  | .mdec h tag rs rd rn => h.wf && decide (tag < 16) && decide (rs < 64) && decide (rd < 64) && decide (rn < 64)
  | .mwait h mask => h.wf && decide (mask < 65536)
  | .step h vd rd => h.wf && decide (vd < 32) && decide (rd < 64)
  | .scommit h => h.wf
  | .send h rl ra rn chan => h.wf && decide (rl < 64) && decide (ra < 64) && decide (rn < 64) && decide (chan < 16)
  | .recv h pd ra rn rs chan => h.wf && decide (pd < 16) && decide (ra < 64) && decide (rn < 64) && decide (rs < 64) && decide (chan < 16)
  | .sout h re ra rn ro => h.wf && decide (re < 64) && decide (ra < 64) && decide (rn < 64) && decide (ro < 64)
  | .bar h id rn => h.wf && decide (id < 16) && decide (rn < 64)
  | .tensorOpBegin pf => decide (pf < 816)
  | .tmmComplete pf _ _ => decide (pf < 816)
  | .shadowReplayDone pf _ => decide (pf < 816)
  | .tileDrainComplete pf _ => decide (pf < 816)
  | .movementOpComplete pf _ => decide (pf < 816)
  | .prismBlockDecode pf reader => decide (pf < 816) && decide (reader < 2)
  | .messageArrive pf src chan => decide (pf < 816) && decide (src < 2 ^ 25) && decide (chan < 16)
  | .sendCreditReturn pf _ => decide (pf < 816)
  | .barrierRelease service id stepNo => decide (service < 64) && decide (id < 16) && decide (stepNo < 2 ^ 48)
  | .acc16CtlWrite pf value => decide (pf < 816) && decide (value < 2 ^ 64)
  | .tenShadowWrite pf value => decide (pf < 816) && decide (value < 2 ^ 64)
  | .sigWindowRelease pf => decide (pf < 816)
  | .trimRecompute g => decide (g < 48)
  | .trimApply pf arr => decide (pf < 816) && decide (arr < 132)
  | .calRunStart g => decide (g < 48)
  | .calRunTimeout g => decide (g < 48)
  | .calWindowFull pf arr conv => decide (pf < 816) && decide (arr < 132) && decide (conv < 264)
  | .shadowWindowStart pf arr => decide (pf < 816) && decide (arr < 132)
  | .calAttemptEnd pf arr conv => decide (pf < 816) && decide (arr < 132) && decide (conv < 264)
  | .calStartWrite g => decide (g < 48)
  | .calStoreWrite pf arr conv => decide (pf < 816) && decide (arr < 132) && decide (conv < 264)
  | .arrayScanEnd pf arr _ => decide (pf < 816) && decide (arr < 132)
  | .refreshStart pf arr => decide (pf < 816) && decide (arr < 132)
  | .refreshRebind pf arr => decide (pf < 816) && decide (arr < 132)
  | .refreshComplete pf arr _ => decide (pf < 816) && decide (arr < 132)
  | .rowWriteCycle pf arr _ _ => decide (pf < 816) && decide (arr < 132)
  | .writeWindowResume pf arr => decide (pf < 816) && decide (arr < 132)
  | .copy => true
  | .mcast => true
  | .awriteDirect => true
  | .awriteRebind => true
  | .loaderJobEnd _ => true
  | .registerWrite addr value => decide (addr < 2 ^ 64) && decide (value < 2 ^ 64)
  | .submit _ pick => decide (pick < 8192)
  | .cancel _ => true
  | .clientBareAck _ => true
  | .asmTimeout e => decide (e < 8192)
  | .tokenizeBlock hub => decide (hub < 2)
  | .formStep service => decide (service < 64)
  | .copyOnWrite _ => true
  | .descriptorArrive pf => decide (pf < 816)
  | .kvWriteCompletion service stepNo => decide (service < 64) && decide (stepNo < 2 ^ 48)
  | .sealImageDone _ => true
  | .sealSwap _ => true
  | .scommitReport lf stepNo => decide (lf < 1024) && decide (stepNo < 2 ^ 48)
  | .stepFailedReport lf stepNo => decide (lf < 1024) && decide (stepNo < 2 ^ 48)
  | .soutLogits pf e => decide (pf < 816) && decide (e < 8192)
  | .tokenCommit e => decide (e < 8192)
  | .verifySample e => decide (e < 8192)
  | .commitCopy _ => true
  | .egressTokens e => decide (e < 8192)
  | .egressEnd e => decide (e < 8192)
  | .bareAckTimer ch => decide (ch < 4096)
  | .retransmitTimer ch => decide (ch < 4096)
  | .channelEnable ch _ => decide (ch < 4096)
  | .swEntryQueue e _ => decide (e < 8192)
  | .swEntryCancel e => decide (e < 8192)
  | .swEntryRelease e => decide (e < 8192)
  | .swTreeWrite e n => decide (e < 8192) && decide (n < 256)
  | .deadlineExpire e => decide (e < 8192)
  | .pageGrant e => decide (e < 8192)
  | .pageWaitTimer e => decide (e < 8192)
  | .resumePreempted e => decide (e < 8192)
  | .serviceEnable service => decide (service < 64)
  | .admissionDone service _ => decide (service < 64)
  | .svcReadmit service => decide (service < 64)
  | .serviceDisable service => decide (service < 64)
  | .svcStop service => decide (service < 64)
  | .budCfgWrite c value => decide (c < 1024) && decide (value < 2 ^ 64)
  | .fclkChange region => decide (region < 48)
  | .regionClkWrite region value => decide (region < 48) && decide (value < 2 ^ 64)
  | .refclkFail => true
  | .populationRefresh _ _ => true
  | .arbiterGrant _ _ => true
  | .nwClear service => decide (service < 64)
  | .kvPoolEnable service => decide (service < 64)
  | .kvPoolDisable service => decide (service < 64)
  | .kvPoolStrideWrite service value => decide (service < 64) && decide (value < 2 ^ 64)
  | .codedSectorRead kind num addr => decide (kind < 3) && decide (num < 816) && decide (addr < 2 ^ 40)
  | .prismRangeEnable stack range value => decide (stack < 8) && decide (range < 8) && decide (value < 2 ^ 64)
  | .epochSwitch service => decide (service < 64)
  | .epochSwitchDone service _ => decide (service < 64)
  | .epochRetire service => decide (service < 64)
  | .lfMapWrite n value => decide (n < 768) && decide (value < 2 ^ 64)
  | .eventRaise _ => true
  | .coalTimer _ => true
  | .interruptDeliver lc _ _ => decide (lc < 16)
  | .evClaim lc => decide (lc < 16)
  | .evClaimf lc => decide (lc < 16)
  | .vectorAccept lc _ => decide (lc < 16)
  | .evComplete lc n => decide (lc < 16) && decide (n < 0x1040)
  | .evRaiseWrite value => decide (value < 2 ^ 64)
  | .evSrcWrite n value => decide (n < 4096) && decide (value < 2 ^ 64)
  | .bootRomStart h _ => decide (h < 2)
  | .bootSourceRound h _ => decide (h < 2)
  | .bootRetryTimer h => decide (h < 2)
  | .spiPinTakeover => true
  | .hubBBootTimeout => true
  | .bootJump h => decide (h < 2)
  | .coreStart value => decide (value < 2 ^ 64)
  | .coreHandover value => decide (value < 2 ^ 64)
  | .fwUpdate value => decide (value < 2 ^ 64)
  | .fwUpdateStandby => true
  | .coreEccError p _ => decide (p < 20)
  | .fltFenceWrite value => decide (value < 2 ^ 64)
  | .mapAppendTimeout => true
  | .mrRunStart g => decide (g < 48)
  | .mrSnapshotDone g => decide (g < 48)
  | .mrMirrorStepEnd g _ _ _ => decide (g < 48)
  | .mrReplayDone g _ _ => decide (g < 48)
  | .fltInjArm value => decide (value < 2 ^ 64)
  | .cperExport => true
  | .cperResend value => decide (value < 2 ^ 64)
  | .vaultWrite => true
  | .vaultRebuild => true
  | .linkPortEnable p value => decide (p < 12) && decide (value < 2 ^ 64)
  | .linkTrainDone p _ peer peerPort ident => decide (p < 12) && decide (peer < 256) && decide (peerPort < 16) && decide (ident < 2 ^ 64)
  | .laneReplace p lane => decide (p < 12) && decide (lane < 9)
  | .flitReceive p _ _ => decide (p < 12)
  | .linkReplayTimer p => decide (p < 12)
  | .msgWrite => true
  | .msgSend => true
  | .msgResp => true
  | .msgTime => true
  | .msgBarArrive => true
  | .msgBarRelease => true
  | .msgBarFail => true
  | .timeSendTick p => decide (p < 12)
  | .delayMeasure p rtt => decide (p < 12) && decide (rtt < 2 ^ 32)
  | .msgIncompleteTimeout p vc => decide (p < 12) && decide (vc < 8)
  | .barArm value => decide (value < 2 ^ 64)
  | .barLocalRelease => true
  | .barTimer => true
  | .linkCfgWrite value => decide (value < 2 ^ 64)
  | .nonceDraw => true
  | .attest => true
  | .enroll => true
  | .svnCommit => true
  | .unlock => true
  | .owner => true
  | .secCmdComplete => true
  | .pufUnwrap _ => true
  | .keyCommit slot => decide (slot < 8192)
  | .keyClear slot => decide (slot < 8192)
  | .sensorAlarm n _ => decide (n < 13)
  | .eraseComplete => true
  | .secAlarmClassWrite n value => decide (n < 13) && decide (value < 2 ^ 64)
  | .d2dChallenge h _ => decide (h < 2)
  | .sensorRound g _ => decide (g < 48)
  | .throttleTick g => decide (g < 48)
  | .pkgSensorTrip n _ => decide (n < 12)
  | .pkgTripRestart _ => true
  | .hbmTemp k _ _ => decide (k < 8)
  | .plantStep _ => true
  | .plantEnWrite value => decide (value < 2 ^ 64)
  | .plantSensorRead _ _ => true
  | .plantSensorLost => true
  | .flowWindow pulses => decide (pulses < 65536)
  | .powerForecast => true
  | .railPoll n _ => decide (n < 12)
  | .vfacSetpointRaise d => decide (d < 4)
  | .vfacSettled d _ => decide (d < 4)
  | .boostDecision g => decide (g < 48)
  | .porstAssert _ => true
  | .porstRelease => true
  | .railPgRise n => decide (n < 12)
  | .railPgTimeout n => decide (n < 12)
  | .railPgDrop n _ => decide (n < 12)
  | .seqRestartTimer => true
  | .timeInEdge _ => true
  | .frameToSoftware p _ _ _ => decide (p < 3)
  | .netTxSend _ => true
  | .sportEnable q value lanes => decide (q < 2) && decide (value < 2 ^ 64) && decide (lanes < 16)
  | .pcieInbound h addr n _ _ => decide (h < 2) && decide (addr < 2 ^ 64) && decide (n < 4097)
  | .pcieObAccess h _ _ => decide (h < 2)
  | .tapBypass => true
  | .tapIdcode => true
  | .tapSamplePreload _ _ => true
  | .tapExtest _ _ => true
  | .tapClamp => true
  | .tapHighz => true
  | .tapReset => true
  | .loupeTrigIn => true
  | .loupeSample => true
  | .vddAonLoss => true
  | .hubLinkLoss h => decide (h < 2)
  | .d2dLaneFailure die hub _ _ => decide (die < 4) && decide (hub < 2)
  | .hbmChannelRetrainFail k c => decide (k < 8) && decide (c < 16)
  | .mgmtPortEnable value _ => decide (value < 2 ^ 64)
  | .pcieEnable h value _ _ => decide (h < 2) && decide (value < 2 ^ 64)

end Sys2Proof
end

