-- ==== Sys2Proof/Certificates/Slice0/Obligations.lean ====
section
/-! DEFINITION. The statements for the provers: each formalises what its docstring cites. -/

open Sys2Proof Sys2Proof.Machine

/-- O: R215, R216, R190, R209, R214: what the register forms of the scalar slots compute, modulo 2^64; a result is poisoned when a
source is.  A shift takes bits 5:0 of its count; a poisoned count raises POISON_CTL and writes nothing.  The immediate forms:
imm32 sign-extended, a shift count of 0 to 63; imm47 zero- or sign-extended; imm17 above the low 47 bits of rd. -/
def Obligations.ScalarResults : Prop :=
  (∀ (h : Hdr) (rd ra rb : Nat) (s : State), SlotGoes h [1, 2] [(0, rd)] s →
      let c := (s.facet h.pf).core
      NoWait [c.pendS ra, c.pendS rb, c.pendS rd] →
      let a := (c.rdS ra).v
      let b := (c.rdS rb).v
      let p := (c.rdS ra).p || (c.rdS rb).p
      let gives := fun (i : Instr) (x : Word64) =>
        exec i s = .next (slotDone h [(0, rd)] ((openBundle s h.pf).work.wrS rd ⟨x, p⟩) s)
      gives (.add h rd ra rb) (a + b) ∧ gives (.sub h rd ra rb) (a - b) ∧ gives (.and h rd ra rb) (a &&& b)
      ∧ gives (.or h rd ra rb) (a ||| b) ∧ gives (.xor h rd ra rb) (a ^^^ b) ∧ gives (.mul h rd ra rb) (a * b)
      ∧ gives (.mulhu h rd ra rb) ((a.zeroExtend 128 * b.zeroExtend 128).extractLsb' 64 64)
      ∧ gives (.div h rd ra rb) (if b = 0 then BitVec.allOnes 64 else a.sdiv b)
      ∧ gives (.divu h rd ra rb) (if b = 0 then BitVec.allOnes 64 else a.udiv b)
      ∧ gives (.rem h rd ra rb) (if b = 0 then a else a.srem b)
      ∧ gives (.remu h rd ra rb) (if b = 0 then a else a.umod b)
      ∧ gives (.min h rd ra rb) (if a.sle b then a else b) ∧ gives (.max h rd ra rb) (if a.sle b then b else a)
      ∧ gives (.minu h rd ra rb) (if a.ule b then a else b) ∧ gives (.maxu h rd ra rb) (if a.ule b then b else a))
  ∧ (∀ (h : Hdr) (rd ra rb : Nat) (s : State), SlotGoes h [1, 2] [(0, rd)] s →
      let c := (s.facet h.pf).core
      NoWait [c.pendS ra, c.pendS rb, c.pendS rd] →
      let a := (c.rdS ra).v
      let n := (c.rdS rb).v.toNat % 64
      let w := (openBundle s h.pf).work
      let gives := fun (i : Instr) (x : Word64) =>
        ((c.rdS rb).p = false → exec i s = .next (slotDone h [(0, rd)] (w.wrS rd ⟨x, (c.rdS ra).p⟩) s))
        ∧ ((c.rdS rb).p = true → exec i s = .next (slotRaises h [(0, rd)] 6 s))
      gives (.shl h rd ra rb) (a <<< n) ∧ gives (.shr h rd ra rb) (a >>> n) ∧ gives (.sra h rd ra rb) (a.sshiftRight n))
  ∧ (∀ (h : Hdr) (rd ra imm : Nat) (s : State), SlotGoes h [1, 2] [(0, rd)] s →
      let c := (s.facet h.pf).core
      NoWait [c.pendS ra, c.pendS rd] → NoWait [c.pendS rd] →
      let a := (c.rdS ra).v
      let w := (openBundle s h.pf).work
      let p := (c.rdS ra).p
      let gives := fun (i : Instr) (x : Word64) (p : Bool) => exec i s = .next (slotDone h [(0, rd)] (w.wrS rd ⟨x, p⟩) s)
      let i32 := (BitVec.ofNat 32 imm).signExtend 64
      gives (.addi h rd ra imm) (a + i32) p ∧ gives (.andi h rd ra imm) (a &&& i32) p ∧ gives (.ori h rd ra imm) (a ||| i32) p
      ∧ gives (.xori h rd ra imm) (a ^^^ i32) p ∧ gives (.muli h rd ra imm) (a * i32) p
      ∧ (imm < 64 → gives (.shli h rd ra imm) (a <<< imm) p ∧ gives (.shri h rd ra imm) (a >>> imm) p
          ∧ gives (.srai h rd ra imm) (a.sshiftRight imm) p)
      ∧ gives (.li h rd imm) ((BitVec.ofNat 47 imm).zeroExtend 64) false
      ∧ gives (.lis h rd imm) ((BitVec.ofNat 47 imm).signExtend 64) false
      ∧ gives (.lih h rd imm) (BitVec.ofNat 17 imm ++ (c.rdS rd).v.extractLsb' 0 47) (c.rdS rd).p)

/-- O: R217: comparisons and the truth table of PLOG; the codes from 6 on raise ILLEGAL_BUNDLE; a write of P0 leaves the core as it is, and the
instruction still waits for its sources. -/
def Obligations.PredicateResults : Prop :=
  ∀ (h : Hdr) (pd ra rb cond imm pa pb table : Nat) (s : State), SlotGoes h [1, 2] [(1, pd)] s →
    let c := (s.facet h.pf).core
    let a := (c.rdS ra).v
    let b := (c.rdS rb).v
    let i32 := (BitVec.ofNat 32 imm).signExtend 64
    let w := (openBundle s h.pf).work
    let gives := fun (i : Instr) (x p : Bool) => exec i s = .next (slotDone h [(1, pd)] (w.wrP pd ⟨x, p⟩) s)
    (NoWait [c.pendS ra, c.pendS rb, c.pendP pd] →
      let p := (c.rdS ra).p || (c.rdS rb).p
      gives (.cmp h pd ra rb 0) (a == b) p ∧ gives (.cmp h pd ra rb 1) (a != b) p ∧ gives (.cmp h pd ra rb 2) (a.slt b) p
      ∧ gives (.cmp h pd ra rb 3) (b.sle a) p ∧ gives (.cmp h pd ra rb 4) (a.ult b) p ∧ gives (.cmp h pd ra rb 5) (b.ule a) p)
    ∧ (NoWait [c.pendS ra, c.pendP pd] →
      let p := (c.rdS ra).p
      gives (.cmpi h pd ra 0 imm) (a == i32) p ∧ gives (.cmpi h pd ra 1 imm) (a != i32) p ∧ gives (.cmpi h pd ra 2 imm) (a.slt i32) p
      ∧ gives (.cmpi h pd ra 3 imm) (i32.sle a) p ∧ gives (.cmpi h pd ra 4 imm) (a.ult i32) p ∧ gives (.cmpi h pd ra 5 imm) (i32.ule a) p)
    ∧ (NoWait [c.pendP pa, c.pendP pb, c.pendP pd] → c.recvBad = [] →
      gives (.plog h pd pa pb table) (table.testBit (2 * ((c.rdP pa).v.toNat) + (c.rdP pb).v.toNat)) ((c.rdP pa).p || (c.rdP pb).p))
    ∧ (6 ≤ cond → exec (.cmp h pd ra rb cond) s = .next (slotRaises h [(1, pd)] 1 s)
        ∧ exec (.cmpi h pd ra cond imm) s = .next (slotRaises h [(1, pd)] 1 s))
    ∧ (∀ a b : Bool, Nat.testBit 0b1000 (2 * a.toNat + b.toNat) = (a && b) ∧ Nat.testBit 0b1110 (2 * a.toNat + b.toNat) = (a || b)
      ∧ Nat.testBit 0b0110 (2 * a.toNat + b.toNat) = (a != b) ∧ Nat.testBit 0b0011 (2 * a.toNat + b.toNat) = !a)
    ∧ (∀ x, w.wrP 0 x = w)
    ∧ (let waits := fun (i : Instr) (k : Nat) => exec i s = .next (slotStep h [1, 2] [(1, 0)] false (fun _ _ _ => .stall k) s)
      (∀ k, firstWait [c.pendS ra, c.pendS rb] = some k → cond < 6 → waits (.cmp h 0 ra rb cond) k)
      ∧ (∀ k, firstWait [c.pendS ra] = some k → cond < 6 → waits (.cmpi h 0 ra cond imm) k)
      ∧ (∀ k, firstWait [c.pendP pa, c.pendP pb] = some k → waits (.plog h 0 pa pb table) k))

/-- O: R183, R184, R210, R212, R213: what the control slot's instructions do to the bundle: nothing; the next bundle is the target, which
ends every loop level whose body it leaves; a level is opened with the count, or the body skipped when the count is 0; issue stops. -/
def Obligations.ControlSlotResults : Prop :=
  ∀ (h : Hdr) (target cnt last : Nat) (s : State),
    let c := (s.facet h.pf).core
    let w := (openBundle s h.pf).work
    (SlotGoes h [0, 1, 2, 3, 4, 5, 6, 7] [] s → exec (.nop h) s = .next (slotDone h [] w s))
    ∧ (SlotGoes h [0] [] s →
      (target < 8192 → target < c.nBundles → exec (.br h target) s = .next (slotDone h [] { w with
        next := some target, loops := w.loops.dropWhile (fun l => decide (target < l.first) || decide (l.last < target)) } s))
      ∧ (c.nBundles ≤ target → exec (.br h target) s = .next (slotRaises h [] 5 s))
      ∧ (NoWait [c.pendS cnt] → (c.rdS cnt).p = false → c.pc < last → (∀ l ∈ c.loops.head?, last ≤ l.last) → c.loops.length < 4 →
        exec (.loop h cnt last) s = .next (slotDone h [] (if (c.rdS cnt).v = 0
          then { w with next := some (loopEnd last w.loops).1, loops := (loopEnd last w.loops).2 }
          else { w with loops := ⟨(c.rdS cnt).v.toNat, c.pc + 1, last⟩ :: w.loops }) s))
      ∧ (NoWait [c.pendS cnt] → (c.rdS cnt).p = false → last ≤ c.pc → exec (.loop h cnt last) s = .next (slotRaises h [] 7 s))
      ∧ exec (.halt h) s = .next (slotDone h [] { w with haltReq := true, loops := [] } s))

/-- O: R172, R175, R209, R218: LD reads 1, 2, 4 or 8 bytes of data SRAM with the poison of their word, zero- or sign-extended; ST stores
them, poisoning the word if the register or, for a partial word, the word was poisoned; a misaligned address or one past the data
SRAM raises ADDRESS, a poisoned address POISON_CTL. -/
def Obligations.LoadStoreResults : Prop :=
  ∀ (h : Hdr) (rt ra size imm : Nat) (sx : Bool) (s : State), size < 4 →
    let c := (s.facet h.pf).core
    let w := (openBundle s h.pf).work
    let n := 2 ^ size
    let a := localAddr (c.rdS ra).v 24 imm
    let x := w.sram.readNat a n
    let word := w.sram.rangePoison 8 a n
    c.latentCe = [] → c.latentUe = [] → w.latentCe = [] → w.latentUe = [] →
    (SlotGoes h [1, 2] [(0, rt)] s → NoWait [c.pendS ra, c.pendS rt, c.pendMem a n] → NoWait [c.pendS ra, c.pendS rt, none] →
      ((c.rdS ra).p = false → a + n ≤ 0x600000 → a % n = 0 → exec (.ld h rt ra size sx imm) s = .next (slotDone h [(0, rt)]
        (w.wrS rt ⟨if sx then BitVec.ofInt 64 (sext (8 * n) x) else BitVec.ofNat 64 x, word⟩) s))
      ∧ ((c.rdS ra).p = false → a % n ≠ 0 ∨ 0x600000 < a + n → exec (.ld h rt ra size sx imm) s = .next (slotRaises h [(0, rt)] 4 s))
      ∧ ((c.rdS ra).p = true → exec (.ld h rt ra size sx imm) s = .next (slotRaises h [(0, rt)] 6 s)))
    ∧ (SlotGoes h [1, 2] [] s → NoWait [c.pendS ra, c.pendS rt] →
      ((c.rdS ra).p = false → a + n ≤ 0x600000 → a % n = 0 → exec (.st h rt ra size false imm) s = .next (slotDone h []
        (w.sramStore a (toBytes n (c.rdS rt).v.toNat) (if (c.rdS rt).p || (decide (n < 8) && word) then [a / 8] else [])) s))
      ∧ ((c.rdS ra).p = false → a % n ≠ 0 ∨ 0x600000 < a + n → exec (.st h rt ra size false imm) s = .next (slotRaises h [] 4 s))
      ∧ exec (.st h rt ra size true imm) s = .next (slotRaises h [] 1 s))

/-- O: R219: RDC reads the counters, the LF and the bound service, never poisoned; codes 4 to 7 are illegal. -/
def Obligations.CounterReads : Prop :=
  ∀ (h : Hdr) (rd sel : Nat) (s : State), SlotGoes h [1, 2] [(0, rd)] s → NoWait [(s.facet h.pf).core.pendS rd] →
    let gives := fun (sel x : Nat) =>
      exec (.rdc h rd sel) s = .next (slotDone h [(0, rd)] ((openBundle s h.pf).work.wrS rd ⟨BitVec.ofNat 64 x, false⟩) s)
    gives 0 (s.cycles h.pf) ∧ gives 1 (s.timeCopy h.pf) ∧ gives 2 (s.rd (.FAC_BIND h.pf) F.FAC_BIND.lf)
    ∧ gives 3 (s.rd (.FAC_BIND h.pf) F.FAC_BIND.service)
    ∧ (4 ≤ sel → exec (.rdc h rd sel) s = .next (slotRaises h [(0, rd)] 1 s))

/-- O: R221, R222, R67: the elementwise vector instructions, lane by lane: FP32 rounded once, INT32 saturated; a lane is poisoned when a
source lane is; typ other than 4 and 10 raises ILLEGAL_FORMAT. -/
def Obligations.VectorLaneResults : Prop :=
  ∀ (h : Hdr) (vd va vb vc typ : Nat) (s : State), SlotGoes h [3] [(2, vd)] s →
    let c := (s.facet h.pf).core
    NoWait [c.pendV va, c.pendV vd] → NoWait [c.pendV va, c.pendV vb, c.pendV vd] →
    NoWait [c.pendV va, c.pendV vb, c.pendV vc, c.pendV vd] →
    let w := (openBundle s h.pf).work
    let A := fun i => c.lane va i
    let B := fun i => c.lane vb i
    let C := fun i => c.lane vc i
    let int := fun (i : Int) => (toCode 32 (max (-2 ^ 31) (min (2 ^ 31 - 1) i)), decide (i < -2 ^ 31 ∨ 2 ^ 31 - 1 < i))
    let gives := fun (i : Instr) (lane : Nat → LaneRes) =>
      exec i s = .next (slotDone h [(2, vd)] (w.putLanes h.pf vd ((List.range 128).map lane)) s)
    let one := fun (i : Instr) (f : Nat → Nat) (g : Int → Int) =>
      (typ = 10 → gives i (fun k => ⟨f (A k).1, (A k).2, false⟩))
      ∧ (typ = 4 → gives i (fun k => ⟨(int (g (sext 32 (A k).1))).1, (A k).2, (int (g (sext 32 (A k).1))).2⟩))
      ∧ (typ ≠ 4 → typ ≠ 10 → exec i s = .next (slotRaises h [(2, vd)] 2 s))
    let two := fun (i : Instr) (f : Nat → Nat → Nat) (g : Int → Int → Int) =>
      (typ = 10 → gives i (fun k => ⟨f (A k).1 (B k).1, (A k).2 || (B k).2, false⟩))
      ∧ (typ = 4 → gives i (fun k => let x := g (sext 32 (A k).1) (sext 32 (B k).1); ⟨(int x).1, (A k).2 || (B k).2, (int x).2⟩))
      ∧ (typ ≠ 4 → typ ≠ 10 → exec i s = .next (slotRaises h [(2, vd)] 2 s))
    two (.vadd h vd va vb typ) addF (· + ·) ∧ two (.vsub h vd va vb typ) subF (· - ·) ∧ two (.vmul h vd va vb typ) mulF (· * ·)
    ∧ two (.vmax h vd va vb typ) (fun x y => r32 (fmax (f32 x) (f32 y))) max
    ∧ two (.vmin h vd va vb typ) (fun x y => r32 (fmin (f32 x) (f32 y))) min
    ∧ one (.vabs h vd va typ) (fun x => r32 (fabs (f32 x))) (fun i => i.natAbs)
    ∧ one (.vneg h vd va typ) (fun x => r32 (fneg (f32 x))) (fun i => -i)
    ∧ (typ = 10 → gives (.vfma h vd va vb vc typ) (fun k => ⟨fmaF (A k).1 (B k).1 (C k).1, (A k).2 || ((B k).2 || (C k).2), false⟩))
    ∧ (typ = 4 → gives (.vfma h vd va vb vc typ) (fun k =>
        let x := sext 32 (A k).1 * sext 32 (B k).1 + sext 32 (C k).1; ⟨(int x).1, (A k).2 || ((B k).2 || (C k).2), (int x).2⟩))
    ∧ (typ = 10 → gives (.vexp2 h vd va typ) (fun k => ⟨exp2F (A k).1, (A k).2, false⟩)
        ∧ gives (.vrcp h vd va typ) (fun k => ⟨rcpF (A k).1, (A k).2, false⟩)
        ∧ gives (.vrsqrt h vd va typ) (fun k => ⟨rsqrtF (A k).1, (A k).2, false⟩))
    ∧ (typ = 4 → exec (.vexp2 h vd va typ) s = .next (slotRaises h [(2, vd)] 2 s)
        ∧ exec (.vrcp h vd va typ) s = .next (slotRaises h [(2, vd)] 2 s) ∧ exec (.vrsqrt h vd va typ) s = .next (slotRaises h [(2, vd)] 2 s))

/-- O: R221, R223, R266, R267, R172, R175: broadcast, selection, comparison and table functions, lane by lane.  VLD and VST move
512 bytes, 64-byte aligned; VMOVS moves a lane; poison travels with the bytes. -/
def Obligations.VectorSelectsAndMoves : Prop :=
  (∀ (h : Hdr) (vd va vb vc ra typ cond table : Nat) (s : State), SlotGoes h [3] [(2, vd)] s →
      let c := (s.facet h.pf).core
      NoWait [c.pendS ra, c.pendV vd] → NoWait [c.pendV va, c.pendV vd] → NoWait [c.pendV va, c.pendV vb, c.pendV vd] →
      NoWait [c.pendV va, c.pendV vb, c.pendV vc, c.pendV vd] →
      let w := (openBundle s h.pf).work
      let A := fun i => c.lane va i
      let B := fun i => c.lane vb i
      let C := fun i => c.lane vc i
      let gives := fun (i : Instr) (lane : Nat → Nat × Bool) => exec i s = .next (slotDone h [(2, vd)] (w.wrLanes vd ((List.range 128).map lane)) s)
      ((typ = 4 ∨ typ = 10) →
        gives (.vbcs h vd ra typ) (fun _ => ((c.rdS ra).v.toNat % 2 ^ 32, (c.rdS ra).p))
        ∧ gives (.vsel h vd va vb vc typ) (fun i => if (C i).1 ≠ 0 then ((A i).1, (C i).2 || (A i).2) else ((B i).1, (C i).2 || (B i).2)))
      ∧ (4 ≤ cond → exec (.vcmp h vd va vb typ cond) s = .next (slotRaises h [(2, vd)] 1 s))
      ∧ (typ = 4 → gives (.vcmp h vd va vb typ 2) (fun i => (if sext 32 (A i).1 < sext 32 (B i).1 then 0xFFFFFFFF else 0, (A i).2 || (B i).2))
          ∧ gives (.vcmp h vd va vb typ 0) (fun i => (if sext 32 (A i).1 = sext 32 (B i).1 then 0xFFFFFFFF else 0, (A i).2 || (B i).2)))
      ∧ (typ = 10 → gives (.vcmp h vd va vb typ 1) (fun i =>
            (if fcmp (f32 (A i).1) (f32 (B i).1) ≠ some .eq then 0xFFFFFFFF else 0, (A i).2 || (B i).2))
          ∧ gives (.vcmp h vd va vb typ 2) (fun i =>
            (if fcmp (f32 (A i).1) (f32 (B i).1) = some .lt then 0xFFFFFFFF else 0, (A i).2 || (B i).2))
          ∧ gives (.vact h vd va typ table) (fun i => (c.act table (A i).1, (A i).2 || !c.tabValid table)))
      ∧ (typ = 4 → exec (.vact h vd va typ table) s = .next (slotRaises h [(2, vd)] 2 s)))
  ∧ (∀ (h : Hdr) (v ra imm rd va lane : Nat) (sx : Bool) (s : State),
      let c := (s.facet h.pf).core
      let w := (openBundle s h.pf).work
      let a := localAddr (c.rdS ra).v 24 imm
      c.latentCe = [] → c.latentUe = [] → w.latentCe = [] → w.latentUe = [] → (c.rdS ra).p = false →
      (SlotGoes h [3] [(2, v)] s → NoWait [c.pendS ra, c.pendV v, c.pendMem a 512] →
        (a + 512 ≤ 0x600000 → a % 64 = 0 → exec (.vld h v ra imm) s = .next (slotDone h [(2, v)]
          (w.wrVBytes (v * 512) ((List.range 512).map (fun i => (w.sram.byte (a + i), w.sram.isPoison ((a + i) / 8))))) s))
        ∧ (a % 64 ≠ 0 ∨ 0x600000 < a + 512 → exec (.vld h v ra imm) s = .next (slotRaises h [(2, v)] 4 s)))
      ∧ (SlotGoes h [3] [] s → NoWait [c.pendS ra, c.pendV v] →
        (a + 512 ≤ 0x600000 → a % 64 = 0 → exec (.vst h v ra imm) s = .next (slotDone h []
          (w.sramStore a ((c.vBytes v 512).map Prod.fst) (poisonWords a (c.vBytes v 512))) s))
        ∧ (a % 64 ≠ 0 ∨ 0x600000 < a + 512 → exec (.vst h v ra imm) s = .next (slotRaises h [] 4 s)))
      ∧ (SlotGoes h [3] [(0, rd)] s → NoWait [c.pendV va, c.pendS rd] →
        exec (.vmovs h rd va lane sx) s = .next (slotDone h [(0, rd)]
          (w.wrS rd ⟨if sx then (BitVec.ofNat 32 (c.lane va lane).1).signExtend 64 else BitVec.ofNat 64 (c.lane va lane).1, (c.lane va lane).2⟩) s)))

/-- O: R221, R224, R65, R66, R225, R226, R228, R270: a reduction writes each segment's result to every lane of the segment;
segment codes 5 to 7 are illegal.  Conversion of 512 elements, the identity when the formats are equal, and quantization; a group
past V31 and formats outside the mode's set are refused by name.  VWATCH enters lane 0 for the layer, once per batch slot of the
step; a poisoned or NaN value is not entered. -/
def Obligations.VectorReductionsConversionsWatch : Prop :=
  (∀ (h : Hdr) (vd va typ op seg : Nat) (s : State), SlotGoes h [3] [(2, vd)] s →
      let c := (s.facet h.pf).core
      NoWait [c.pendV va, c.pendV vd] → (typ = 4 ∨ typ = 10) →
      let n := 128 / 2 ^ seg
      let parts := (pieces n (128 / n) (c.lanes va)).map (fun l => reducePairs (redOp typ op) 8 (l.map (redStart typ op)))
      let w := (openBundle s h.pf).work.wrLanes vd (parts.flatMap (fun r => List.replicate n (r.code, r.p)))
      (seg ≤ 4 → exec (.vred h vd va typ op seg) s =
        .next (slotDone h [(2, vd)] (w.count h.pf F.FMT_STAT.int_sat (parts.countP (fun r => r.sat && !r.p))) s))
      ∧ (5 ≤ seg → exec (.vred h vd va typ op seg) s = .next (slotRaises h [(2, vd)] 1 s)))
  ∧ (∀ (h : Hdr) (vd va vx sd f df half kc : Nat) (blk : Bool) (s : State),
      let c := (s.facet h.pf).core
      let w := (openBundle s h.pf).work
      let n := if fmtBits df = 4 then 1 else 2
      (SlotGoes h [3] (vGroup vd (cvtRegs f)) s → f < 11 → va + cvtRegs f ≤ 32 → vd + cvtRegs f ≤ 32 →
        NoWait ((List.range (cvtRegs f)).map (fun i => c.pendV (va + i)) ++ (List.range (cvtRegs f)).map (fun i => c.pendV (vd + i))) →
        exec (.vcvt h vd va f f half) s = .next (slotDone h (vGroup vd (cvtRegs f))
          (w.wrVBytes (vd * 512 + (if fmtBits f = 4 then 256 * half else 0))
            (((c.vBytes va (cvtRegs f * 512)).drop (if fmtBits f = 4 then 256 * half else 0)).take (512 * fmtBits f / 8))) s))
      ∧ (SlotGoes h [3] (vGroup vd (cvtRegs df)) s → (32 < va + cvtRegs f ∨ 32 < vd + cvtRegs df) →
        exec (.vcvt h vd va f df half) s = .next (slotRaises h (vGroup vd (cvtRegs df)) 1 s))
      ∧ (SlotGoes h [3] (vGroup vd n ++ [(2, vx)] ++ (if blk then [] else [(0, sd)])) s → va + 8 ≤ 32 → vd + n ≤ 32 →
        NoWait ((List.range 8).map (fun i => c.pendV (va + i)) ++ (List.range n).map (fun i => c.pendV (vd + i))
          ++ [c.pendV vx, if blk then none else c.pendS sd]) →
        let es := unpackElems 32 1024 (c.vBytes va 4096)
        ((if blk then df ∈ [1, 2, 5, 6, 7] ∧ kc = 0 else df = 2 ∨ df = 1 ∧ kc = 0) →
          exec (.vquant h vd va vx sd df blk kc) s = .next (slotDone h (vGroup vd n ++ [(2, vx)] ++ (if blk then [] else [(0, sd)]))
            (if blk then quantBlocks h.pf vd vx df w es else quantRow h.pf vd vx sd df kc w es) s))
        ∧ ((if blk then df ∉ [1, 2, 5, 6, 7] ∨ kc ≠ 0 else df ≠ 2 ∧ (df ≠ 1 ∨ kc ≠ 0)) →
          exec (.vquant h vd va vx sd df blk kc) s = .next (slotRaises h (vGroup vd n ++ [(2, vx)] ++ (if blk then [] else [(0, sd)])) 2 s))))
  ∧ (∀ (h : Hdr) (va layer : Nat) (spec : Bool) (d : Desc) (s : State), SlotGoes h [3] [] s →
      let c := (s.facet h.pf).core
      let w := (openBundle s h.pf).work
      NoWait [c.pendV va] → c.step = some d →
      let x := c.lane va 0
      let i := Tab.getD w.vwCount layer 0
      let counted := { w with vwCount := Tab.put w.vwCount layer 0 (i + 1) }
      (i < d.count → x.2 = false → isNan32 x.1 = false → exec (.vwatch h va layer spec false) s = .next (slotDone h []
          { counted with eff := counted.eff ++ [.watch ⟨s.rd (.FAC_BIND h.pf) F.FAC_BIND.service, d.step, s.lfOf h.pf, layer, i, spec, false, x.1⟩] } s))
      ∧ (i < d.count → (x.2 = true ∨ isNan32 x.1 = true) → exec (.vwatch h va layer spec false) s = .next (slotDone h [] counted s)))

/-- O: R171, R229 to R231: HSET takes a valid handle and raises ILLEGAL_HANDLE for any other value; ADRNV and ADRNM queue a drain of the
handle's bank; a column tile the handle has not raises ILLEGAL_HANDLE. -/
def Obligations.HandleAndDrains : Prop :=
  ∀ (h : Hdr) (hd ra vd tile bank sd : Nat) (dq : Bool) (s : State),
    let c := (s.facet h.pf).core
    let w := (openBundle s h.pf).work
    let r := (c.rdS ra).v.toNat
    let x := (c.rdH hd).v.toNat
    let dv := vGroup vd 8 ++ [(0, sd)]
    let slices := if bits r 27 26 = 0 then 1 else if bits r 27 26 = 1 then 3 else 6
    let valid := bits r 63 63 = 1 ∧ bits r 62 28 = 0 ∧ bits r 7 7 = 0 ∧ 1 ≤ bits r 15 8
      ∧ bits r 6 0 + bits r 15 8 ≤ s.variant.logicals ∧ bits r 27 26 ≠ 3 ∧ bits r 15 8 % slices = 0 ∧ bits r 19 16 ≤ 3
      ∧ bits r 23 20 ∈ [1, 3, 7, 15]
    (SlotGoes h [4] [(4, hd)] s → NoWait [c.pendS ra] → (c.rdS ra).p = false →
      (valid → exec (.hset h hd ra) s = .next (slotDone h [(4, hd)] (w.wrH hd (c.rdS ra)) s))
      ∧ (¬ valid → exec (.hset h hd ra) s = .next (slotRaises h [(4, hd)] 3 s)))
    ∧ (SlotGoes h [4] dv s → NoWait ((List.range 8).map (fun i => c.pendV (vd + i)) ++ [c.pendS sd]) → vd + 8 ≤ 32 →
      (handleValid s.variant x = true → tile < handleTiles x → c.drains.length < 8 →
        exec (.adrnv h vd hd tile bank dq sd) s = .next (slotDone h dv
          { w with seq := w.seq + 1, drains := w.drains ++ [⟨c.seq, x, false, vd, tile, bank, dq, sd, false, false⟩] } s))
      ∧ (handleTiles x ≤ tile → exec (.adrnv h vd hd tile bank dq sd) s = .next (slotRaises h dv 3 s)))
    ∧ (SlotGoes h [4] [] s → NoWait [c.pendS ra] → (c.rdS ra).p = false → handleValid s.variant x = true →
      (r + handleTiles x * 4096 ≤ 0x600000 → r % 64 = 0 → c.drains.length < 8 → exec (.adrnm h hd bank dq ra) s = .next (slotDone h []
        { w with seq := w.seq + 1, drains := w.drains ++ [⟨c.seq, x, true, r, 0, bank, dq, 0, false, false⟩] } s))
      ∧ (r % 64 ≠ 0 ∨ 0x600000 < r + handleTiles x * 4096 → exec (.adrnm h hd bank dq ra) s = .next (slotRaises h [] 4 s)))

/-- O: R62, R63, R80, R171, R230: AISS without an outlier list issues the row tile in registers vs and following: each element drives its
value, held to plus or minus the planes' maximum; a poisoned element, a poisoned scale byte or scale byte 0xFF makes the issue bad. -/
def Obligations.ArrayIssue : Prop :=
  ∀ (h : Hdr) (hn vs ss bank vo : Nat) (acc spec : Bool) (s : State), SlotGoes h [4] [] s →
    let c := (s.facet h.pf).core
    let w := (openBundle s h.pf).work
    let x := (c.rdH hn).v.toNat
    let fmt := bits x 19 16
    let n := aissRegs fmt
    let m : Int := 2 ^ planesOf fmt - 1
    let es := unpackElems (fmtBits fmt) 1024 (c.vBytes vs (n * 512))
    handleValid s.variant x = true → vs + n ≤ 32 → bits x 23 20 = planesOf fmt →
    NoWait ((List.range n).map (fun i => c.pendV (vs + i)) ++ [c.pendS ss, none]) →
    (s.rowBuffersFree h.pf (bits x 6 0) (bits x 15 8) = true → s.regionCold (regionOf h.pf) = false →
      ∃ (i : Issue) (k : Nat), exec (.aiss h hn vs ss bank acc spec 0 vo) s = .next (slotDone h []
          { (w.count h.pf F.FMT_STAT.drive_sat k).count h.pf F.FMT_STAT.scale_invalid
              (if i.scale = 255 ∧ i.scalePoison = false then 1 else 0) with
            seq := w.seq + 1
            eff := ((w.count h.pf F.FMT_STAT.drive_sat k).count h.pf F.FMT_STAT.scale_invalid
              (if i.scale = 255 ∧ i.scalePoison = false then 1 else 0)).eff ++ [.issue (bits x 6 0) (bits x 15 8) i hn false] } s)
        ∧ k = es.countP (fun e => !e.2 && decide (sext (fmtBits fmt) e.1 < -m))
        ∧ i.xs = es.map (fun e => if e.2 then 0 else max (-m) (sext (fmtBits fmt) e.1))
        ∧ i.planes = planesOf fmt ∧ i.bank = bank ∧ i.acc = acc ∧ i.spec = spec ∧ i.policy = bits x 25 24 ∧ i.seq = c.seq
        ∧ i.scale = (c.rdS ss).v.toNat % 256 ∧ i.scalePoison = (c.rdS ss).p ∧ i.outliers = [] ∧ i.outPoison = false
        ∧ i.bad = (es.any Prod.snd || (c.rdS ss).p || decide (i.scale = 255)))
    ∧ (s.regionCold (regionOf h.pf) = true → exec (.aiss h hn vs ss bank acc spec 0 vo) s =
        .next (slotStep h [4] [] false (fun _ _ _ => .stall 0) s))

/-- O: R69, R190, R232 to R237, R278: TMM, TCLR, TDRNV, TDRNM and TMSK go to the tensor queue with the registers they read, while it has
room for them (R186); a pair of formats that R69 does not list and a drain format that R237 does not list raise ILLEGAL_FORMAT. -/
def Obligations.TensorIssue : Prop :=
  ∀ (h : Hdr) (td fa fb sa sb sk m n rk vd df rows ra vs : Nat) (acc16 clr mask : Bool) (s : State), SlotGoes h [5] [] s →
    let c := (s.facet h.pf).core
    let w := (openBundle s h.pf).work
    let d : TDrain := ⟨td, df, rows, clr, false, vd, 0⟩
    let dv := vGroup vd d.regs
    let a := (c.rdS ra).v.toNat
    let kinds := fun (b : Bool) => if b then setNth w.kinds td 0 else w.kinds
    NoWait [c.pendS sa, c.pendS sb, c.pendS sk, if mask then c.pendS rk else none] → NoWait [c.pendV vs] → NoWait [c.pendS ra] →
    (∀ flt rate fast, tmmPair fa fb = some (flt, rate, fast) → (acc16 = true → fast.isSome = true) → c.tq.length < 4 →
      (c.rdS sa).p = false → (c.rdS sb).p = false → (c.rdS sk).p = false → (mask = true → (c.rdS rk).p = false) →
      let da := (c.rdS sa).v.toNat
      let db := (c.rdS sb).v.toNat
      let k := (c.rdS sk).v.toNat
      let kind := if flt || dScaled da || dScaled db then 1 else 2
      opFormatBad false da fa = false → opFormatBad true db fb = false → k ≤ 131072 →
      (clr = true ∨ c.kinds.getD td 0 = 0 ∨ c.kinds.getD td 0 = kind) → (mask = true → kind = 1) →
      (k ≠ 0 → opAddrBad da fa k m = false ∧ opAddrBad db fb k n = false) →
      ∃ word, exec (.tmm h td fa fb acc16 clr sa sb sk m n mask rk) s = .next (slotDone h [] { w with
        kinds := setNth w.kinds td kind, seq := w.seq + 1
        tq := w.tq ++ [.tmm ⟨td, fa, fb, acc16, clr, da, db, k, m, n, mask, (c.rdS rk).v.toNat, word, c.seq⟩] } s))
    ∧ (tmmPair fa fb = none → exec (.tmm h td fa fb acc16 clr sa sb sk m n mask rk) s = .next (slotRaises h [] 2 s))
    ∧ (c.tq.length < 4 →
      exec (.tclr h td) s = .next (slotDone h [] { w with kinds := setNth w.kinds td 0, seq := w.seq + 1, tq := w.tq ++ [.tclr td] } s)
      ∧ exec (.tmsk h vs) s = .next (slotDone h [] { w with
          seq := w.seq + 1, tq := w.tq ++ [.tmsk ((c.vBytes vs 512).map Prod.fst) ((c.vBytes vs 512).any Prod.snd)] } s)
      ∧ (df ∈ [2, 3, 4, 6, 7, 8, 9, 10] → (c.rdS ra).p = false → a % 64 = 0 → a + d.bytes ≤ 0x600000 →
        exec (.tdrnm h ra td df rows clr) s = .next (slotDone h [] { w with
          kinds := kinds clr, seq := w.seq + 1, tq := w.tq ++ [.drain ⟨td, df, rows, clr, true, a, c.seq⟩] } s))
      ∧ (SlotGoes h [5] dv s → NoWait ((List.range d.regs).map (fun i => c.pendV (vd + i))) → vd + d.regs ≤ 32 →
        df ∈ [2, 3, 4, 6, 7, 8, 9, 10] → exec (.tdrnv h vd td df rows clr) s = .next (slotDone h dv { w with
          kinds := kinds clr, seq := w.seq + 1, tq := w.tq ++ [.drain ⟨td, df, rows, clr, false, vd, c.seq⟩] } s)))
    ∧ (4 ≤ c.tq.length → exec (.tclr h td) s = .next (slotStep h [5] [] false (fun _ _ _ => .stall 1) s))
    ∧ (df ∉ [2, 3, 4, 6, 7, 8, 9, 10] → (c.rdS ra).p = false → exec (.tdrnm h ra td df rows clr) s = .next (slotRaises h [] 2 s))

/-- O: R188, R190, R238 to R242: a movement operation goes to its queue with the registers it read and the step in progress, and one of
length 0 completes at once; a length or an address that breaks the rules raises ADDRESS; MWAIT waits for its tags and raises
MOVEMENT when one of them has failed. -/
def Obligations.MovementIssue : Prop :=
  ∀ (h : Hdr) (tag dir rl rr rn rs rd vdesc mask : Nat) (posted : Bool) (s : State), SlotGoes h [6] [] s →
    let c := (s.facet h.pf).core
    let w := (openBundle s h.pf).work
    let l := (c.rdS rl).v.toNat
    let r := (c.rdS rr).v.toNat
    let n := (c.rdS rn).v.toNat
    let a := (c.rdS rs).v.toNat
    let d := (c.rdS rd).v.toNat
    let bs := (c.vBytes vdesc 512).map Prod.fst
    let k := walkOf bs
    let pushed := fun (o : MOp) => Host.Outcome.next (slotDone h [] { w with seq := w.seq + 1, mq := w.mq ++ [o] } s)
    (NoWait [c.pendS rl, c.pendS rr, c.pendS rn] → (c.rdS rl).p = false → (c.rdS rr).p = false → (c.rdS rn).p = false →
      (posted = true → dir = 1 ∨ dir = 2) → dir < 4 →
      (n % 64 = 0 → n ≤ 4194304 → l % 64 = 0 → r % 64 = 0 → l + n ≤ 0x600000 →
        (n = 0 → exec (.mcpy h tag dir posted rl rr rn) s = .next (slotDone h [] w s))
        ∧ (n ≠ 0 → c.mq.length < 17 →
          exec (.mcpy h tag dir posted rl rr rn) s = pushed ⟨tag, posted, c.step.map Desc.step, .copy dir l r n, 0, c.seq⟩))
      ∧ (n % 64 ≠ 0 ∨ 4194304 < n ∨ l % 64 ≠ 0 ∨ r % 64 ≠ 0 ∨ 0x600000 < l + n →
        exec (.mcpy h tag dir posted rl rr rn) s = .next (slotRaises h [] 4 s)))
    ∧ (NoWait [c.pendS rl, c.pendV vdesc] → (c.rdS rl).p = false → (∀ b ∈ c.vBytes vdesc 512, b.2 = false) → (posted = true → dir = 1) → dir < 2 →
      k.count ≤ 65536 → 4 ≤ k.ptLog → k.ptLog ≤ 8 → k.stride % 64 = 0 → k.off % 64 = 0 → k.len % 64 = 0 → field bs 29 3 = 0 →
      (∀ b ∈ bs.drop 44, b = 0) → l % 64 = 0 → l + k.count * k.len ≤ 0x600000 → k.count * k.len ≠ 0 → c.mq.length < 17 →
      exec (.mpage h tag dir posted rl vdesc) s = pushed ⟨tag, posted, c.step.map Desc.step, .page dir l bs, 0, c.seq⟩)
    ∧ (NoWait [c.pendS rs, c.pendS rd, c.pendS rn] → (c.rdS rs).p = false → (c.rdS rd).p = false → (c.rdS rn).p = false →
      (a % 4096 = 0 → d % 4096 = 0 → a + n * 4128 ≤ 0x600000 → d + n * 4096 ≤ 0x600000 → n ≠ 0 → c.mq.length < 17 →
        exec (.mdec h tag rs rd rn) s = pushed ⟨tag, false, c.step.map Desc.step, .dec a d n, 0, c.seq⟩)
      ∧ (a % 4096 ≠ 0 ∨ d % 4096 ≠ 0 → exec (.mdec h tag rs rd rn) s = .next (slotRaises h [] 4 s)))
    ∧ ((∀ o ∈ c.mq, bitAt mask o.tag = false) →
      ((∀ t ∈ c.mfault, bitAt mask t = false) → exec (.mwait h mask) s = .next (slotDone h [] w s))
      ∧ (∀ t ∈ c.mfault, bitAt mask t = true → exec (.mwait h mask) s = .next (slotRaises h [] 8 s)))

/-- O: R193, R196, R243, R405, R581: STEP takes the oldest descriptor into vd and its step number into rd, and binds what is staged for its
epoch first; on an empty queue it waits (cause 5); SCOMMIT, once every earlier operation is complete, counts the step and reports it,
or raises MOVEMENT or SYNC for an operation of the step that failed. -/
def Obligations.StepAndCommit : Prop :=
  ∀ (h : Hdr) (vd rd : Nat) (s : State),
    let c := (s.facet h.pf).core
    let w := (openBundle s h.pf).work
    (SlotGoes h [7] [(2, vd), (0, rd)] s → NoWait [c.pendV vd, c.pendS rd] →
      (∀ d t, c.dq = d :: t → d.bytes.length = 512 → exec (.step h vd rd) s = .next (slotDone h [(2, vd), (0, rd)]
        { (w.wrVBytes (vd * 512) (d.bytes.map (fun b => (b, false)))).wrS rd ⟨BitVec.ofNat 64 d.step, false⟩ with
          dq := t, step := some d, vwCount := []
          eff := ((w.wrVBytes (vd * 512) (d.bytes.map (fun b => (b, false)))).wrS rd ⟨BitVec.ofNat 64 d.step, false⟩).eff
            ++ [.rebind d.epoch, .wr (.FAC_STAT h.pf) F.FAC_STAT.dq_depth t.length] } s))
      ∧ (c.dq = [] → exec (.step h vd rd) s = .next (slotStep h [7] [(2, vd), (0, rd)] false (fun _ _ _ => .stall 5) s)))
    ∧ (SlotGoes h [7] [] s → s.arraysQuiet h.pf = true → c.unitsQuiet true = true → c.recvs = [] →
      (∀ d, c.mfault = [] → c.recvBad = [] → c.step = some d → w.session.isOpen = false →
        exec (.scommit h) s = .next (slotDone h [] { w with
          step := none, eff := w.eff ++ [.bump (.FAC_STAT h.pf) F.FAC_STAT.steps 1, .report (s.lfOf h.pf) d.step] } s))
      ∧ (c.mfault ≠ [] → exec (.scommit h) s = .next (slotRaises h [] 8 s))
      ∧ (c.mfault = [] → c.recvBad ≠ [] → exec (.scommit h) s = .next (slotRaises h [] 9 s)))

/-- O: R244 to R246: SEND sends 64 to 65,536 bytes to a placed facet; RECV takes a message that has arrived or waits for it; SOUT sends
logits; BAR of one facet passes, of more waits for the release. -/
def Obligations.SyncIssue : Prop :=
  ∀ (h : Hdr) (rl ra rn chan pd rs re ro id : Nat) (s : State), SlotGoes h [7] [] s →
    let c := (s.facet h.pf).core
    let w := (openBundle s h.pf).work
    let a := (c.rdS ra).v.toNat
    let n := (c.rdS rn).v.toNat
    let service := s.rd (.FAC_BIND h.pf) F.FAC_BIND.service
    let dst := sysFacet (c.rdS rl).v.toNat
    let src := sysFacet (c.rdS rs).v.toNat
    let bs := w.sramBytes a n
    w.latentCe = [] → w.latentUe = [] → (c.rdS ra).p = false → (c.rdS rn).p = false → a % 64 = 0 → a + n ≤ 0x600000 →
    (NoWait [c.pendS rl, c.pendS ra, c.pendS rn, none, c.pendMem a n] → c.sendRoom = true → (c.rdS rl).p = false →
      (s.placed service (c.rdS rl).v.toNat = true → 64 ≤ n → n ≤ 65536 → n % 64 = 0 →
        exec (.send h rl ra rn chan) s = .next (slotDone h [] { w with
          sends := w.sends ++ [⟨dst, chan, false⟩]
          eff := w.eff ++ [.send ⟨s.lfOf h.pf, dst, chan, c.step.map Desc.step, bs.map Prod.fst, poisonIdx bs⟩] } s))
      ∧ (s.placed service (c.rdS rl).v.toNat = false ∨ n < 64 ∨ n % 64 ≠ 0 → n ≤ 65536 →
        exec (.send h rl ra rn chan) s = .next (slotRaises h [] 9 s)))
    ∧ (SlotGoes h [7] [(1, pd)] s → NoWait [c.pendS ra, c.pendS rn, c.pendS rs, c.pendP pd, none] → c.recvs.length < 4 →
      (c.rdS rs).p = false → s.placed service (c.rdS rs).v.toNat = true →
      (∀ q ∈ c.recvs, ¬ (q.src = src ∧ q.chan = chan)) →
      ((∀ m ∈ w.rxq, ¬ (m.src = src ∧ m.chan = chan)) →
        exec (.recv h pd ra rn rs chan) s = .next (slotDone h [(1, pd)] { w with recvs := w.recvs ++ [⟨pd, a, n, src, chan⟩] } s))
      ∧ (∀ m t, w.rxq = m :: t → m.src = src → m.chan = chan → m.data.length ≤ n →
        exec (.recv h pd ra rn rs chan) s = .next (slotDone h [(1, pd)]
          (({ w with rxq := t }.sramStore a m.data (m.poison.map (fun i => a / 8 + i))).wrP pd ⟨true, !m.poison.isEmpty⟩) s)))
    ∧ (NoWait [c.pendS re, c.pendS ra, c.pendS rn, c.pendS ro, none, c.pendMem a n] → c.sendRoom = true → (c.rdS re).p = false →
      (c.rdS ro).p = false →
      (n ≠ 0 → n % 64 = 0 → exec (.sout h re ra rn ro) s = .next (slotDone h [] { w with
        sends := w.sends ++ [⟨2 ^ 32 + (c.rdS re).v.toNat, 0, false⟩]
        eff := w.eff ++ [.logits ⟨(c.rdS re).v.toNat, (c.rdS ro).v.toNat, c.step.map Desc.step, service, h.pf,
          (List.range (n / 4)).map (fun i => (ofBytes (((bs.drop (4 * i)).take 4).map Prod.fst), ((bs.drop (4 * i)).take 4).any Prod.snd))⟩] } s))
      ∧ (n = 0 ∨ n % 64 ≠ 0 → exec (.sout h re ra rn ro) s = .next (slotRaises h [] 9 s)))
    ∧ (NoWait [c.pendS rn] → n ≤ 1 →
      exec (.bar h id rn) s = .next (slotDone h [] { w with eff := w.eff ++ [.barDone] } s))
    ∧ (∀ j k, (s.facet h.pf).bar = some (j, k, 1) → NoWait [c.pendS rn] →
      exec (.bar h id rn) s = .next (slotDone h [] { w with eff := w.eff ++ [.barDone] } s))
    ∧ (∀ j k, (s.facet h.pf).bar = some (j, k, 2) → NoWait [c.pendS rn] → 1 < n →
      exec (.bar h id rn) s = .next (slotRaises h [] 9 s))
    ∧ ((s.facet h.pf).bar = none → NoWait [c.pendS rn] → 1 < n → exec (.bar h id rn) s = .next
      (slotStep h [7] [] false (fun _ _ _ => .stall 3) (s.setFacet h.pf { s.facet h.pf with bar := some (id, n, 0) })))

/-- O: R168: S0 reads zero and P0 reads 1, neither poisoned, and both take no write; every other register reads as written, and a write
changes no other register. -/
def Obligations.HardwiredRegisters : Prop :=
  ∀ (c : FCore) (m n : Nat) (x : SReg) (y : PReg),
    c.rdS 0 = ⟨0, false⟩ ∧ c.rdP 0 = ⟨true, false⟩ ∧ c.wrS 0 x = c ∧ c.wrP 0 y = c
    ∧ (n ≠ 0 → (c.wrS n x).rdS n = x ∧ (c.wrP n y).rdP n = y)
    ∧ (m ≠ n → (c.wrS n x).rdS m = c.rdS m ∧ (c.wrP n y).rdP m = c.rdP m)
    ∧ (c.wrS n x).p = c.p ∧ (c.wrS n x).v = c.v ∧ (c.wrS n x).sram = c.sram ∧ (c.wrP n y).s = c.s ∧ (c.wrP n y).v = c.v
    ∧ (c.wrP n y).sram = c.sram

/-- O: R191, R192, R181, R183, R184: an exception is recorded in FAC_EXC, counted, raised with its cause, slot and bundle, and
stops issue; of the facet core only the loop levels change, and no other facet changes.  The end of a bundle. A wait leaves the
facet core as it was; a cause met is taken, the lowest code first, and ILLEGAL_BUNDLE before any wait; else the working core
becomes the core, the next bundle is the branch target or follows, and an innermost level whose last bundle this was returns to
its first bundle while its count lasts. -/
def Obligations.ExceptionsAndBundleEnds : Prop :=
  (∀ (pf slot cause : Nat) (s : State), s.issuing pf = true → 1 ≤ cause → cause ≤ 10 → slot < 8 → (s.facet pf).core.pc < 8192 →
      let f := s.facet pf
      let r := Reg.FAC_EXC pf
      Answers (exec (.exception pf slot cause) s) (fun t =>
        t.rd r F.FAC_EXC.valid = 1 ∧ t.rd r F.FAC_EXC.cause = cause ∧ t.rd r F.FAC_EXC.slot = slot ∧ t.rd r F.FAC_EXC.pc = f.core.pc
        ∧ t.rd r F.FAC_EXC.count = min (s.rd r F.FAC_EXC.count + 1) 65535
        ∧ t.raises = s.raises ++ [⟨0x400 + pf, 0x409, pf, s.lfField pf, [cause, slot, f.core.pc, f.core.stepNo]⟩]
        ∧ t.facet pf = { f with core := { f.core with loops := [] }, bun := none, stop := some (.exc cause) }
        ∧ (∀ q, q ≠ pf → t.facet q = s.facet q) ∧ t.hbm = s.hbm ∧ t.hub = s.hub ∧ t.arrs = s.arrs ∧ t.noc = s.noc))
  ∧ (∀ (s : State) (pf : Nat) (b : Bundle),
      let t := finishBundle s pf b
      let c := (s.facet pf).core
      (b.excs = [] → b.stall.isSome = true → (t.facet pf).core = c ∧ (t.facet pf).bun = none ∧ t.raises = s.raises ∧ t.noc = s.noc
        ∧ t.hbm = s.hbm ∧ t.arrs = s.arrs)
      ∧ (∀ e l, b.excs = e :: l → (∀ x ∈ b.excs, e.1 ≤ x.1 ∧ x.1 < 255) → (b.stall = none ∨ e.1 = 1) → t = takeException s pf e.2 e.1)
      ∧ (b.excs = [] → b.stall = none → b.work.eff = [] →
        (t.facet pf).bun = none ∧ t.raises = s.raises ∧ t.noc = s.noc ∧ t.hbm = s.hbm
        ∧ (t.facet pf).core.sram = b.work.sram ∧ (t.facet pf).core.s = b.work.s ∧ (t.facet pf).core.v = b.work.v
        ∧ (∀ n, b.work.next = some n → (t.facet pf).core.pc = n ∧ (t.facet pf).core.loops = b.work.loops)
        ∧ (b.work.next = none → b.work.loops = [] → (t.facet pf).core.pc = c.pc + 1 ∧ (t.facet pf).core.loops = [])
        ∧ (∀ l r, b.work.next = none → b.work.loops = l :: r →
          (l.last ≠ c.pc → (t.facet pf).core.pc = c.pc + 1 ∧ (t.facet pf).core.loops = l :: r)
          ∧ (l.last = c.pc → 1 < l.count → (t.facet pf).core.pc = l.first ∧ (t.facet pf).core.loops = ⟨l.count - 1, l.first, l.last⟩ :: r))
        ∧ ((t.facet pf).stop = if b.work.haltReq then some .halt else (s.facet pf).stop)))

/-- O: R198 to R200, R411: the control of a facet: FAC_RUN starts at the entry from IDLE or HALT with a program loaded; FAC_STOP and
FAC_RESET set their bits; a load is accepted in RESET or IDLE, elsewhere error 1; a load ends in IDLE with its error code or its
program bound. -/
def Obligations.FacetControl : Prop :=
  ∀ (pf : Nat) (s : State),
    let st := s.facState pf
    (st = 1 ∨ st = 5 → s.rd (.FAC_BIND pf) F.FAC_BIND.prog_id ≠ 0 → (s.facet pf).stop = none → (s.facet pf).fenced = false →
      Answers (exec (.facRun pf) s) (fun t => t.facState pf = 3 ∧ (t.facet pf).core.pc = s.rd (.FAC_CTL pf) F.FAC_CTL.entry
        ∧ t.rd (.FAC_STAT pf) F.FAC_STAT.pc = s.rd (.FAC_CTL pf) F.FAC_CTL.entry ∧ (t.facet pf).core.loops = []
        ∧ (t.facet pf).core.sram = (s.facet pf).core.sram))
    ∧ Answers (exec (.facStop pf) s) (fun t => t.on (.FAC_CTL pf) F.FAC_CTL.stop = true ∧ t.facets = s.facets)
    ∧ Answers (exec (.facReset pf) s) (fun t => t.on (.FAC_CTL pf) F.FAC_CTL.reset = true ∧ (t.facet pf).stop = some .reset
        ∧ (t.facet pf).core = (s.facet pf).core)
    ∧ (st = 0 ∨ st = 1 → Answers (exec (.facLoadGo pf) s) (fun t => t.facState pf = 2 ∧ t.on (.FAC_LOAD_CTL pf) F.FAC_LOAD_CTL.busy = true))
    ∧ (st ≠ 0 → st ≠ 1 → Answers (exec (.facLoadGo pf) s) (fun t => t.facState pf = st ∧ t.rd (.FAC_LOAD_CTL pf) F.FAC_LOAD_CTL.error = 1))
    ∧ (st = 2 → Answers (exec (.facLoadDone pf) s) (fun t => t.facState pf = 1 ∧ t.on (.FAC_LOAD_CTL pf) F.FAC_LOAD_CTL.busy = false
        ∧ t.rd (.FAC_LOAD_CTL pf) F.FAC_LOAD_CTL.error ∈ [0, 2, 3, 4, 5, 6]
        ∧ (t.rd (.FAC_LOAD_CTL pf) F.FAC_LOAD_CTL.error ≠ 0 → t.rd (.FAC_BIND pf) F.FAC_BIND.prog_id = 0)
        ∧ ((t.raises.getLast?.map Raise.code) = some (if t.rd (.FAC_LOAD_CTL pf) F.FAC_LOAD_CTL.error = 0 then 0x40B else 0x40C))))

/-- O: R169, R192, R200, R213, R581: once every operation the facet launched is complete, a stopped facet settles: after a reset its registers
are zero, its data SRAM and program kept and its state RESET; after an exception or HALT its state is HALT, or RUN at the entry
where exc_restart asks for it. -/
def Obligations.FacetSettles : Prop :=
  ∀ (pf : Nat) (s : State), s.arraysQuiet pf = true → (s.facet pf).core.unitsQuiet false = true → s.facState pf ≠ 2 →
    let f := s.facet pf
    (f.stop = some .reset → f.core.session.isOpen = false → Answers (exec (.exceptionSettle pf) s) (fun t => t.facState pf = 0
      ∧ t.on (.FAC_CTL pf) F.FAC_CTL.reset = false ∧ (t.facet pf).stop = none
      ∧ (t.facet pf).core.sram = f.core.sram ∧ (t.facet pf).core.imem = f.core.imem ∧ (t.facet pf).core.s = [] ∧ (t.facet pf).core.p = []
      ∧ (t.facet pf).core.loops = [] ∧ (t.facet pf).core.dq = [] ∧ (t.facet pf).core.pc = s.rd (.FAC_CTL pf) F.FAC_CTL.entry))
    ∧ (f.stop = some .halt → Answers (exec (.exceptionSettle pf) s) (fun t => t.facState pf = 5 ∧ (t.facet pf).stop = none
      ∧ (t.facet pf).core.s = f.core.s ∧ (t.facet pf).core.sram = f.core.sram ∧ (t.facet pf).core.dq = f.core.dq))
    ∧ (∀ c, f.stop = some (.exc c) → c ≠ 10 → Answers (exec (.exceptionSettle pf) s) (fun t =>
      t.facState pf = (if s.on (.FAC_CTL pf) F.FAC_CTL.exc_restart then 3 else 5) ∧ (t.facet pf).stop = none
      ∧ (t.facet pf).core.s = f.core.s ∧ (t.facet pf).core.sram = f.core.sram ∧ (t.facet pf).core.dq = f.core.dq))

/-- O: R199, R203, R252, R260, R261, R263, R264, R411: the facet registers that have a rule of their own: FAC_BIND in IDLE only, FAC_EPOCH
unless it removes an epoch of the service, ACC16_CTL while the facet does not run and never the code 3, TEN_SHADOW, TEN_SIG_CTL. -/
def Obligations.FacetRegisters : Prop :=
  ∀ (pf value : Nat) (s : State), value < 2 ^ 64 →
    let sv := s.rd (.FAC_BIND pf) F.FAC_BIND.service
    let live := fun e => e ≠ 0 ∧ (e = s.rd (.EP_STAT sv) F.EP_STAT.cur ∨ e = s.rd (.EP_STAT sv) F.EP_STAT.old)
    let removes := fun f => live (s.rd (.FAC_EPOCH pf) f) ∧ s.rd (.FAC_EPOCH pf) f ≠ bits value 63 48 ∧ s.rd (.FAC_EPOCH pf) f ≠ bits value 47 32
    let rejected := fun (t : State) => t.on (.FAC_STAT pf) F.FAC_STAT.bind_reject = true
    (s.facState pf = 1 → bitAt value 7 = false → Answers (exec (.facBindWrite pf value) s) (fun t =>
      t.rd (.FAC_BIND pf) F.FAC_BIND.service = bits value 5 0 ∧ t.on (.FAC_BIND pf) F.FAC_BIND.bound = false ∧ t.lfOf pf = s.lfOf pf))
    ∧ (s.facState pf ≠ 1 → Answers (exec (.facBindWrite pf value) s) (fun t => rejected t ∧ t.reg (.FAC_BIND pf) = s.reg (.FAC_BIND pf)))
    ∧ (¬ removes F.FAC_EPOCH.ep_a → ¬ removes F.FAC_EPOCH.ep_b → Answers (exec (.facEpochWrite pf value) s) (fun t =>
      t.rd (.FAC_EPOCH pf) F.FAC_EPOCH.ep_a = bits value 63 48 ∧ t.rd (.FAC_EPOCH pf) F.FAC_EPOCH.ep_b = bits value 47 32))
    ∧ (removes F.FAC_EPOCH.ep_a ∨ removes F.FAC_EPOCH.ep_b → Answers (exec (.facEpochWrite pf value) s) (fun t =>
      rejected t ∧ t.reg (.FAC_EPOCH pf) = s.reg (.FAC_EPOCH pf)))
    ∧ (s.facState pf ∈ [0, 1, 5] → Answers (exec (.acc16CtlWrite pf value) s) (fun t =>
      t.rd (.ACC16_CTL pf) F.ACC16_CTL.chunk = if value % 4 = 3 then s.rd (.ACC16_CTL pf) F.ACC16_CTL.chunk else value % 4))
    ∧ (s.facState pf ∉ [0, 1, 5] → Answers (exec (.acc16CtlWrite pf value) s) (fun t => rejected t ∧ t.reg (.ACC16_CTL pf) = s.reg (.ACC16_CTL pf)))
    ∧ Answers (exec (.tenShadowWrite pf value) s) (fun t =>
      t.rd (.TEN_SHADOW pf) F.TEN_SHADOW.checks = bits value 47 32 ∧ t.rd (.TEN_SHADOW pf) F.TEN_SHADOW.unresolved = bits value 31 24
      ∧ t.rd (.TEN_SHADOW pf) F.TEN_SHADOW.shadow_faults = bits value 23 16
      ∧ t.rd (.TEN_SHADOW pf) F.TEN_SHADOW.confirmations = bits value 15 8 ∧ t.rd (.TEN_SHADOW pf) F.TEN_SHADOW.rot = s.rd (.TEN_SHADOW pf) F.TEN_SHADOW.rot
      ∧ t.rd (.TEN_SHADOW pf) F.TEN_SHADOW.enable =
        if (s.facet pf).shadowFenced then s.rd (.TEN_SHADOW pf) F.TEN_SHADOW.enable else bits value 63 63)
    ∧ Answers (exec (.sigWindowRelease pf) s) (fun t => (t.facet pf).sig = none ∧ t.on (.TEN_SIG_CTL pf) F.TEN_SIG_CTL.full = false
      ∧ t.on (.TEN_SIG_CTL pf) F.TEN_SIG_CTL.truncated = false ∧ (t.facet pf).core = (s.facet pf).core)

/-- O: R234, R235, R255, R278, R281: the operation at the front of the tensor queue begins: a TMM its occupancy, a TCLR clears its tile's kind, a
drain takes the drain path, a TMSK loads its mask and opens a session. -/
def Obligations.TensorOperationBegins : Prop :=
  ∀ (pf : Nat) (s : State),
    let c := (s.facet pf).core
    ∀ rest, c.exec = none →
    (∀ o, c.tq = .tmm o :: rest → (∀ d ∈ c.moving, d.td ≠ o.td) → c.operandHeld o = false → Answers (exec (.tensorOpBegin pf) s) (fun t =>
      ((t.facet pf).core.exec.map (fun x => x.op)) = some o ∧ (t.facet pf).core.tq = rest ∧ (t.facet pf).core.s = c.s))
    ∧ (∀ td, c.tq = .tclr td :: rest → (∀ d ∈ c.moving, d.td ≠ td) → Answers (exec (.tensorOpBegin pf) s) (fun t =>
      (t.facet pf).core.exec = none ∧ (t.facet pf).core.tq = rest ∧ (t.facet pf).core.tint = setNth c.tint td 0
      ∧ (t.facet pf).core.s = c.s ∧ (∀ i j, i < 32 → j < 64 → (t.facet pf).core.cell td i j = (0, false))))
    ∧ (∀ d, c.tq = .drain d :: rest → (∀ e ∈ c.moving, ¬ (e.clr = true ∧ e.td = d.td)) → Answers (exec (.tensorOpBegin pf) s) (fun t =>
      (t.facet pf).core = { c with tq := rest, moving := c.moving ++ [d] }))
    ∧ (∀ bs p, c.tq = .tmsk bs p :: rest → c.session.isOpen = false → Answers (exec (.tensorOpBegin pf) s) (fun t =>
      (t.facet pf).core = { c with tq := rest, mask := bs, maskPoison := p, session := ⟨true, 0, 0, 0⟩ }))

/-- O: R189, R234 to R236, R251, R256, R257, R259: a TMM of one cell with neither mask nor shadow column ends: its cell takes the
accumulation over its start value, or keeps the start value with poison where an operand is poisoned; it is counted, and the unit
is free.  A replay that agrees with the shadow confirms a fault of the tile: counted, raised with the tile and the column, and the
TMM ends with the replay's values; one that agrees with the tile is a fault of the shadow column. -/
def Obligations.TmmEndsAndReplays : Prop :=
  (∀ (pf : Nat) (x : TExec) (s : State),
      let c := (s.facet pf).core
      let o := x.op
      let r := tmmCell o x.chunk (c.cell o.td 0 0) (x.a.row 0) (x.b.row 0)
      c.exec = some x → x.todo = [] → x.held = none → x.col = none → o.mask = false → o.m = 1 → o.n = 1 → o.k ≠ 0 →
        Answers (exec (.tmmComplete pf [] []) s) (fun t =>
          (t.facet pf).core.exec = none ∧ (t.facet pf).core.cell o.td 0 0 = (r.1 % 2 ^ 32, r.2.1)
          ∧ (∀ i j, i < 32 → j < 64 → (i ≠ 0 ∨ j ≠ 0) → (t.facet pf).core.cell o.td i j = c.cell o.td i j)
          ∧ t.rd (.TEN_STAT pf) F.TEN_STAT.tmm = min (s.rd (.TEN_STAT pf) F.TEN_STAT.tmm + 1) (2 ^ 24 - 1)
          ∧ (t.facet pf).core.s = c.s ∧ (t.facet pf).core.sram = c.sram ∧ t.raises = s.raises))
  ∧ (∀ (pf j : Nat) (x : TExec) (shadow : List (Nat × Bool)) (s : State),
      let c := (s.facet pf).core
      let o := x.op
      let r := Reg.TEN_SHADOW pf
      let replay := (List.range o.m).map (fun i =>
        let q := tmmCell o x.chunk (x.start.getD i (0, true)) (x.a.row i) (x.b.row j)
        (q.1, q.2.1))
      let tile := (List.range o.m).map (fun i => c.cell o.td i j)
      let agrees := fun (xs : List (Nat × Bool)) => ∀ p ∈ xs.zip replay, p.1.2 = true ∨ p.2.2 = true ∨ p.1.1 = p.2.1
      c.exec = some x → x.held = some shadow → x.col = some j → x.inj = none → o.mask = false → s.rd r F.TEN_SHADOW.confirmed = 0 →
      s.rd r F.TEN_SHADOW.sfaults = 0 →
        (agrees shadow → Answers (exec (.shadowReplayDone pf []) s) (fun t => (t.facet pf).core.exec = none
          ∧ t.rd r F.TEN_SHADOW.confirmations = min (s.rd r F.TEN_SHADOW.confirmations + 1) 255 ∧ t.rd r F.TEN_SHADOW.confirmed = 1
          ∧ (∃ e ∈ t.raises, e.code = 0x40D ∧ e.unit = pf ∧ e.fields.take 3 = [o.td, j, c.stepNo])))
        ∧ (agrees tile → ¬ agrees shadow → Answers (exec (.shadowReplayDone pf []) s) (fun t => (t.facet pf).core.exec = none
          ∧ t.rd r F.TEN_SHADOW.shadow_faults = min (s.rd r F.TEN_SHADOW.shadow_faults + 1) 255 ∧ t.rd r F.TEN_SHADOW.sfaults = 1
          ∧ (∃ e ∈ t.raises, e.code = 0x40E ∧ e.unit = pf ∧ e.fields = [j]))))

/-- O: R188, R237, R239, R241, R244, R325: completions: a tile drain to memory writes its data; a copy from HBM fills data SRAM; a block of an
MDEC is decoded; a message fills the buffer of the RECV that waits for it; a SEND's credit returns. -/
def Obligations.FacetCompletions : Prop :=
  ∀ (pf : Nat) (s : State),
    let c := (s.facet pf).core
    (∀ idx d, c.moving[idx]? = some d → d.toMem = true → (∀ e ∈ c.moving.take idx, e.toMem = false) → (∀ e ∈ c.drains, e.toMem = false) →
      d.clr = false → d.df = (if c.tint.getD d.td 0 = 2 then 4 else 10) →
      let bs := packElems 32 ((List.range (d.rows * 64)).map (fun q => c.cell d.td (q / 64) (q % 64)))
      Answers (exec (.tileDrainComplete pf idx) s) (fun t =>
        (t.facet pf).core = { c with moving := c.moving.filter (fun e => decide (e.seq ≠ d.seq)) }.sramStore d.dst (bs.map Prod.fst) (poisonWords d.dst bs)))
    ∧ (∀ idx o rl rr rn, c.mq[idx]? = some o → o.kind = .copy 0 rl rr rn → o.posted = false → rr + rn ≤ 2 ^ 40 → rr % 64 = 0 → rn % 64 = 0 →
      s.faults.hbmCe = [] → s.faults.hbmUe = [] →
      (∀ i, i < rn / 64 → s.rangeOf (rr + 64 * i) = none ∧ s.pageOf (rr + 64 * i) = none ∧ s.hbmLost (rr + 64 * i) = false
        ∧ s.hbm.isPoison (rr / 64 + i) = false) →
      Answers (exec (.movementOpComplete pf idx) s) (fun t =>
        (t.facet pf).core.mq = c.mq.filter (fun q => decide (q.seq ≠ o.seq))
        ∧ (∀ i, i < rn → (t.facet pf).core.sram.byte (rl + i) = s.hbm.byte (rr + i))
        ∧ (∀ i, i < rl ∨ rl + rn ≤ i → (t.facet pf).core.sram.byte i = c.sram.byte i) ∧ t.hbm = s.hbm ∧ (t.facet pf).core.s = c.s))
    ∧ (∀ o rs rd rn q, c.mq = o :: q → o.kind = .dec rs rd rn → o.blk < rn → (∀ e ∈ q, e.seq ≠ o.seq) → c.moveHeld o = false →
      s.on .FLT_INJ_CTL F.FLT_INJ_CTL.arm = false → c.latentCe = [] → c.latentUe = [] →
      Answers (exec (.prismBlockDecode pf 1) s) (fun t => (t.facet pf).core.mq = { o with blk := o.blk + 1 } :: q
        ∧ (∀ i, i < rd + o.blk * 4096 ∨ rd + o.blk * 4096 + 4096 ≤ i → (t.facet pf).core.sram.byte i = c.sram.byte i)))
    ∧ (∀ src chan m rest r, s.noc.msgs = m :: rest → m.src = src → m.chan = chan → bitAt m.dst 24 = false → s.pfOf m.dst = some pf →
      s.pfOf src = none → c.dropsMsg m.step = false → c.recvs = [r] → r.src = src → r.chan = chan → m.data.length ≤ r.len →
      Answers (exec (.messageArrive pf src chan) s) (fun t => t.noc.msgs = rest
        ∧ (t.facet pf).core = ({ c with recvs := [] }.sramStore r.addr m.data (m.poison.map (fun i => r.addr / 8 + i))).wrP r.pd ⟨true, !m.poison.isEmpty⟩))
    ∧ (∀ idx dst chan, c.sends[idx]? = some ⟨dst, chan, true⟩ →
      Answers (exec (.sendCreditReturn pf idx) s) (fun t => (t.facet pf).core = { c with sends := c.sends.eraseIdx idx }))

/-- O: R246, R176, R417: a barrier is released when as many facets of the service wait in it as each named; each then goes on.  A
core reaches the data SRAM of the facet that holds an LF through its window; outside 6 MiB or the LF map it raises FAC_WINDOW,
reads zero with poison and writes nothing; an address outside the windows stops. -/
def Obligations.BarriersAndSramWindows : Prop :=
  (∀ (service id step : Nat) (s : State),
      let l := s.barWaiters service id step
      Tab.sorted s.facets = true →
      (∀ n, l ≠ [] → (∀ x ∈ l, x.2 = n) → n ≤ l.length → Answers (exec (.barrierRelease service id step) s) (fun t =>
        (∀ x ∈ l, (t.facet x.1).bar = some (id, n, 1) ∧ (t.facet x.1).core = (s.facet x.1).core)
        ∧ (∀ q, (∀ x ∈ l, x.1 ≠ q) → t.facet q = s.facet q)))
      ∧ ((∀ x ∈ l, l.length < x.2) → exec (.barrierRelease service id step) s = .next s))
  ∧ (∀ (addr n : Nat) (data : List Byte) (poison : Bool) (s : State),
      let lf := (addr - 0x400000000000) / 0x800000
      let a := (addr - 0x400000000000) % 0x800000
      (addr < 0x400000000000 ∨ 0x400000000000 + 768 * 0x800000 ≤ addr →
        exec (.windowRead addr n) s = .fault (.unmapped addr) ∧ exec (.windowWrite addr data poison) s = .fault (.unmapped addr))
      ∧ (0x400000000000 ≤ addr → addr < 0x400000000000 + 768 * 0x800000 →
        (∀ pf, s.pfOf lf = some pf → (s.facet pf).core.latentCe = [] → (s.facet pf).core.latentUe = [] →
          (a + n ≤ 0x600000 → Answers (exec (.windowRead addr n) s) (fun t => (t.facet pf).core = (s.facet pf).core ∧ ∃ p, t.out = .read
            (ofBytes ((List.range n).map (fun i => (s.facet pf).core.sram.byte (a + i)))) p :: s.out))
          ∧ (a % 8 = 0 → data.length % 8 = 0 → data ≠ [] → a + data.length ≤ 0x600000 → (s.region (regionOf pf)).mr = none →
            Answers (exec (.windowWrite addr data poison) s) (fun t =>
              (∀ i, i < data.length → (t.facet pf).core.sram.byte (a + i) = data.getD i 0)
              ∧ (∀ i, i < a ∨ a + data.length ≤ i → (t.facet pf).core.sram.byte i = (s.facet pf).core.sram.byte i)
              ∧ (∀ q, q ≠ pf → t.facet q = s.facet q) ∧ t.hbm = s.hbm)))
        ∧ (s.pfOf lf = none → exec (.windowRead addr n) s = .next ((s.raise ⟨0xF, 0x10C, 0xFFFF, lf, [a, 0]⟩).emit (.read 0 true))
          ∧ exec (.windowWrite addr data poison) s = .next (s.raise ⟨0xF, 0x10C, 0xFFFF, lf, [a, 1]⟩))))

/-- O: R78, R79, R81 to R87, R90, R93, R95, R121: a product starts with its oldest issue and the aperture of plane 0; a plane without active rows
only passes; a plane whose check passes promotes its narrow sums, shifted by the plane; over-range at a wide aperture repeats the
plane at aperture 32 and is counted and raised; a finished product frees its row buffer and is counted. -/
def Obligations.ProductPlanes : Prop :=
  ∀ (pf arr : Nat) (s : State), pf < 816 → arr < 132 →
    let x := s.parr pf arr
    (∀ i rest, x.run = none → x.queue = i :: rest → (s.larr pf i.logical).bind = none → Answers (exec (.productStart pf arr) s) (fun t =>
      t.parr pf arr = { x with queue := rest, run := some ⟨i, 0, s.planeAperture pf i 0, [], none, false, false⟩ }
      ∧ (activeRows i.xs 0 = [] → s.planeAperture pf i 0 = 0) ∧ t.larrs = s.larrs ∧ t.regs = s.regs))
    ∧ (∀ p, x.run = some p → p.finished = false → p.settle = none → p.cleared = true → p.plane + 1 < p.issue.planes →
      (s.facet pf).core.olderDrain p.issue.logical p.issue.bank p.issue.seq = false →
      s.on .FLT_INJ_CTL F.FLT_INJ_CTL.arm = false → p.issue.logical < 128 →
      let i := p.issue
      let sums := planeSums x.w i.xs p.plane
      (p.aperture = 0 → Answers (exec (.planeComplete pf arr [] [] []) s) (fun t =>
        ((t.parr pf arr).run.map (fun q => (q.plane, q.aperture, q.flags))) = some (p.plane + 1, s.planeAperture pf i (p.plane + 1), [])
        ∧ t.larrs = s.larrs ∧ t.raises = s.raises))
      ∧ (p.aperture ≠ 0 → i.bad = false → i.spec = true → x.lost = false →
        (∀ g, g < 4 → expectedResidue i.entry i.xs p.plane g = observedResidue sums g) →
        Answers (exec (.planeComplete pf arr [] [] []) s) (fun t =>
          (t.larr pf i.logical).bank i.bank = ([0, 1, 2, 3].foldl (fun k g => (k.promote sums p.plane g).1) ((s.larr pf i.logical).bank i.bank))
          ∧ ((t.parr pf arr).run.map (fun q => (q.plane, q.flags))) = some (p.plane + 1, [])
          ∧ t.rd (.ARR_APCNT pf (apIndex p.aperture)) F.ARR_APCNT.planes
            = min (s.rd (.ARR_APCNT pf (apIndex p.aperture)) F.ARR_APCNT.planes + 1) (2 ^ 48 - 1)
          ∧ t.raises = s.raises))
      ∧ (∀ e, p.aperture ≠ 0 → p.aperture ≠ 32 → i.bad = false → x.lost = false → e.ovr = true →
        Answers (exec (.planeComplete pf arr [e] [] []) s) (fun t =>
          ((t.parr pf arr).run.map (fun q => (q.plane, q.aperture))) = some (p.plane, 32) ∧ t.larrs = s.larrs
          ∧ t.rd (.ARR_STAT pf arr) F.ARR_STAT.esc_count = min (s.rd (.ARR_STAT pf arr) F.ARR_STAT.esc_count + 1) 65535
          ∧ t.raises = s.raises ++ [⟨0x400 + pf, 0x401, pf, 0xFFFF, [arr, p.plane]⟩])))
    ∧ (∀ p, x.run = some p → p.finished = true → Answers (exec (.productComplete pf arr) s) (fun t =>
      (t.parr pf arr).run = none ∧ (t.parr pf arr).prods = x.prods + 1 ∧ (t.parr pf arr).queue = x.queue
      ∧ t.rd (.ARR_STAT pf arr) F.ARR_STAT.inflight = x.queue.length % 4 ∧ t.hbm = s.hbm))

/-- O: R95, R98, R124, R231, R111, R112, R114, R115, R118 to R120: the request of a drain is latched and launched once nothing is
ahead of it; a launched drain to vector registers writes its column tile, lane by lane, and its scale byte, and leaves the facet's
list.  The settling of a flagged plane-group: a replay whose check passes promotes the group and is counted; one that fails waits
for exact fallback; a fallback without golden copy reads nothing and poisons the group, one whose golden rows agree with the check
store promotes their sums. -/
def Obligations.DrainsReplaysAndFallback : Prop :=
  (∀ (pf : Nat) (d : ADrain) (s : State),
      let c := (s.facet pf).core
      c.drains = [d] →
      Answers (exec (.drainRequestLatch pf 0) s) (fun t =>
        (t.facet pf).core = { c with drains := [{ d with latched := true, launched := d.launched || s.drainReady pf d }] })
      ∧ (d.launched = true → d.toMem = false →
        let cols := s.drainTile pf d d.tile
        let b := (s.larr pf (bits d.handle 6 0 + handleSlices d.handle * d.tile)).bank d.bank
        Answers (exec (.drainVectorReturn pf 0) s) (fun t =>
          (t.facet pf).core = ({ c with drains := [] }.wrVBytes (d.dst * 512) (cols.flatMap (fun (q : Nat × Bool × Nat) => laneBytes (q.1, q.2.1)))).wrS d.sd
            ⟨BitVec.ofNat 64 b.scale, b.scaleP⟩
          ∧ t.larrs = s.larrs ∧ t.raises = s.raises))
      ∧ (d.launched = false → exec (.drainVectorReturn pf 0) s = .next s))
  ∧ (∀ (pf arr g : Nat) (p : Product) (s : State), pf < 816 → arr < 132 → g < 4 → p.issue.logical < 128 → (s.parr pf arr).run = some p →
      p.flags = [g] → p.plane + 1 < p.issue.planes → s.on .FLT_INJ_CTL F.FLT_INJ_CTL.arm = false →
      let x := s.parr pf arr
      let i := p.issue
      let k := (s.larr pf i.logical).bank i.bank
      let r := Reg.GOLD_BASE pf i.logical
      let a := s.rd r F.GOLD_BASE.addr * 64
      (∀ m, p.settle = some (.replay g m) → 256 ≤ m → m < 264 →
        let sums := planeSums x.w i.xs p.plane
        (expectedResidue i.entry i.xs p.plane g = observedResidue sums g → Answers (exec (.replayComplete pf arr []) s) (fun t =>
          (t.larr pf i.logical).bank i.bank = (k.promote sums p.plane g).1
          ∧ t.rd (.SP_STAT pf) F.SP_STAT.replay_pass = min (s.rd (.SP_STAT pf) F.SP_STAT.replay_pass + 1) 65535
          ∧ ((t.parr pf arr).run.map (fun q => (q.plane, q.flags, q.settle))) = some (p.plane + 1, [], none)
          ∧ t.rd (.CONV_STAT pf arr m) F.CONV_STAT.role = 1))
        ∧ (expectedResidue i.entry i.xs p.plane g ≠ observedResidue sums g → Answers (exec (.replayComplete pf arr []) s) (fun t =>
          ((t.parr pf arr).run.map (fun q => (q.plane, q.flags, q.settle))) = some (p.plane, [g], some (.waiting g true false))
          ∧ t.larrs = s.larrs)))
      ∧ (∀ counted forced, p.settle = some (.waiting g counted forced) →
        (s.on r F.GOLD_BASE.valid = false → Answers (exec (.exactFallbackStart pf arr) s) (fun t =>
          ((t.parr pf arr).run.map (fun q => q.settle)) = some (some (.reading g counted forced none))))
        ∧ (s.on r F.GOLD_BASE.valid = true → (pf, arr) ∈ (Tab.getD s.fbPlaces (stackOf a) []).take 16 →
          Answers (exec (.exactFallbackStart pf arr) s) (fun t =>
            ((t.parr pf arr).run.map (fun q => q.settle)) = some (some (.reading g counted forced (some a))))))
      ∧ (∀ counted forced src, p.settle = some (.reading g counted forced src) →
        let sums := s.goldSums (src.getD 0) i.xs p.plane g
        (src = none → Answers (exec (.exactFallbackDone pf arr) s) (fun t =>
          (t.larr pf i.logical).bank i.bank = k.poisonCols (256 * g) 256
          ∧ t.rd (.SP_ERR pf) F.SP_ERR.gold_fail = min (s.rd (.SP_ERR pf) F.SP_ERR.gold_fail + 1) 255
          ∧ t.rd (.SP_STAT pf) F.SP_STAT.fallbacks = min (s.rd (.SP_STAT pf) F.SP_STAT.fallbacks + 1) 65535))
        ∧ (∀ b, src = some b → (∀ q, q < 1024 → s.hbm.rangePoison 64 (b + 205 * q + goldFrom g) (goldTo g + 1 - goldFrom g) = false
              ∧ ∀ y ∈ s.hbm.read (b + 205 * q + goldFrom g) (goldTo g + 1 - goldFrom g), y.toNat < 243) →
          expectedResidue i.entry i.xs p.plane g = observedResidue sums g → Answers (exec (.exactFallbackDone pf arr) s) (fun t =>
            (t.larr pf i.logical).bank i.bank = (k.promote sums p.plane g).1
            ∧ t.rd (.SP_ERR pf) F.SP_ERR.gold_fail = s.rd (.SP_ERR pf) F.SP_ERR.gold_fail
            ∧ t.rd (.SP_STAT pf) F.SP_STAT.fallbacks = min (s.rd (.SP_STAT pf) F.SP_STAT.fallbacks + 1) 65535))))

/-- O: R96, R101 to R106: software's writes of the array registers: a binding to a MIRROR array waits for the product in flight and then moves the
logical array; a binding to any other is refused with map_reject and its event; the aperture ceiling, the window selection. -/
def Obligations.ArrayBindings : Prop :=
  ∀ (pf n value : Nat) (s : State), pf < 816 → n < s.variant.logicals → value < 256 →
    let x := s.larr pf n
    let old := s.physOf pf n
    let refused := fun (t : State) (offset : Nat) => t.on (.ARR_CTL pf) F.ARR_CTL.map_reject = true
      ∧ t.raises = s.raises ++ [⟨0x400 + pf, 0x403, pf, 0xFFFF, [offset]⟩]
    (value < s.variant.arrays → s.arrState pf value = 2 → Answers (exec (.arrMapWrite pf n value) s) (fun t =>
      (t.larr pf n).bind = some (value, false) ∧ t.on (.ARR_MAP pf n) F.ARR_MAP.pending = true ∧ t.physOf pf n = old))
    ∧ (s.variant.arrays ≤ value ∨ s.arrState pf value ≠ 2 → Answers (exec (.arrMapWrite pf n value) s) (fun t =>
      refused t (n * 8) ∧ t.physOf pf n = old ∧ t.larrs = s.larrs))
    ∧ (x.bind = some (value, false) → s.betweenProducts pf n = true →
      (value ≠ old → s.arrState pf value = 2 → s.arrState pf old = 1 → (s.parr pf old).lost = false → (s.parr pf old).fenceReq = false →
        (s.parr pf old).shadows = [] → (s.parr pf old).wantShadow = [] → s.rd (.ARR_WEAR pf old) F.ARR_WEAR.writes < 100000 →
        Answers (exec (.bindingApply pf n) s) (fun t => t.physOf pf n = value ∧ t.arrState pf value = 1 ∧ t.arrState pf old = 2
          ∧ (t.larr pf n).bind = none ∧ (t.parr pf value).queue = (s.parr pf old).queue ∧ (t.parr pf old).queue = []
          ∧ t.on (.ARR_MAP pf n) F.ARR_MAP.pending = false))
      ∧ (s.arrState pf value ≠ 2 → Answers (exec (.bindingApply pf n) s) (fun t =>
        refused t (n * 8) ∧ t.physOf pf n = old ∧ (t.larr pf n).bind = none)))
    ∧ Answers (exec (.apCeilingWrite pf value) s) (fun t => t.rd (.ARR_CTL pf) F.ARR_CTL.ap_ceiling = value % 4
      ∧ t.on (.ARR_CTL pf) F.ARR_CTL.map_reject = (s.on (.ARR_CTL pf) F.ARR_CTL.map_reject && !bitAt value 7))
    ∧ (value < s.variant.arrays → Answers (exec (.arrWinSelWrite pf value) s) (fun t => t.winArr pf = value ∧ t.raises = s.raises))
    ∧ (s.variant.arrays ≤ value → Answers (exec (.arrWinSelWrite pf value) s) (fun t => refused t 0x1040 ∧ t.winArr pf = s.winArr pf))

/-- O: R89, R106, R107: converters under software, through the converter window: an accepted map write or fence waits for a plane boundary, a
refused one sets map_reject and raises; at the boundary a FREE mirror serves the position, and a fenced converter gives its position
to the lowest FREE mirror. -/
def Obligations.ConverterControl : Prop :=
  ∀ (pf n c m : Nat) (s : State), pf < 816 → n < 256 → c < 512 →
    let a := s.winArr pf
    let x := s.parr pf a
    let refused := fun (t : State) (offset : Nat) => t.on (.ARR_CTL pf) F.ARR_CTL.map_reject = true
      ∧ t.raises = s.raises ++ [⟨0x400 + pf, 0x403, pf, 0xFFFF, [offset]⟩]
    (s.mapWriteOk pf a n c = true → Answers (exec (.convMapWrite pf n c) s) (fun t => (n, c) ∈ (t.parr pf a).pendMap
      ∧ t.on (.CONV_MAP pf a n) F.CONV_MAP.pending = true ∧ t.srv pf a n = s.srv pf a n))
    ∧ (s.mapWriteOk pf a n c = false → Answers (exec (.convMapWrite pf n c) s) (fun t => refused t (0x2000 + n * 8) ∧ t.arrs = s.arrs))
    ∧ (s.fenceOk pf a n = true → Answers (exec (.convFenceWrite pf n) s) (fun t => n ∈ (t.parr pf a).pendFence ∧ t.regs = s.regs))
    ∧ (s.fenceOk pf a n = false → Answers (exec (.convFenceWrite pf n) s) (fun t => refused t (0x2800 + n * 8) ∧ t.arrs = s.arrs))
    ∧ (x.run = none → x.pendMap = [(n, c)] → 256 ≤ c → c < 264 → s.rd (.CONV_STAT pf a c) F.CONV_STAT.role = 1 → s.srv pf a n = n →
      Answers (exec (.convMapApply pf a) s) (fun t => t.srv pf a n = c ∧ t.rd (.CONV_STAT pf a c) F.CONV_STAT.role = 2
        ∧ t.rd (.CONV_STAT pf a c) F.CONV_STAT.serves = n ∧ t.rd (.CONV_STAT pf a n) F.CONV_STAT.serves = 0x1FF
        ∧ t.on (.CONV_MAP pf a n) F.CONV_MAP.pending = false ∧ (t.parr pf a).pendMap = []))
    ∧ (x.run = none → x.pendFence = [n] → x.shadows = [] → s.on (.CONV_STAT pf a n) F.CONV_STAT.fence = false →
      s.rd (.CONV_STAT pf a n) F.CONV_STAT.serves = n → s.freeMirror pf a = some m →
      Answers (exec (.converterFenceApply pf a) s) (fun t => t.on (.CONV_STAT pf a n) F.CONV_STAT.fence = true
        ∧ t.rd (.CONV_STAT pf a n) F.CONV_STAT.role = 5 ∧ t.srv pf a n = m ∧ t.rd (.CONV_STAT pf a m) F.CONV_STAT.role = 2
        ∧ (t.parr pf a).pendFence = [] ∧ (∃ e ∈ t.raises, e.code = 0x402 ∧ e.unit = pf ∧ e.fields = [a, n])))

/-- O: R123, R124, R128, R129: the outlier lane: a listed row that reads well adds its terms, one that fails both reads waits for the golden copy
and both are counted; without a golden copy the bank is poisoned; the check window writes the entry of the logical array it
selects, between two products. -/
def Obligations.OutliersAndCheckWindow : Prop :=
  ∀ (pf r x word value : Nat) (j : OutJob) (rest : List OutJob) (s : State), pf < 816 → Tab.getD s.outJobs pf [] = j :: rest →
    j.rows = [(r, x)] → j.count = 1 → j.issue.slices = 1 → j.base < 128 →
    let row := s.cellRow pf j 0 r
    let b := (s.larr pf j.base).bank j.issue.bank
    let n := s.rd (.CHK_WIN_SEL pf) F.CHK_WIN_SEL.logical
    (j.gold = [] → s.outHeld pf j = false →
      (j.started = true → rowOk (s.larr pf j.base).chk row r = true → Answers (exec (.outlierRowRead pf [] []) s) (fun t =>
        (t.larr pf j.base).bank j.issue.bank = addTerms b [row] x ∧ Tab.getD t.outJobs pf [] = rest ∧ t.raises = s.raises))
      ∧ Answers (exec (.outlierRowRead pf [0] [0]) s) (fun t => Tab.getD t.outJobs pf [] = { j with gold := [0], started := true } :: rest
        ∧ t.rd (.SP_ERR pf) F.SP_ERR.reread = min (s.rd (.SP_ERR pf) F.SP_ERR.reread + 1) 65535
        ∧ t.rd (.SP_ERR pf) F.SP_ERR.row_gold = min (s.rd (.SP_ERR pf) F.SP_ERR.row_gold + 1) 65535))
    ∧ (j.gold = [0] → s.on (.GOLD_BASE pf j.base) F.GOLD_BASE.valid = false → Answers (exec (.outlierGoldRow pf) s) (fun t =>
      (t.larr pf j.base).bank j.issue.bank = { b with outBad := true } ∧ Tab.getD t.outJobs pf [] = rest
      ∧ t.rd (.SP_ERR pf) F.SP_ERR.gold_fail = min (s.rd (.SP_ERR pf) F.SP_ERR.gold_fail + 1) 255
      ∧ (∃ e ∈ t.raises, e.code = 0x407 ∧ e.fields = [j.base, 0xFF])))
    ∧ (value < s.variant.logicals → Answers (exec (.chkWinSelWrite pf value) s) (fun t => t.rd (.CHK_WIN_SEL pf) F.CHK_WIN_SEL.logical = value))
    ∧ (word < 384 →
      (s.betweenProducts pf n = true → Answers (exec (.checkWindowWrite pf word value) s) (fun t =>
        (t.larr pf n).chk.readNat (8 * word) 8 = value % 2 ^ 64
        ∧ (∀ q, q < 8 * word ∨ 8 * word + 8 ≤ q → (t.larr pf n).chk.byte q = (s.larr pf n).chk.byte q)))
      ∧ (s.betweenProducts pf n = false → Answers (exec (.checkWindowWrite pf word value) s) (fun t =>
        (t.larr pf n).chk = (s.larr pf n).chk ∧ (t.larr pf n).chkPend = (s.larr pf n).chkPend ++ [(word, value)])))

/-- O: R137 to R139, R141, R142, R159, R160: a recomputation takes the region's temperature; an array at a plane boundary takes the trims of the
last one in every converter; a due run covers the arrays in SERVICE, notes temperature and time and clears start; 2^34 st after
its start the attempts without a result are DEFERRED and the run ends with its event. -/
def Obligations.CalibrationRuns : Prop :=
  ∀ (g pf arr n : Nat) (s : State), g < 48 → pf < 816 → arr < 132 → n < 264 →
    let x := s.parr pf arr
    let r := s.region (regionOf pf)
    let trims := trimsAt (s.reg (.CONV_SETLO pf arr n)) (s.reg (.CONV_SETHI pf arr n)) r.trimTemp
    Answers (exec (.trimRecompute g) s) (fun t => (t.region g).trimTemp = s.regionTemp g ∧ (t.region g).trimSeq = (s.region g).trimSeq + 1
      ∧ t.regs = s.regs)
    ∧ (x.trimSeq ≠ r.trimSeq → x.run = none → x.shadows = [] → Answers (exec (.trimApply pf arr) s) (fun t =>
      (t.parr pf arr).trimSeq = r.trimSeq ∧ t.rd (.CONV_CAL pf arr n) F.CONV_CAL.o_now = toCode 8 trims.1
      ∧ t.rd (.CONV_CAL pf arr n) F.CONV_CAL.g_now = toCode 8 trims.2))
    ∧ (s.calDue g = true → Answers (exec (.calRunStart g) s) (fun t => t.on (.CAL_REGION_STAT g) F.CAL_REGION_STAT.running = true
      ∧ t.rd (.CAL_REGION_STAT g) F.CAL_REGION_STAT.t_ref = s.rd (.CAL_REGION_STAT g) F.CAL_REGION_STAT.t_now
      ∧ t.rd (.CAL_REGION_TLAST g) F.CAL_REGION_TLAST.time = s.reg .SYS_TIME
      ∧ t.on (.CAL_REGION_CTL g) F.CAL_REGION_CTL.start = false
      ∧ ∃ c, (t.region g).cal = some c ∧ c.start = s.reg .SYS_TIME
        ∧ (∀ p a, (p, a) ∈ c.covered ↔ regionOf p = g ∧ a < s.variant.arrays ∧ s.arrState p a = 1)))
    ∧ (s.calDue g = false → exec (.calRunStart g) s = .next s)
    ∧ (∀ c, (s.region g).cal = some c → regionOf pf = g → c.covered = [(pf, arr)] → x.shadows = [] → x.wantShadow = [] → s.openConvs pf arr = [n] →
      c.start + 2 ^ 34 ≤ s.reg .SYS_TIME → Answers (exec (.calRunTimeout g) s) (fun t => (t.region g).cal = none
        ∧ t.on (.CAL_REGION_STAT g) F.CAL_REGION_STAT.running = false ∧ t.rd (.CONV_CAL pf arr n) F.CONV_CAL.last = 4
        ∧ t.raises = s.raises ++ [⟨0x40 + g, 0x203, g, 0xFFFF, [c.accepted, c.rejected, c.deferred + 1]⟩]))
    ∧ Answers (exec (.calStartWrite g) s) (fun t => t.on (.CAL_REGION_CTL g) F.CAL_REGION_CTL.start = true ∧ t.arrs = s.arrs)

/-- O: R136, R142 to R148, R155, R158: an attempt of a calibration run: a full window with too few margin events is DEFERRED, a plausible
estimate waits for its shadow window with the changed sets; the window lends the lowest FREE mirror; it ends accepted, with the new
sets in force and due for the store, or rejected; within the write window accepted sets reach the store. -/
def Obligations.CalibrationAttempts : Prop :=
  ∀ (pf arr conv : Nat) (s : State), pf < 816 → arr < 132 → conv < 256 →
    let g := regionOf pf
    let x := s.parr pf arr
    let c := Tab.getD x.conv conv ConvStat.zero
    let k : Int := s.rd (.CAL_REGION_CTL g) F.CAL_REGION_CTL.kappa
    let lo := s.reg (.CONV_SETLO pf arr conv)
    let hi := s.reg (.CONV_SETHI pf arr conv)
    let o := roundDiv (32 * k * c.a0) (256 * c.m0)
    let gn := if c.m2 < 4096 then 0 else roundDiv (k * c.a1) c.m2
    let oF := sext 8 (s.rd (.CONV_CAL pf arr conv) F.CONV_CAL.o_fact)
    let gF := sext 8 (s.rd (.CONV_CAL pf arr conv) F.CONV_CAL.g_fact)
    let js := bracket (s.regionTemp g)
    (∀ run, (s.region g).cal = some run → s.on (.CAL_REGION_CTL g) F.CAL_REGION_CTL.hold = false → (pf, arr) ∈ run.covered → c.done = false →
      2 ^ 22 ≤ c.count → s.rd (.CONV_STAT pf arr conv) F.CONV_STAT.role ≤ 2 → x.wantShadow = [] →
      (c.m0 < 4096 → Answers (exec (.calWindowFull pf arr conv) s) (fun t => t.rd (.CONV_CAL pf arr conv) F.CONV_CAL.last = 4
        ∧ t.rd (.ARR_CAL pf arr) F.ARR_CAL.deferrals = min (s.rd (.ARR_CAL pf arr) F.ARR_CAL.deferrals + 1) 65535))
      ∧ (4096 ≤ c.m0 → js.all (plausible lo hi o gn oF gF) = true → Answers (exec (.calWindowFull pf arr conv) s) (fun t =>
        (t.parr pf arr).wantShadow = [(conv, addSets 0 lo js o gn, addSets 1 hi js o gn)] ∧ t.regs = s.regs)))
    ∧ (∀ nlo nhi m, x.run = none → s.on (.CAL_REGION_CTL g) F.CAL_REGION_CTL.hold = false → x.wantShadow = [(conv, nlo, nhi)] → x.shadows = [] →
      s.rd (.CONV_STAT pf arr conv) F.CONV_STAT.role = 0 → s.rd (.CONV_STAT pf arr conv) F.CONV_STAT.serves = conv →
      3 ≤ (s.mirrorsIn pf arr 1).length → s.freeMirror pf arr = some m → Answers (exec (.shadowWindowStart pf arr) s) (fun t =>
        (t.parr pf arr).shadows = [⟨conv, m, conv, 0, false, nlo, nhi, false, 0⟩] ∧ (t.parr pf arr).wantShadow = []
        ∧ t.rd (.CONV_STAT pf arr conv) F.CONV_STAT.role = 4 ∧ t.rd (.CONV_STAT pf arr m) F.CONV_STAT.role = 3 ∧ t.srv pf arr conv = m))
    ∧ (∀ w, x.run = none → x.shadows = [w] → w.conv = conv → w.isMirror = false → 256 ≤ w.mate → w.mate < 264 → w.pos < 256 → w.oldRole ≤ 2 →
      (w.differs = false → 2 ^ 20 ≤ w.compared → w.newLo < 2 ^ 64 → w.newHi < 2 ^ 64 → Answers (exec (.calAttemptEnd pf arr conv) s) (fun t =>
        t.reg (.CONV_SETLO pf arr conv) = w.newLo ∧ t.reg (.CONV_SETHI pf arr conv) = w.newHi
        ∧ t.rd (.CONV_CAL pf arr conv) F.CONV_CAL.last = 1 ∧ t.rd (.CONV_CAL pf arr conv) F.CONV_CAL.fail_consec = 0
        ∧ t.rd (.CONV_STAT pf arr conv) F.CONV_STAT.role = w.oldRole ∧ t.srv pf arr w.pos = conv ∧ (pf, arr, conv) ∈ (t.region g).storePend
        ∧ (t.parr pf arr).shadows = []))
      ∧ (w.differs = true → s.rd (.CONV_CAL pf arr conv) F.CONV_CAL.fail_consec = 0 → Answers (exec (.calAttemptEnd pf arr conv) s) (fun t =>
        t.rd (.CONV_CAL pf arr conv) F.CONV_CAL.last = 3 ∧ t.rd (.CONV_CAL pf arr conv) F.CONV_CAL.fail_consec = 1
        ∧ t.reg (.CONV_SETLO pf arr conv) = lo ∧ (∃ e ∈ t.raises, e.code = 0x201 ∧ e.fields = [pf, arr, conv, 3]))))
    ∧ ((s.region g).storePend = [(pf, arr, conv)] → 240 ≤ s.regionTemp g → s.regionTemp g ≤ 1280 → Answers (exec (.calStoreWrite pf arr conv) s) (fun t =>
      Tab.getD t.calStore (storeKey pf arr conv) (0, 0) = (lo, hi) ∧ (t.region g).storePend = []))
    ∧ ((s.regionTemp g < 240 ∨ 1280 < s.regionTemp g) → exec (.calStoreWrite pf arr conv) s = .next s)

/-- O: R151 to R157, R166: a scan's counts; a due array's refresh claims a MIRROR array and counts its write; a row that verifies is stored, one
that fails a fifth program-verify cycle fences the array; the written copy takes the logical array between two products; a refresh
ends with the old array a MIRROR, or fenced where a cell flipped. -/
def Obligations.ScansAndRefresh : Prop :=
  ∀ (pf arr : Nat) (cells : List (Nat × Nat × Nat)) (s : State), pf < 816 → arr < 132 →
    let g := regionOf pf
    let bad := cells.filter (fun c => decide (0 < c.2.1 + c.2.2))
    let quiet := fun a => (s.parr pf a).lost = false ∧ (s.parr pf a).fenceReq = false ∧ (s.parr pf a).shadows = []
      ∧ (s.parr pf a).wantShadow = [] ∧ s.rd (.ARR_WEAR pf a) F.ARR_WEAR.writes < 100000
    (s.arrState pf arr = 1 ∨ s.arrState pf arr = 2 → Answers (exec (.arrayScanEnd pf arr cells) s) (fun t =>
      t.rd (.ARR_MARGIN pf arr) F.ARR_MARGIN.weak_cells = min (bad.map (fun c => c.2.1 + c.2.2)).sum 65535
      ∧ (t.parr pf arr).weakRows = bad.map Prod.fst ∧ ((t.parr pf arr).flipped = true ↔ ∃ c ∈ cells, 0 < c.2.2)
      ∧ t.arrState pf arr = s.arrState pf arr))
    ∧ (∀ m n, (s.region g).refs = [] → s.dueClass pf arr = some 1 → s.claimable pf arr = some m → s.logicalOf pf arr = some n →
      s.on (.GOLD_BASE pf n) F.GOLD_BASE.valid = true → s.regionCold g = false → m ≠ arr →
      (∀ p a, p ∈ facetsOf g → a < s.variant.arrays → (p, a) ≠ (pf, arr) → s.dueClass p a = none) →
      Answers (exec (.refreshStart pf arr) s) (fun t => t.arrState pf m = 4
        ∧ t.rd (.ARR_WEAR pf m) F.ARR_WEAR.writes = min (s.rd (.ARR_WEAR pf m) F.ARR_WEAR.writes + 1) (2 ^ 32 - 1)
        ∧ ((t.region g).refs.map (fun r => (r.pf, r.old, r.new, r.logical, r.phase, r.rows.length))) = [(pf, arr, m, n, 2, 1024)]))
    ∧ (∀ r row rest w ok, s.refreshAt pf arr = some r → (s.region g).refs = [r] → r.pf = pf → r.rows = row :: rest → r.cycle ≠ 0 →
      s.arrState pf r.old ≠ 5 →
      (ok = false → r.cycle < 4 → Answers (exec (.rowWriteCycle pf arr ok true) s) (fun t => (t.region g).refs = [{ r with cycle := r.cycle + 1 }]
        ∧ t.arrs = s.arrs))
      ∧ (ok = false → 4 ≤ r.cycle → Answers (exec (.rowWriteCycle pf arr ok true) s) (fun t => (t.region g).refs = [] ∧ t.arrState pf arr = 5
        ∧ (∃ e ∈ t.raises, e.code = 0x205 ∧ e.fields = [pf, arr, row])))
      ∧ (ok = true → s.goldenRow 3 pf r.src row = (s, some w) → row < 1024 → (w.map Prod.fst).Nodup → Answers (exec (.rowWriteCycle pf arr ok true) s) (fun t =>
        (∀ j, j < 1024 → Tab.getD (t.parr pf arr).w (row * 1024 + j) 0 = Tab.getD w j 0)
        ∧ ((t.region g).refs.map (fun q => (q.rows, q.done))) = [(rest, r.done + 1)])))
    ∧ (∀ r, s.refreshAt pf arr = some r → (s.region g).refs = [r] → r.pf = pf → r.cycle = 0 → r.rows ≠ [] →
      s.mayStartRow pf arr (if r.all then 0 else 100000) = true → Answers (exec (.writeWindowResume pf arr) s) (fun t =>
        (t.region g).refs = [{ r with cycle := 1 }] ∧ t.regs = s.regs))
    ∧ (∀ r, (s.region g).refs = [r] → r.pf = pf → r.old = arr → r.new < 132 → r.new ≠ arr → r.logical < 128 → r.rows = [] →
      (r.phase = 2 → s.physOf pf r.logical = arr → s.arrState pf arr = 1 → (s.larr pf r.logical).bind = some (r.new, true) →
        s.betweenProducts pf r.logical = true → quiet arr → Answers (exec (.refreshRebind pf arr) s) (fun t => t.physOf pf r.logical = r.new
          ∧ t.arrState pf r.new = 1 ∧ t.arrState pf arr = 3 ∧ ((t.region g).refs.map (fun q => (q.old, q.new, q.phase))) = [(arr, r.new, 4)]))
      ∧ (r.phase = 4 → s.arrState pf arr = 3 → quiet arr →
        ((∀ c ∈ cells, c.2.2 = 0) → Answers (exec (.refreshComplete pf arr cells) s) (fun t => (t.region g).refs = [] ∧ t.arrState pf arr = 2
          ∧ t.raises = s.raises ++ [⟨0x40 + g, 0x204, g, 0xFFFF, [pf, arr, r.new, r.done]⟩]))
        ∧ (∀ c rest, cells = c :: rest → 0 < c.2.2 → Answers (exec (.refreshComplete pf arr cells) s) (fun t => (t.region g).refs = []
          ∧ t.arrState pf arr = 5 ∧ (∃ e ∈ t.raises, e.code = 0x205 ∧ e.fields = [pf, arr, c.1])))))

/-- O: R393, R395, R408: COPY and MCAST take the descriptor at the head of the ring: the bytes of a clean source reach the destination (MCAST's
here when the own bit is set), the head advances and the job waits for its end; a malformed descriptor fails with 0x8001. -/
def Obligations.LoaderCopies : Prop :=
  ∀ (h : Nat) (b : List Byte) (s : State), s.nextJob = some (h, b) →
    let j := jobOf h b
    let plain := fun a => s.pageOf a = none ∧ s.hbmLost a = false
    let clean := s.faults.hbmCe = [] ∧ s.faults.hbmUe = [] ∧ (∀ i, i < j.len / 64 → plain (j.src + 64 * i) ∧ plain (j.dst + 64 * i)
      ∧ s.rangeOf (j.src + 64 * i) = none ∧ s.hbm.isPoison (j.src / 64 + i) = false)
    let copied := fun (t : State) => (∀ i, i < j.len → t.hbm.byte (j.dst + i) = s.hbm.byte (j.src + i))
      ∧ (∀ i, i < j.dst ∨ j.dst + j.len ≤ i → t.hbm.byte i = s.hbm.byte i)
    let started := fun (t : State) (code : Nat) => t.rd .LD_RING F.LD_RING.head = (h + 1) % s.ringSize
      ∧ t.loader.jobs.length = s.loader.jobs.length + 1
      ∧ (t.loader.jobs.getLast?.map (fun q => (q.slot, q.kind, q.status))) = some (h, j.kind, some code)
    (j.kind = 1 → jobBad b = false → clean → Answers (exec .copy s) (fun t => started t 1 ∧ copied t))
    ∧ (j.kind = 2 → jobBad b = false → clean → Answers (exec .mcast s) (fun t => started t 1 ∧ (s.pkg ∈ j.pkgs → copied t)))
    ∧ (j.kind ≠ 2 → j.kind ≠ 3 → jobBad b = true → Answers (exec .copy s) (fun t => started t 0x8001 ∧ t.hbm = s.hbm))

/-- O: R390, R393, R394, R396 to R398, R409, R413: AWRITE_DIRECT puts the bound array, AWRITE_REBIND a claimed MIRROR array, into WRITE and counts the
write; a direct write that ends well brings the array back to SERVICE with its golden copy and check entry; every job's status
reaches its descriptor, with its event. -/
def Obligations.LoaderWrites : Prop :=
  ∀ (s : State),
    (∀ h b, s.nextJob = some (h, b) → jobBad b = false → s.loader = ⟨[], [], []⟩ →
      let j := jobOf h b
      let a := s.physOf j.pf j.logical
      let quiet := fun x => (s.parr j.pf x).shadows = [] ∧ (s.parr j.pf x).wantShadow = [] ∧ s.rd (.ARR_WEAR j.pf x) F.ARR_WEAR.writes < 100000
      let begun := fun (t : State) (x : Nat) => t.arrState j.pf x = 4 ∧ t.rd (.ARR_WEAR j.pf x) F.ARR_WEAR.writes = s.rd (.ARR_WEAR j.pf x) F.ARR_WEAR.writes + 1
        ∧ (t.loader.jobs.map (fun q => (q.slot, q.phys, q.rows.length, q.status))) = [(h, x, 1024, none)]
      j.kind = 3 → j.logical < s.variant.logicals → s.arrState j.pf a = 1 →
      (j.rebind = false → s.betweenProducts j.pf j.logical = true → quiet a → Answers (exec .awriteDirect s) (fun t => begun t a))
      ∧ (∀ m, j.rebind = true → s.claimable j.pf a = some m → s.rd (.FAC_EPOCH j.pf) F.FAC_EPOCH.staged_epoch = 0 → quiet m →
        Answers (exec .awriteRebind s) (fun t => begun t m ∧ t.physOf j.pf j.logical = a)))
    ∧ (∀ j l, s.loader.jobs = j :: l → j.slot < 4096 →
      let d := s.descAddr j.slot + 6
      (∀ c, j.kind ≠ 3 → j.status = some c → (c = 1 → j.pkgs = []) → c < 65536 → Answers (exec (.loaderJobEnd 0) s) (fun t => t.loader.jobs = l
        ∧ (t.hub.byte d).toNat + 256 * (t.hub.byte (d + 1)).toNat = c ∧ (∀ i, i < d ∨ d + 2 ≤ i → t.hub.byte i = s.hub.byte i)
        ∧ (c = 1 → t.raises = s.raises ++ (if j.evt then [⟨0, 0x101, 0xFFFF, 0xFFFF, [j.tag, j.kind]⟩] else []))
        ∧ (c ≠ 1 → t.rd .LD_STAT F.LD_STAT.last_err = c ∧ t.rd .LD_STAT F.LD_STAT.errors = min (s.rd .LD_STAT F.LD_STAT.errors + 1) 65535
          ∧ t.raises = s.raises ++ (if j.evt then [⟨0, 0x102, 0xFFFF, 0xFFFF, [j.tag, j.kind, c]⟩] else []))))
      ∧ (j.kind = 3 → j.status = none → j.rows = [] → j.chkBad = false → j.rebind = false → s.betweenProducts j.pf j.logical = true → j.pf < 816 →
        j.logical < 128 → j.phys < 132 → j.src < 2 ^ 40 → Answers (exec (.loaderJobEnd 0) s) (fun t => t.arrState j.pf j.phys = 1 ∧ t.loader.jobs = l
          ∧ t.on (.GOLD_BASE j.pf j.logical) F.GOLD_BASE.valid = true ∧ t.rd (.GOLD_BASE j.pf j.logical) F.GOLD_BASE.addr = j.src / 64
          ∧ (∀ i, i < 3072 → (t.larr j.pf j.logical).chk.byte i = s.hbm.byte (j.len + i))
          ∧ t.rd .LD_STAT F.LD_STAT.arrays = min (s.rd .LD_STAT F.LD_STAT.arrays + 1) (2 ^ 24 - 1))))

/-- O: R400 to R406, R410, R412: a switch asked for is proved and accepted, with the new epoch current and the old one draining, or refused with its
reason; an old epoch nothing uses is retired from the service and its facets; LF_MAP moves an LF to a free facet. -/
def Obligations.EpochsAndPlacement : Prop :=
  ∀ (sv n p value : Nat) (c : Cost) (s : State), sv < 64 → n < 768 → p < 816 → bits value 9 0 = p →
    let e := s.switchErr sv c
    let target := s.rd (.EP_CTL sv) F.EP_CTL.target
    let old := s.oldEpoch sv
    (s.on (.EP_STAT sv) F.EP_STAT.busy = false → Answers (exec (.epochSwitch sv) s) (fun t => t.on (.EP_STAT sv) F.EP_STAT.busy = true
      ∧ t.curEpoch sv = s.curEpoch sv))
    ∧ (s.on (.EP_STAT sv) F.EP_STAT.busy = true → Answers (exec (.epochSwitchDone sv c) s) (fun t =>
      t.on (.EP_STAT sv) F.EP_STAT.busy = false ∧ t.rd (.EP_STAT sv) F.EP_STAT.err = e
      ∧ (e = 0 → t.curEpoch sv = target ∧ t.oldEpoch sv = s.curEpoch sv ∧ t.raises = s.raises ++ [⟨1, 0x103, sv, 0xFFFF, [s.curEpoch sv, target]⟩])
      ∧ (e ≠ 0 → t.curEpoch sv = s.curEpoch sv ∧ t.oldEpoch sv = old ∧ t.raises = s.raises ++ [⟨1, 0x104, sv, 0xFFFF, [target, e]⟩])))
    ∧ (old ≠ 0 → s.usesOld sv = 0 → Answers (exec (.epochRetire sv) s) (fun t => t.oldEpoch sv = 0
      ∧ t.on (.EP_STAT sv) F.EP_STAT.draining = false ∧ (∃ r ∈ t.raises, r.code = 0x105 ∧ r.unit = sv ∧ r.fields = [old])
      ∧ (∀ q ∈ s.boundTo sv, t.rd (.FAC_EPOCH q) F.FAC_EPOCH.ep_a ≠ old ∧ t.rd (.FAC_EPOCH q) F.FAC_EPOCH.ep_b ≠ old)))
    ∧ (old = 0 ∨ s.usesOld sv ≠ 0 → exec (.epochRetire sv) s = .next s)
    ∧ (bitAt value 63 = true → s.pfOf n = none → (s.facet p).fenced = false → s.lfOf p = 0x3FF → s.idleUnbound p = true →
      Answers (exec (.lfMapWrite n value) s) (fun t => t.pfOf n = some p ∧ t.lfOf p = n))
    ∧ (∀ q, s.pfOf n = some q → q ≠ p → s.idleUnbound q = false → Answers (exec (.lfMapWrite n value) s) (fun t => t.pfOf n = some q
      ∧ t.on (.LF_MAP n) F.LF_MAP.refused = true))
    ∧ (∀ q, s.pfOf n = some q → s.idleUnbound q = true → bitAt value 63 = false → Answers (exec (.lfMapWrite n value) s) (fun t =>
      t.pfOf n = none ∧ t.lfOf q = 0x3FF))

/-- O: R343, R345, R346, R350, R353, R378: an accepted SUBMIT that fails a check changes no entry and answers ERROR; one that passes, whole in one
fragment, makes its entry QUEUED; CANCEL ends a live request with END's reason 2; a bare acknowledgement releases what it names; an
assembly that times out frees its entry and answers ERROR 8; a block of a prompt is tokenized, and with the last its length is set. -/
def Obligations.ServingIngress : Prop :=
  ∀ (f : Frame) (pick e hub : Nat) (s : State),
    let r := s.ingress f
    let quiet := fun (n : Nat) => (r.1.chan n).room = true ∧ (r.1.chan n).waiting = []
    (∀ h b, field f.payload 1 1 ≠ 2 → r.2 = some (h, b) →
      let asm := r.1.asmOf h.chan h.reqId
      (∀ code detail, r.1.submitBad h b asm = some (code, detail) → quiet h.chan → Answers (exec (.submit f pick) s) (fun t =>
        t.serve.entries = r.1.serve.entries ∧ t.hbm = r.1.hbm
        ∧ (t.chan h.chan).sent.getLast? = some ⟨(r.1.chan h.chan).txNext, 5, h.reqId, toBytes 2 code ++ toBytes 2 0 ++ toBytes 4 detail⟩))
      ∧ (r.1.submitBad h b asm = none → asm = none → field b 4 4 = 0 → bitAt (field b 2 2) 2 = true → (b.drop 32).length = field b 28 4 →
        field b 28 4 ≠ 0 → r.1.freeFor f.port pick = true → Answers (exec (.submit f pick) s) (fun t =>
          let x := t.entry pick
          x.state = 1 ∧ x.service = field b 0 1 ∧ x.priority = field b 1 1 ∧ x.channel = h.chan ∧ x.reqId = h.reqId
            ∧ x.epoch = r.1.curEpoch (field b 0 1) ∧ x.arrival = r.1.sysTime ∧ x.received = (b.drop 32).length
            ∧ (∀ q, q ≠ pick → t.entry q = r.1.entry q))))
    ∧ (∀ h, field f.payload 1 1 = 2 → field f.payload 8 4 ≠ 0 → r.2 = some (h, []) → r.1.asmOf h.chan h.reqId = none →
      Tab.sorted r.1.serve.entries = true →
      (∃ p ∈ r.1.serve.entries, p.2.live = true ∧ p.2.sw = false ∧ p.2.channel = h.chan ∧ p.2.reqId = h.reqId) →
      Answers (exec (.cancel f) s) (fun t => ∃ q, (r.1.entry q).live = true ∧ (r.1.entry q).channel = h.chan ∧ (r.1.entry q).reqId = h.reqId
        ∧ (t.entry q).state = 8 ∧ (t.entry q).endReason = 2 ∧ (∀ o, o ≠ q → t.entry o = r.1.entry o)))
    ∧ (field f.payload 1 1 = 2 → field f.payload 8 4 = 0 → s.takesFrame f = true → s.dropsFrame f = false →
      let h := parseMsg f.payload
      let c := s.chan h.chan
      c.prot = false → bitAt h.flags 0 = false → c.waiting = [] → c.txAcked < h.ack → h.ack < c.txNext →
      Answers (exec (.clientBareAck f) s) (fun t => (t.chan h.chan).txAcked = h.ack
        ∧ (t.chan h.chan).sent = c.sent.filter (fun m => decide (h.ack < m.seq)) ∧ (t.chan h.chan).rxNext = c.rxNext))
    ∧ ((s.entry e).state = 0 → (s.entry e).flag fAsm = true → (s.entry e).asmFrom + s.rd .RT_CTL F.RT_CTL.asm_ms * 1000000 ≤ s.time →
      let n := (s.entry e).channel
      (s.chan n).room = true → (s.chan n).waiting = [] → Answers (exec (.asmTimeout e) s) (fun t => t.entry e = Entry.reset
        ∧ (t.chan n).sent.getLast? = some ⟨(s.chan n).txNext, 5, (s.entry e).reqId, toBytes 2 8 ++ toBytes 2 0 ++ toBytes 4 0⟩
        ∧ (∀ o, o ≠ e → t.entry o = s.entry o)))
    ∧ (Tab.find? s.serve.tok hub = some e → (s.entry e).state = 1 → (s.entry e).tokReady = false →
      let x := s.entry e
      let total := field x.head 28 4
      let ids := (s.vocabOf x.service).tokenize s.free (s.hbm.read (s.areaOf e) total)
      let all := if s.on (.SVC_TOKS x.service) F.SVC_TOKS.bos_en then s.rd (.SVC_TOKS x.service) F.SVC_TOKS.bos :: ids else ids
      x.flag fTokenIn = false → s.hbm.rangePoison 64 (s.areaOf e + 64 * x.tokBlocks) 64 = false →
      (64 * (x.tokBlocks + 1) < total → Answers (exec (.tokenizeBlock hub) s) (fun t => t.entry e = { x with tokBlocks := x.tokBlocks + 1 }))
      ∧ (total ≤ 64 * (x.tokBlocks + 1) → all.length ≤ s.svcMaxLen x.service - 1 → Answers (exec (.tokenizeBlock hub) s) (fun t =>
        (t.entry e).tokReady = true ∧ (t.entry e).promptLen = all.length
        ∧ (t.entry e).maxLen = min (all.length + field x.head 8 4) (s.svcMaxLen x.service))))

/-- O: R341, R343, R344, R347, R348: tokens and the END of a request go out in order on its channel; an acknowledgement due is sent; expiry of the
retransmit timer resends, or takes the channel down; enabling a channel starts its sequence numbers. -/
def Obligations.ServingEgress : Prop :=
  ∀ (e n : Nat) (cfg : List Byte) (s : State),
    let x := s.entry e
    let ch := x.channel % 4096
    let c := s.chan n
    let w := field cfg 0 2
    ((s.chan ch).room = true → (s.chan ch).waiting = [] →
      (∀ first k rest, x.outq = (first, k) :: rest → x.flag fText = false → Answers (exec (.egressTokens e) s) (fun t =>
        (t.entry e).outq = rest ∧ (t.chan ch).txNext = (s.chan ch).txNext + 1
        ∧ (t.chan ch).sent = (s.chan ch).sent ++ [⟨(s.chan ch).txNext, 3, x.reqId, toBytes 4 first ++ toBytes 2 k
            ++ toBytes 2 (x.msgFlags false) ++ (s.tokensOf e (x.promptLen + first) k).flatMap (toBytes 4)⟩]
        ∧ (∀ o, o ≠ e → t.entry o = s.entry o)))
      ∧ (x.terminal = true → x.sw = false → x.endSeq = none → x.outq = [] → x.text = [] → Answers (exec (.egressEnd e) s) (fun t =>
        (t.entry e).endSeq = some (s.chan ch).txNext ∧ (t.entry e).state = x.state
        ∧ (t.chan ch).sent = (s.chan ch).sent ++ [⟨(s.chan ch).txNext, 4, x.reqId, endBody x.endReason x.endCause (x.msgFlags (x.flag fText))
            x.genLen x.misses x.promptLen []⟩])))
    ∧ (∀ t0, c.ackDue = some t0 → t0 + 10000 ≤ s.time → c.enabled = true → c.state ≠ 1 → c.prot = false →
      Answers (exec (.bareAckTimer n) s) (fun t => t.out = .msg n (s.wire n c ⟨0, 3, 0, toBytes 8 0⟩) :: s.out
        ∧ t.chan n = { c with ackDue := none } ∧ t.serve.entries = s.serve.entries))
    ∧ (∀ t0, c.timer = some t0 → t0 ≤ s.time → c.enabled = true → c.state = 0 → c.prot = false →
      (c.retries + 1 < c.retryLimit → Answers (exec (.retransmitTimer n) s) (fun t =>
        t.out = (c.sent.map (fun m => Out.msg n (s.wire n c m))).reverse ++ s.out ∧ (t.chan n).retries = c.retries + 1
        ∧ (t.chan n).timer = some (s.time + c.rto * 1000) ∧ (t.chan n).sent = c.sent ∧ t.serve.entries = s.serve.entries))
      ∧ (c.retryLimit ≤ c.retries + 1 → Tab.sorted s.serve.entries = true → Answers (exec (.retransmitTimer n) s) (fun t =>
        (t.chan n).state = 1 ∧ (t.chan n).sent = [] ∧ rtEvent 0 ∈ t.raises
        ∧ (∀ o, (s.entry o).live = true → (s.entry o).sw = false → (s.entry o).channel = n → (s.entry o).step = none → t.entry o = Entry.reset))))
    ∧ (n < 4096 →
      (c.enabled = false → bitAt w 15 = true → c.state ≠ 2 → c.waiting = [] → Answers (exec (.channelEnable n cfg) s) (fun t =>
        let d := t.chan n
        d.enabled = true ∧ d.state = 0 ∧ d.rxNext = 1 ∧ d.txNext = 1 ∧ d.txAcked = 0 ∧ d.sent = [] ∧ d.customer = bits w 9 0
          ∧ d.prot = bitAt w 14 ∧ d.keySlot = field cfg 2 2 ∧ d.retryLimit = field cfg 5 1 ∧ d.peerPort = field cfg 6 2 ∧ d.rto = field cfg 24 4))
      ∧ (c.enabled = true → bitAt w 15 = false → Answers (exec (.channelEnable n cfg) s) (fun t => t.chan n = { c with enabled := false, timer := none })))

/-- O: R28, R29, R193, R357, R359 to R363, R366, R368: a step formed takes the next number, at most 30 records, and a descriptor goes to each facet; arriving, it
joins the facet's queue; reports reach their step; logits reach the sampler; a token sampled is committed, a verify follows its tree. -/
def Obligations.ServingSteps : Prop :=
  ∀ (sv n lf pf e : Nat) (s : State), sv < 64 → pf < 816 →
    let x := s.entry e
    let sm := s.sampler e
    let open_ := fun (l : Bool) (r : StepRun) => s.noc.reports.contains (lf, n, l) = true
      ∧ s.serve.steps.find? (fun q => decide (q.step = n) && (if l then q.wait else q.lfs).contains lf) = some r ∧ s.stepRun r.service n = some r ∧ r.service < 64
    (let place := s.placement sv
      let es := (orderEntries (s.serve.entries.filter (fun p => decide (p.2.service = sv) && s.eligible p))).map Prod.fst
      let f := es.foldl (Forming.take sv) ⟨s, [], [], [], false, none, 0, false⟩
      let dest := place.filter (fun p => f.s.listsEpoch p (f.epoch.getD 0))
      let k := Tab.getD s.serve.nextStep sv 0
      s.svcOn sv = true → s.barHeld sv = false → s.serve.disabling.contains sv = false → place ≠ [] → s.placedAll sv = true →
      place.all s.facetReady = true → f.recs ≠ [] → dest ≠ [] → Answers (exec (.formStep sv) s) (fun t =>
        Tab.getD t.serve.nextStep sv 0 = k + 1 ∧ f.recs.length ≤ 30
        ∧ (∃ r, t.serve.steps = s.serve.steps ++ [r] ∧ r.service = sv ∧ r.step = k ∧ r.recs = f.recs ∧ r.uncommitted = f.taken ∧ r.wait = dest.map f.s.lfOf)
        ∧ (t.serve.sending.map Sending.pf) = (s.serve.sending.map Sending.pf) ++ dest))
    ∧ (∀ d, s.serve.sending.find? (fun q => decide (q.pf = pf)) = some d → (s.region (regionOf pf)).mr = none →
      (s.facet pf).core.dq.length < 4 → Answers (exec (.descriptorArrive pf) s) (fun t =>
        (t.facet pf).core.dq = (s.facet pf).core.dq ++ [d.desc] ∧ t.serve.sending = s.serve.sending.eraseP (fun q => decide (q.pf = pf))
        ∧ t.rd (.FAC_STAT pf) F.FAC_STAT.dq_depth = (s.facet pf).core.dq.length + 1 ∧ (∀ o, o ≠ pf → t.facet o = s.facet o)))
    ∧ (s.serve.kvReports.contains (sv, n) = true → Answers (exec (.kvWriteCompletion sv n) s) (fun t =>
      t.serve.kvReports = s.serve.kvReports.erase (sv, n)))
    ∧ (∀ r, open_ true r → Answers (exec (.scommitReport lf n) s) (fun t => t.noc.reports = s.noc.reports.erase (lf, n, true)
        ∧ (r.wait.filter (fun y => decide (y ≠ lf)) ≠ [] → t.stepRun r.service n = some { r with wait := r.wait.filter (fun y => decide (y ≠ lf)) })
        ∧ (r.wait = [lf] → r.failed = false → r.uncommitted = [] → s.noc.watches = [] → s.kvOpen r.service n true = false →
          t.stepRun r.service n = none)))
    ∧ (∀ r, open_ false r → r.uncommitted.Nodup → s.serve.disabling.contains r.service = false →
      Answers (exec (.stepFailedReport lf n) s) (fun t => t.noc.reports = s.noc.reports.erase (lf, n, false)
        ∧ (∀ o ∈ r.uncommitted, (s.entry o).live = true → (s.entry o).flag fRetried = false →
          (t.entry o).state = (s.entry o).prev ∧ (t.entry o).step = none ∧ (t.entry o).flag fRetried = true)))
    ∧ (∀ l k r, s.noc.logits.find? (fun q => decide (q.pf = pf) && decide (q.entry = e)) = some l → l.step = some k → s.stepRun l.service k = some r →
      x.step = some k → x.service = l.service → r.uncommitted.contains e = true → r.samples e = true → sm.step ≠ k + 1 →
      l.offset + l.vals.length ≤ (s.vocabOf l.service).size → Answers (exec (.soutLogits pf e) s) (fun t =>
        t.noc.logits = s.noc.logits.eraseP (fun q => decide (q.pf = pf) && decide (q.entry = e)) ∧ (t.sampler e).step = k + 1
        ∧ (∀ i, i < l.vals.length → Tab.find? (t.sampler e).logits (l.offset + i) = l.vals[i]?)))
    ∧ (∀ k r, x.step = some k → s.stepRun x.service k = some r → r.uncommitted.contains e = true → r.samples e = true → sm.step = k + 1 → r.wait ≠ [] →
      x.service < 64 → x.customer < 1024 →
      (∀ row tok d, x.state = 3 → sm.row 0 (s.vocabOf r.service).size = some row → s.drawToken e x.total [] row = (d, .token tok) →
        s.isStop x.service tok = false → x.total + 1 < x.maxLen → s.noc.watches = [] → s.poolOn x.service = false → x.sw = false →
        s.hbm.isLost (s.tokAt e x.total / 64) = false → tok < 2 ^ 32 → Answers (exec (.tokenCommit e) s) (fun t =>
          (t.entry e).genLen = x.genLen + 1 ∧ (t.entry e).state = 3 ∧ t.tokenOf e x.total = tok ∧ (t.entry e).outq = x.outq ++ [(x.genLen, 1)]
          ∧ t.rd (.BUD_STAT x.customer) F.BUD_STAT.charged = min (s.rd (.BUD_STAT x.customer) F.BUD_STAT.charged + 1) (2 ^ 24 - 1)))
      ∧ (∀ row c d, x.state = 3 → sm.row 0 (s.vocabOf r.service).size = some row → s.drawToken e x.total [] row = (d, .fail c) →
        Answers (exec (.tokenCommit e) s) (fun t => (t.entry e).state = 9 ∧ (t.entry e).endReason = 3 ∧ (t.entry e).endCause = c))
      ∧ (∀ row tok d, x.state = 4 → sm.done = false → (s.treeOf e).valid x.treeNodes = true →
        sm.row (match sm.cur with | none => 0 | some c => c + 1) (s.vocabOf r.service).size = some row →
        s.drawToken e (x.total + sm.tokens.length) sm.tokens row = (d, .token tok) → Answers (exec (.verifySample e) s) (fun t =>
          (t.sampler e).tokens = sm.tokens ++ [tok]
          ∧ (∀ c, (s.treeOf e).child sm.cur tok = some c → (t.sampler e).path = sm.path ++ [c] ∧ (t.sampler e).cur = some c ∧ (t.sampler e).done = false)
          ∧ ((s.treeOf e).child sm.cur tok = none → (t.sampler e).path = sm.path ∧ (t.sampler e).done = true))))

/-- O: R292, R296, R298, R302, R306, R379, R380: a shared page's copy and a sealing finish; a sealed page takes its source's place and the source is
FREE; a commit copy ends; a free page goes to the first request waiting; a wait too long preempts; a preempted request resumes. -/
def Obligations.PageEngine : Prop :=
  ∀ (idx e : Nat) (s : State), let x := s.entry e
    (∀ c, s.kv.copies[idx]? = some c → c.service < 64 → Answers (exec (.copyOnWrite idx) s) (fun t => t.kv.copies = s.kv.copies.eraseIdx idx
      ∧ t.rd (.KV_POOL_STAT c.service) F.KV_POOL_STAT.cow = min (s.rd (.KV_POOL_STAT c.service) F.KV_POOL_STAT.cow + 1) 4095
      ∧ (t.entry c.entry).pageCount = max (s.entry c.entry).pageCount (c.idx + 1)))
    ∧ (∀ q, s.kv.seals[idx]? = some q → q.ready = false → Answers (exec (.sealImageDone idx) s) (fun t =>
      t.kv.seals[idx]? = some { q with ready := true } ∧ t.regs = s.regs ∧ t.serve = s.serve
      ∧ (∀ b, b < (s.posStride q.service / 64 * s.pageTokens q.service + 63) / 64 →
        (Tab.find? t.kv.hdrs (s.pageAddr q.service q.target + b * 4096)).isSome = true)))
    ∧ (∀ q, s.kv.seals[idx]? = some q → q.ready = true → (s.entry q.entry).flag fDispatched = false → q.service < 64 → s.kv.pfx.length < 16384 →
      Answers (exec (.sealSwap idx) s) (fun t => t.kv.seals = s.kv.seals.eraseIdx idx ∧ t.freeList q.service = q.source :: s.freeList q.service
        ∧ (t.entry q.entry).pageCount = max (s.entry q.entry).pageCount (q.idx + 1)))
    ∧ (∀ c, s.kv.commits[idx]? = some c → s.kvOpen c.service c.step false = false → s.missing c.entry c.pos c.slots.length = [] →
      (∀ r, s.serve.steps.find? (fun r => decide (r.service = c.service) && decide (r.step = c.step)) = some r → r.wait = []) →
      Answers (exec (.commitCopy idx) s) (fun t => t.kv.commits = s.kv.commits.eraseIdx idx ∧ t.serve = s.serve ∧ t.regs = s.regs))
    ∧ (x.service < 64 →
      (x.state = 5 → s.firstIn x.service 5 = some e → s.freeBeyond x.service ≠ 0 → Answers (exec (.pageGrant e) s) (fun t =>
        (t.entry e).state = x.granted ∧ (t.entry e).waitFrom = 0 ∧ (∀ o, o ≠ e → t.entry o = s.entry o)
        ∧ (s.listPage x (x.nextPos / s.pageTokens x.service) = 0xFFFFFFFF → t.freeList x.service = (s.freeList x.service).drop 1)))
      ∧ (x.state = 5 → x.waitFrom + s.rd (.SVC_CFG x.service) F.SVC_CFG.pw_limit * 16000 ≤ s.time → Tab.sorted s.serve.entries = true →
        let l := s.serve.entries.filter (fun p => decide (p.2.service = x.service) && !p.2.flag fDeadline && decide (p.2.pageCount ≠ 0)
          && !p.2.flag fDispatched && p.2.step.isNone && (decide (p.2.state = 2) || decide (p.2.state = 3) || decide (p.2.state = 5)))
        Answers (exec (.pageWaitTimer e) s) (fun t => (l = [] → t.entry e = { x with waitFrom := s.time })
          ∧ (l ≠ [] → t.rd (.SVC_MISS x.service) F.SVC_MISS.preempted = min (s.rd (.SVC_MISS x.service) F.SVC_MISS.preempted + 1) 65535
            ∧ ∃ v ∈ l, (t.entry v.1).state = 6 ∧ (t.entry v.1).prefillPos = 0 ∧ (t.entry v.1).pageCount = 0)))
      ∧ (x.state = 6 → s.firstIn x.service 6 = some e →
        (x.promptLen + x.genLen + s.pageTokens x.service - 1) / s.pageTokens x.service + 1 ≤ s.freeBeyond x.service →
        Answers (exec (.resumePreempted e) s) (fun t => (t.entry e).state = 2 ∧ (∀ o, o ≠ e → t.entry o = s.entry o))))

/-- O: R273, R307, R309, R329, R336: a legal pool is enabled with every page FREE and its free list rising, an illegal one refused; a pool with no page
drawn is disabled; a read in a coded range gives the stored sector, or zeros past the coded length; a range is enabled only where it
is legal; NW_CLEAR clears the seeded flags and counts of its service and nothing else. -/
def Obligations.PoolAndRangeConfiguration : Prop :=
  ∀ (sv st k kind num addr value : Nat) (s : State), sv < 64 → st < 8 → k < 8 → addr < 2 ^ 40 → s.hbm.lost = [] → s.hub.lost = [] →
    let stat := Reg.KV_POOL_STAT sv
    (s.poolOn sv = false → s.poolOk sv = true → let n := s.poolPages sv
      Answers (exec (.kvPoolEnable sv) s) (fun t => t.poolOn sv = true ∧ t.on stat F.KV_POOL_STAT.ready = true ∧ t.freeList sv = List.range n
        ∧ t.rd stat F.KV_POOL_STAT.free = n ∧ (∀ p, p < n → t.page sv p = ⟨0, 0, 0, 0, 0, if p + 1 = n then 0xFFFFFFFF else p + 1⟩)))
    ∧ (s.poolOn sv = false → s.poolOk sv = false → Answers (exec (.kvPoolEnable sv) s) (fun t => t.poolOn sv = false
      ∧ t.on stat F.KV_POOL_STAT.cfg_err = true ∧ t.hbm = s.hbm))
    ∧ (s.poolOn sv = true → s.poolPages sv ≤ (s.freeList sv).length → Answers (exec (.kvPoolDisable sv) s) (fun t => t.poolOn sv = false
      ∧ t.on stat F.KV_POOL_STAT.ready = false ∧ t.freeList sv = [] ∧ t.hbm = s.hbm))
    ∧ (s.poolOn sv = true → (s.freeList sv).length < s.poolPages sv → Answers (exec (.kvPoolDisable sv) s) (fun t => t.poolOn sv = true
      ∧ t.on stat F.KV_POOL_STAT.cfg_err = true ∧ t.kv = s.kv))
    ∧ (s.poolOn sv = false → Answers (exec (.kvPoolStrideWrite sv value) s) (fun t => t.posStride sv = bits value 19 0 ∧ t.hbm = s.hbm))
    ∧ (s.poolOn sv = true → Answers (exec (.kvPoolStrideWrite sv value) s) (fun t => t.posStride sv = s.posStride sv
      ∧ t.on stat F.KV_POOL_STAT.cfg_err = true))
    ∧ (let a := addr / 64 * 64
      let base := s.rd (.PRISM_RANGE_BASE (a / 2 ^ 37) k) F.PRISM_RANGE_BASE.addr * 4096
      ∀ i q, s.rangeOf a = some (k, i, q) →
        let ha := base + s.rd (.PRISM_RANGE_SLOTS (a / 2 ^ 37) k) F.PRISM_RANGE_SLOTS.slots * 4096 + i * 32
        let h := parseHdr (s.hbm.read ha 32)
        let holds := h.raw = true ∨ q < (h.codedLen + 63) / 64
        s.hbm.rangePoison 64 ha 32 = false → s.faults.hbmCe = [] → s.faults.hbmUe = [] → s.hbm.isPoison (a / 64) = false →
        (holds → Answers (exec (.codedSectorRead kind num addr) s) (fun t => t.out = .read (ofBytes (s.hbm.read a 64)) false :: s.out ∧ t.regs = s.regs))
        ∧ (¬holds → Answers (exec (.codedSectorRead kind num addr) s) (fun t => t.out = .read 0 false :: s.out
          ∧ t.rd (.PRISM_RANGE_STAT (a / 2 ^ 37)) F.PRISM_RANGE_STAT.skipped
            = min (s.rd (.PRISM_RANGE_STAT (a / 2 ^ 37)) F.PRISM_RANGE_STAT.skipped + 1) (2 ^ 48 - 1))))
    ∧ (let r := Reg.PRISM_RANGE_BASE st k
      let me := (bits value 39 12 * 4096, s.rd (.PRISM_RANGE_SLOTS st k) F.PRISM_RANGE_SLOTS.slots * 4128)
      let ok := decide (me.2 ≠ 0) && decide (st * 2 ^ 37 ≤ me.1) && decide (me.1 + me.2 ≤ (st + 1) * 2 ^ 37)
        && (List.range 8).all (fun j => decide (j = k) || !s.on (.PRISM_RANGE_BASE st j) F.PRISM_RANGE_BASE.enable || !meet me (s.rangeSpan st j))
      (s.on r F.PRISM_RANGE_BASE.enable = false → Answers (exec (.prismRangeEnable st k value) s) (fun t =>
        t.rd r F.PRISM_RANGE_BASE.addr = bits value 39 12
        ∧ (bitAt value 63 = true → t.on r F.PRISM_RANGE_BASE.enable = ok ∧ (ok = false → t.on (.PRISM_RANGE_STAT st) F.PRISM_RANGE_STAT.cfg_err = true))
        ∧ (bitAt value 63 = false → t.on r F.PRISM_RANGE_BASE.enable = false)))
      ∧ (s.on r F.PRISM_RANGE_BASE.enable = true → Answers (exec (.prismRangeEnable st k value) s) (fun t =>
        t.rd r F.PRISM_RANGE_BASE.addr = s.rd r F.PRISM_RANGE_BASE.addr ∧ t.on r F.PRISM_RANGE_BASE.enable = bitAt value 63
        ∧ (bits value 39 12 ≠ s.rd r F.PRISM_RANGE_BASE.addr → t.on (.PRISM_RANGE_STAT st) F.PRISM_RANGE_STAT.cfg_err = true))))
    ∧ (let lo := 0x3FE0000 + sv * 2048
      Answers (exec (.nwClear sv) s) (fun t => (∀ i, i < lo ∨ lo + 2048 ≤ i → t.hub.byte i = s.hub.byte i)
        ∧ (∀ c, c < 256 → let a := lo + 8 * c
          (∀ j, j < 4 → t.hub.byte (a + j) = s.hub.byte (a + j)) ∧ (∀ j, 4 ≤ j → j < 7 → t.hub.byte (a + j) = 0)
            ∧ (t.hub.byte (a + 7)).toNat = (s.hub.byte (a + 7)).toNat / 2 * 2)))

/-- O: R355, R370 to R375, R378, R381, R386, R388: software queues, cancels and releases its entries and writes tree_nodes, and a write not allowed is counted; a
deadline missed is counted once; a service is admitted only when the proof succeeds, stops, is disabled; a budget's level restarts. -/
def Obligations.SoftwareAndServices : Prop :=
  ∀ (e n sv c value : Nat) (b : List Byte) (cost : Cost) (s : State), sv < 64 → c < 1024 →
    let x := s.entry e
    let y := entryOf b
    let rejected := fun (t : State) => t.serve = s.serve ∧ t.hbm = s.hbm ∧ t.raises = s.raises ++ [rtEvent 2]
      ∧ t.rd .RT_STAT F.RT_STAT.sw_reject = min (s.rd .RT_STAT F.RT_STAT.sw_reject + 1) 65535
    let others := fun (t : State) => ∀ o, o ≠ e → t.entry o = s.entry o
    let mayQueue := s.swEntry e = true ∧ x.state = 0 ∧ x.flag fAsm = false ∧ y.sw = true ∧ samplingBad y.temperature y.topP y.topK y.repPenalty = none
    let stat := Reg.SVC_STAT sv
    (mayQueue → Answers (exec (.swEntryQueue e b) s) (fun t => (t.entry e).state = 1 ∧ (t.entry e).service = y.service
      ∧ (t.entry e).promptLen = y.promptLen ∧ (t.entry e).priority = y.priority ∧ (t.entry e).arrival = s.sysTime
      ∧ (t.entry e).epoch = s.curEpoch y.service ∧ others t))
    ∧ (¬mayQueue → Answers (exec (.swEntryQueue e b) s) rejected)
    ∧ (x.live = true → Answers (exec (.swEntryCancel e) s) (fun t => (t.entry e).state = 8 ∧ (t.entry e).endReason = 2 ∧ others t))
    ∧ (x.live = false → Answers (exec (.swEntryCancel e) s) rejected)
    ∧ (x.terminal = true → x.sw = true → Answers (exec (.swEntryRelease e) s) (fun t => t.entry e = Entry.reset ∧ others t))
    ∧ (x.terminal = false ∨ x.sw = false → Answers (exec (.swEntryRelease e) s) rejected)
    ∧ (x.state = 3 → n ≤ 64 → Answers (exec (.swTreeWrite e n) s) (fun t => t.entry e = { x with treeNodes := n } ∧ others t ∧ t.regs = s.regs))
    ∧ (x.state ≠ 3 ∨ 64 < n → Answers (exec (.swTreeWrite e n) s) rejected)
    ∧ (x.service < 64 → x.live = true → x.flag fDeadline = true → x.missed = false → (if x.genLen = 0 then x.firstDl else x.tokenDl) < s.sysTime →
      let f := if x.flag fHeld then F.SVC_MISS.misses_budget else F.SVC_MISS.misses
      Answers (exec (.deadlineExpire e) s) (fun t => t.entry e = { (x.setFlag fMissed true) with misses := x.misses + 1, missed := true } ∧ others t
        ∧ t.rd (.SVC_MISS x.service) f = min (s.rd (.SVC_MISS x.service) f + 1) 65535))
    ∧ (s.svcOn sv = false → s.on stat F.SVC_STAT.busy = false → Answers (exec (.serviceEnable sv) s) (fun t =>
      t.on stat F.SVC_STAT.busy = true ∧ t.svcOn sv = false ∧ t.serve = s.serve))
    ∧ (s.on stat F.SVC_STAT.busy = true → s.svcOn sv = false → let r := (s.prove sv sv false cost).1
      Answers (exec (.admissionDone sv cost) s) (fun t => t.on stat F.SVC_STAT.busy = false ∧ t.rd stat F.SVC_STAT.reason = r
        ∧ t.on stat F.SVC_STAT.admitted = decide (r = 0) ∧ t.svcOn sv = decide (r = 0) ∧ { rtEvent 1 with unit := sv } ∈ t.raises
        ∧ (r = 0 → Tab.getD t.serve.costs sv Cost.reset = cost)))
    ∧ (s.svcOn sv = true → Answers (exec (.svcReadmit sv) s) (fun t => t.on stat F.SVC_STAT.busy = true ∧ t.svcOn sv = true ∧ t.serve = s.serve))
    ∧ (s.svcOn sv = true →
      ((∃ r ∈ s.serve.steps, r.service = sv) → Answers (exec (.serviceDisable sv) s) (fun t => t.svcOn sv = true ∧ sv ∈ t.serve.disabling
        ∧ t.serve.entries = s.serve.entries))
      ∧ ((∀ r ∈ s.serve.steps, r.service ≠ sv) → Tab.sorted s.serve.entries = true → Answers (exec (.serviceDisable sv) s) (fun t => t.svcOn sv = false
        ∧ (∀ o, (s.entry o).service = sv → (s.entry o).live = true → (t.entry o).state = 9 ∧ (t.entry o).endReason = 3 ∧ (t.entry o).endCause = 4)
        ∧ (∀ o, (s.entry o).service ≠ sv → t.entry o = s.entry o))))
    ∧ Answers (exec (.svcStop sv) s) (fun t => t.on (.SVC_CTL sv) F.SVC_CTL.stop = true ∧ t.svcOn sv = s.svcOn sv ∧ t.serve = s.serve)
    ∧ Answers (exec (.budCfgWrite c value) s) (fun t => t.rd (.BUD_CFG c) F.BUD_CFG.rate = bits value 63 32
      ∧ t.rd (.BUD_CFG c) F.BUD_CFG.burst = bits value 22 0 ∧ t.rd (.BUD_STAT c) F.BUD_STAT.level = bits value 22 0 * 256
      ∧ t.rd (.BUD_STAT c) F.BUD_STAT.charged = s.rd (.BUD_STAT c) F.BUD_STAT.charged)

/-- O: R34, R36, R37, R46 to R49, R52: a latched clock takes effect, a design clock is a clamped multiple of 25; a failed reference clock hands
over to the other, the second failure stops the package; populations are latched and reported; a grant goes to a
pending input with credit, its class as R46 says. -/
def Obligations.ClocksAndArbiters : Prop :=
  ∀ (g f value a : Nat) (active : List (Nat × Nat)) (waiting : List (Nat × Nat × Nat × Bool)) (s : State), g < 48 →
    let r := Reg.REGION_CLK g
    ((s.region g).clkPend = some f → f < 2048 → Answers (exec (.fclkChange g) s) (fun t => t.rd r F.REGION_CLK.fclk_cur = f
      ∧ (t.region g).clkPend = none ∧ (t.region g).clkChanges = (s.region g).clkChanges + 1
      ∧ t.rd r F.REGION_CLK.fclk_design = s.rd r F.REGION_CLK.fclk_design
      ∧ (s.on r F.REGION_CLK.throttled = true → (t.on r F.REGION_CLK.throttled = false ↔ s.rd r F.REGION_CLK.fclk_design ≤ f))))
    ∧ Answers (exec (.regionClkWrite g value) s) (fun t => t.rd r F.REGION_CLK.fclk_design = min 1600 (max 400 (bits value 10 0 / 25 * 25))
      ∧ t.rd r F.REGION_CLK.fclk_cur = s.rd r F.REGION_CLK.fclk_cur ∧ t.serve = s.serve)
    ∧ (s.ctl.refFailed.contains (1 - s.ctl.refclk) = false → Answers (exec .refclkFail s) (fun t => t.ctl.refclk = 1 - s.ctl.refclk
      ∧ s.ctl.refclk ∈ t.ctl.refFailed ∧ t.raises = s.raises ++ [⟨2, 0x106, 0xFFFF, 0xFFFF, []⟩] ∧ t.regs = s.regs))
    ∧ (s.ctl.refFailed.contains (1 - s.ctl.refclk) = true → Answers (exec .refclkFail s) (fun t => t.ctl.stopped = true ∧ t.regs = s.regs))
    ∧ (s.ctl.arbRep = [] → Answers (exec (.populationRefresh a active) s) (fun t =>
      let sum := fun (k : Nat) => min 1023 (((t.arb a).pops.filter (fun p => decide (p.1 / 2 ^ 16 = k))).map Prod.snd).sum
      (∀ k i, k < 4 → i < 2 ^ 16 → Tab.getD (t.arb a).pops (k * 2 ^ 16 + i) 0
        = min 1023 (active.countP (fun p => decide (p.1 % 4 = k) && decide (p.2 % 2 ^ 16 = i))))
      ∧ (∀ p ∈ arbParents a, ∀ k, k < 4 → Tab.getD t.ctl.arbRep ((p.1 * 2 ^ 16 + p.2) * 4 + k) 0 = sum k)
      ∧ (a / 2 ^ 16 = 1 → a % 2 ^ 16 < 48 → t.rd (.REGION_ARB_POP (a % 2 ^ 16)) F.REGION_ARB_POP.pop_bulk = sum 2)))
    ∧ (∀ k, (s.arb a).pickClass (fun k => (waiting.filter (fun p => decide (p.1 = k) && decide (0 < p.2.2.1))).any (fun p => p.2.2.2)) = some k →
      Answers (exec (.arbiterGrant a waiting) s) (fun t => (∃ i n, (k, i, n, true) ∈ waiting ∧ 0 < n ∧ (t.arb a).last = some (k, i))
        ∧ (t.arb a).since = (if k = 3 then 0 else (s.arb a).since + 1) ∧ (t.arb a).rot = (if k = 3 then (s.arb a).rot else ((s.arb a).rot + 1) % 4)
        ∧ (t.arb a).pops = (s.arb a).pops ∧ t.regs = s.regs))

/-- O: R423 to R428, R430, R431, R433: a raise writes its record and counts; a source becomes pending when its conditions hold and it is neither
pending nor in service; a release reaches the core; claiming takes the source presented first; completion is the claimer's. -/
def Obligations.EventController : Prop :=
  ∀ (idx k c n value : Nat) (fast asleep : Bool) (s : State), c < 16 → s.hub.lost = [] →
    let waits := fun (x : Src) => s.srcPending x = false ∧ s.srcServed x = false
    let core := s.rd (.CORE_MAP c) F.CORE_MAP.phys
    let claimed := fun (t : State) (x : Src) => t.srcPending x = false ∧ t.srcServed x = true ∧ Tab.find? t.ctl.evClaim x.key = some c
      ∧ t.rd (.EV_STAT c) F.EV_STAT.claims = min (s.rd (.EV_STAT c) F.EV_STAT.claims + 1) (2 ^ 32 - 1)
    (∀ r, s.raises[idx]? = some r → r.src < 4096 → (∀ q ∈ s.raises.take idx, q.src ≠ r.src) → s.on .LOUPE_CTL F.LOUPE_CTL.events = false →
      let x := Src.shared r.src
      let count := s.rd (.EV_SRC r.src) F.EV_SRC.pend_count
      let q := Reg.EV_RING (s.srcLc x)
      let tail := s.rd q F.EV_RING.tail
      Answers (exec (.eventRaise idx) s) (fun t => t.raises = s.raises.eraseIdx idx
        ∧ (waits x → max 1 (s.rd (.EV_SRC r.src) F.EV_SRC.coal_count) ≤ count + 1 → count < 255 →
          t.srcPending x = true ∧ t.rd (.EV_SRC r.src) F.EV_SRC.pend_count = 0)
        ∧ (¬waits x → t.srcPending x = s.srcPending x ∧ t.rd (.EV_SRC r.src) F.EV_SRC.pend_count = min 255 (count + 1))
        ∧ (writesRecord r.src = true → (tail + 1) % 1024 ≠ s.rd q F.EV_RING.head → t.rd q F.EV_RING.tail = (tail + 1) % 1024
          ∧ t.hub.read (0x200000 + s.srcLc x * 0x8000 + tail * 32) 32 = r.record s.sysClock)
        ∧ (writesRecord r.src = false → t.hub = s.hub)))
    ∧ (k < 4096 → let x := Src.shared k
      (waits x → s.releaseDue x = true → Answers (exec (.coalTimer k) s) (fun t => t.srcPending x = true ∧ t.rd (.EV_SRC k) F.EV_SRC.pend_count = 0))
      ∧ (¬(waits x ∧ s.releaseDue x = true) → exec (.coalTimer k) s = .next s))
    ∧ (∀ x, s.present c fast = some x → s.on (.CORE_MAP c) F.CORE_MAP.valid = true → Answers (exec (.interruptDeliver c fast asleep) s) (fun t =>
      Tab.find? t.ctl.irq (core * 2 + b2n fast) = some 1 ∧ t.srcPending x = true
      ∧ t.rd (.EV_STAT c) F.EV_STAT.wakes = min (s.rd (.EV_STAT c) F.EV_STAT.wakes + b2n asleep) 65535))
    ∧ (∀ x, s.present c false = some x → Answers (exec (.evClaim c) s) (fun t => claimed t x ∧ t.out = .read x.number false :: s.out))
    ∧ (s.present c false = none → exec (.evClaim c) s = .next (s.emit (.read 0x1FFF false)))
    ∧ (∀ x, s.present c true = some x → Answers (exec (.evClaimf c) s) (fun t => claimed t x ∧ t.out = .read x.number false :: s.out))
    ∧ (s.present c true = none → exec (.evClaimf c) s = .next (s.emit (.read 0x1FFF false)))
    ∧ (s.on (.EV_MODE c) (if fast then F.EV_MODE.vec_fast else F.EV_MODE.vec_normal) = true →
      let base := s.rd (.EV_MODE c) F.EV_MODE.vbase * 2 ^ 12
      (∀ x, s.present c fast = some x → Answers (exec (.vectorAccept c fast) s) (fun t => claimed t x
        ∧ t.out = .vector c (base + x.number * 16) :: s.out))
      ∧ (s.present c fast = none → Answers (exec (.vectorAccept c fast) s) (fun t => t.out = .vector c (base + 0x1040 * 16) :: s.out
        ∧ t.rd (.EV_STAT c) F.EV_STAT.spurious = min (s.rd (.EV_STAT c) F.EV_STAT.spurious + 1) 65535)))
    ∧ (n < 4096 → let x := Src.shared n
      (s.srcServed x = true → Tab.find? s.ctl.evClaim n = some c → Answers (exec (.evComplete c n) s) (fun t => t.srcServed x = false
        ∧ (t.srcPending x = true ↔ s.srcPending x = true ∨ s.releaseDue x = true) ∧ Tab.find? t.ctl.evClaim n = none))
      ∧ (Tab.getD s.ctl.evClaim n 16 ≠ c → exec (.evComplete c n) s = .next s)
      ∧ Answers (exec (.evSrcWrite n value) s) (fun t => t.rd (.EV_SRC n) F.EV_SRC.target = bits value 19 16 ∧ t.srcOn x = bitAt value 0
        ∧ t.srcFast x = bitAt value 11 ∧ t.rd (.EV_SRC n) F.EV_SRC.coal_count = bits value 47 40
        ∧ t.rd (.EV_SRC n) F.EV_SRC.coal_time = bits value 63 48 ∧ t.srcPending x = s.srcPending x ∧ t.srcServed x = s.srcServed x
        ∧ t.rd (.EV_SRC n) F.EV_SRC.pend_count = s.rd (.EV_SRC n) F.EV_SRC.pend_count))
    ∧ (let m := bits value 12 0
      (bitAt value 63 = false → 0x800 ≤ m → m < 0x1000 → exec (.evRaiseWrite value) s = .next (s.raise ⟨m, 0, 0xFFFF, 0xFFFF, []⟩))
      ∧ (bitAt value 63 = true → m < 32 → exec (.evRaiseWrite value) s = .next (s.raise ⟨2 ^ 16 + bits value 51 48 * 64 + m, 0, 0xFFFF, 0xFFFF, []⟩))
      ∧ (bitAt value 63 = false → m < 0x800 → exec (.evRaiseWrite value) s = .next s))

/-- O: R434, R435, R437, R438, R440 to R442: the ROM starts on the first core that passes its test; a round accepts the first image that passes every check, or waits 1 s;
hub B takes over; the jump loads, reports and starts; cores start, LCs move, an update brings the mirrors to STANDBY, and a core with an
uncorrectable error is fenced and serves no LC. -/
def Obligations.CoresAndBoot : Prop :=
  ∀ (h p value : Nat) (failed : List Nat) (imgs : List (Nat × List Byte)) (s : State), h < 2 → p < 20 → s.hub.lost = [] →
    (∀ q ∈ s.ctl.evClaim, q.1 < 4096) → (∀ c, c < 16 → s.rd (.CORE_MAP c) F.CORE_MAP.phys < 20) →
    let x := s.hubBoot h
    let keys := match s.bootRec with | some r => r.keys | none => []
    let svn := match s.bootRec with | some r => r.svn | none => 0
    let got := (s.attempts h).filterMap (fun k => (imgs.find? (fun q => decide (q.1 = k) && imgWhole q.2)).map (fun q => (k, q.2)))
    let serves := fun (s : State) (c p : Nat) => s.on (.CORE_MAP c) F.CORE_MAP.valid = true ∧ s.rd (.CORE_MAP c) F.CORE_MAP.phys = p
    (s.power.phase = 0 → s.hubFenced h = false → x.core = none →
      ((List.range 10).map (· + h * 10)).find? (fun p => !failed.contains p && decide (s.coreState p = 0)) = some p →
      Answers (exec (.bootRomStart h failed) s) (fun t => (t.hubBoot h).core = some p ∧ t.coreState p = 1
        ∧ (s.bootRec = none → t.rd .FW_STAT F.FW_STAT.rom_err = 1)))
    ∧ (x.core ≠ none → x.image = none → x.retryAt = none → (h = 0 ∨ x.own = true) →
      (∀ k img, got.find? (fun q => decide (imageErr q.2 keys svn = 0)) = some (k, img) → Answers (exec (.bootSourceRound h imgs) s) (fun t =>
        (t.hubBoot h).image = some img ∧ (t.hubBoot h).source = attemptSource k ∧ t.rd .FW_STAT F.FW_STAT.rom_err = 0 ∧ t.power.ready = true))
      ∧ ((∀ q ∈ got, imageErr q.2 keys svn ≠ 0) → Answers (exec (.bootSourceRound h imgs) s) (fun t => (t.hubBoot h).image = none
        ∧ (t.hubBoot h).retryAt = some (s.time + 1000000000) ∧ t.rd .FW_STAT F.FW_STAT.rom_err ≠ 0)))
    ∧ (∀ t0, x.retryAt = some t0 → t0 ≤ s.time → Answers (exec (.bootRetryTimer h) s) (fun t => (t.hubBoot h).retryAt = none ∧ t.regs = s.regs))
    ∧ (s.hubALate = true → Answers (exec .spiPinTakeover s) (fun t => t.boot.spiHub = 1 ∧ t.regs = s.regs)
      ∧ Answers (exec .hubBBootTimeout s) (fun t => t.boot.b.own = true ∧ t.regs = s.regs))
    ∧ (s.hubALate = false → exec .spiPinTakeover s = .next s ∧ exec .hubBBootTimeout s = .next s)
    ∧ (∀ img, s.boot.a.core = some p → p < 10 → s.boot.a.jumped = false → s.boot.a.image = some img → imgWhole img = true →
      Answers (exec (.bootJump 0) s) (fun t => t.boot.a.jumped = true ∧ t.coreState p = 2
        ∧ t.rd .FW_STAT F.FW_STAT.version = field img 8 4 ∧ t.rd .FW_STAT F.FW_STAT.svn = field img 12 2
        ∧ .start p (0x600000000000 + slotBase 0 0 + 8192 + field img 20 4) (s.rd (.CORE_STAT p) F.CORE_STAT.lc) 0 ∈ t.out))
    ∧ Answers (exec (.coreStart value) s) (fun t => t.boot.started = true
      ∧ (∀ c p, c < 16 → p < 20 → bitAt value c = true → serves s c p → s.coreState p = 0 → t.coreState p = 2)
      ∧ (∀ p, p < 20 → s.coreState p ≠ 0 → t.coreState p = s.coreState p))
    ∧ (let c := bits value 3 0
      let dest := bits value 20 16
      let err := fun (t : State) => t.rd .CORE_HANDOVER F.CORE_HANDOVER.err
      bitAt value 63 = true →
      (s.on .CORE_HANDOVER F.CORE_HANDOVER.busy = true → Answers (exec (.coreHandover value) s) (fun t => err t = 2 ∧ t.boot = s.boot))
      ∧ (s.on .CORE_HANDOVER F.CORE_HANDOVER.busy = false → (20 ≤ dest ∨ (s.coreState dest ≠ 3 ∧ s.coreState dest ≠ 4)) →
        Answers (exec (.coreHandover value) s) (fun t => err t = 1 ∧ t.boot = s.boot))
      ∧ (s.on .CORE_HANDOVER F.CORE_HANDOVER.busy = false → dest < 20 → (s.coreState dest = 3 ∨ s.coreState dest = 4) →
        s.on .FW_UPDATE F.FW_UPDATE.busy = false → serves s c p → p ≠ dest → s.coreState p = 2 →
        Answers (exec (.coreHandover value) s) (fun t => err t = 0 ∧ serves t c dest ∧ t.coreState dest = 2 ∧ t.coreState p = 0
          ∧ t.rd (.CORE_STAT p) F.CORE_STAT.lc = 0x1F ∧ t.rd (.CORE_STAT dest) F.CORE_STAT.lc = c
          ∧ (∀ n, Tab.find? s.ctl.evClaim n = some c → t.srcServed (.shared n) = false ∧ t.srcPending (.shared n) = true)
          ∧ t.raises = s.raises ++ [⟨2 ^ 16 + c * 64 + 33, 0, 0xFFFF, 0xFFFF, []⟩, ⟨0xD, 0x107, 0xFFFF, 0xFFFF, []⟩])))
    ∧ (bitAt value 63 = true → s.on .FW_UPDATE F.FW_UPDATE.busy = false →
      let a := bits value 39 6 * 64
      let n := min 4194304 (8192 + s.hbm.readNat (a + 16) 4)
      let mirror := ∃ p, p < 20 ∧ s.coreState p = 3 ∧ s.hubFenced (hubOfCore p) = false
      (¬mirror → Answers (exec (.fwUpdate value) s) (fun t => t.rd .FW_UPDATE F.FW_UPDATE.err = 5 ∧ t.boot = s.boot
        ∧ t.raises = s.raises ++ [⟨0xE, 0x10B, 0xFFFF, 0xFFFF, []⟩]))
      ∧ (mirror → s.hbm.rangePoison 64 a n = false → imageErr (s.hbm.read a n) keys svn = 0 → Answers (exec (.fwUpdate value) s) (fun t =>
        t.rd .FW_UPDATE F.FW_UPDATE.err = 0 ∧ t.on .FW_UPDATE F.FW_UPDATE.busy = true ∧ t.boot.update = some (s.hbm.read a n) ∧ t.hub = s.hub)))
    ∧ (∀ img c q, s.boot.update = some img → c < 16 → q < 20 → serves s c q → s.coreState q = 2 → Tab.getD s.boot.coreSlot q 0 = s.boot.slot →
      s.boot.slot < 2 → Answers (exec .fwUpdateStandby s) (fun t => t.boot.update = none ∧ t.raises = s.raises ++ [⟨0xE, 0x109, 0xFFFF, 0xFFFF, []⟩]
        ∧ (∀ p, p < 20 → t.coreState p = if s.coreState p = 3 then 4 else s.coreState p)))
    ∧ (let lc := s.rd (.CORE_STAT p) F.CORE_STAT.lc
      Answers (exec (.coreEccError p true) s) (fun t => t.regs = s.regs
        ∧ t.raises = s.raises ++ (if lc < 16 then [⟨2 ^ 16 + lc * 64 + 32, 0, 0xFFFF, 0xFFFF, []⟩] else []))
      ∧ (s.coreState p ≠ 5 → Answers (exec (.coreEccError p false) s) (fun t => t.coreState p = 5 ∧ unitDesc 8 p 0 0 ∈ t.faults.active
        ∧ (∀ c, c < 16 → ¬serves t c p))))

/-- O: R449 to R453, R467, R469, R475, R476: a write of FLT_FENCE fences the unit it names, once; a facet's LF passes to a free mirror facet; a lost
channel reads poison; late map entries are appended; records are exported and sent again; vault writes and rebuilds use the
write window. -/
def Obligations.FencesRecordsAndVault : Prop :=
  ∀ (pf k c value : Nat) (s : State), pf < 816 → k < 8 → c < 16 →
    let desc := unitDesc 3 pf 0 0
    let chan := unitDesc 0x0B k c 0
    let lf := s.lfOf pf
    let m := regionOf pf * 17 + 16
    let due := fun (e : Nat × Nat) => decide (e.2 ≤ s.time)
    (s.names value = false → Answers (exec (.fltFenceWrite value) s) (fun t => t.on .FLT_STAT F.FLT_STAT.fence_err = true ∧ t.faults = s.faults))
    ∧ (s.names value = true → s.isFenced value = true → exec (.fltFenceWrite value) s = .next s)
    ∧ (s.isFenced desc = false → (s.facet pf).fenced = false → lf < 768 → m ≠ pf → s.mirrorFree (regionOf pf) = true →
      Answers (exec (.fltFenceWrite desc) s) (fun t => (t.facet pf).fenced = true ∧ t.lfOf pf = 0x3FF ∧ t.lfOf m = lf
        ∧ t.rd (.LF_MAP lf) F.LF_MAP.pf = m ∧ desc ∈ t.faults.active ∧ (desc, s.time + 1000000000) ∈ t.faults.late
        ∧ ⟨6, 0x1C0, 0xFFFF, 0xFFFF, [desc, clsUnit, 0]⟩ ∈ t.raises))
    ∧ (s.isFenced chan = false → Answers (exec (.fltFenceWrite chan) s) (fun t => chan ∈ t.faults.active
      ∧ (∀ a, k * 2 ^ 37 + c * 2 ^ 33 ≤ a → a < k * 2 ^ 37 + (c + 1) * 2 ^ 33 → t.hbmLost a = true)))
    ∧ (s.faults.map.length + s.faults.late.length ≤ 65536 → Answers (exec .mapAppendTimeout s) (fun t =>
      t.faults.map = s.faults.map ++ (s.faults.late.filter due).map Prod.fst ∧ t.faults.late = s.faults.late.filter (fun e => !due e)))
    ∧ (let sent := fun (j port : Nat) => let a := s.rd .FLT_CPER_RING F.FLT_CPER_RING.addr * 2 ^ 21 + j * 8192
        Out.cper (s.reg (.FLT_EXPORT_IP 0)) (s.reg (.FLT_EXPORT_IP 1)) port (s.hbm.read a (min 8192 (s.hbm.readNat (a + 20) 4)))
      (∀ j l, s.faults.toSend = j :: l → s.on .FLT_EXPORT F.FLT_EXPORT.enable = true → s.mgmtUp = true → Answers (exec .cperExport s) (fun t =>
        t.faults.toSend = l ∧ t.out = sent j (s.rd .FLT_EXPORT F.FLT_EXPORT.port) :: s.out ∧ t.regs = s.regs))
      ∧ Answers (exec (.cperResend value) s) (fun t => t.rd .FLT_EXPORT F.FLT_EXPORT.port = bits value 47 32
        ∧ t.on .FLT_EXPORT F.FLT_EXPORT.enable = bitAt value 63
        ∧ (bitAt value 0 = true → s.mgmtUp = true → t.out = sent (bits value 15 8) (bits value 47 32) :: s.out)
        ∧ (bitAt value 0 = true → s.mgmtUp = false → t.faults.toSend = s.faults.toSend ++ [bits value 15 8])))
    ∧ (∀ w rest, s.vault.writes = w :: rest → let die := s.vault.dies.getD w.done 0
      s.dieFenced die = false → (s.dieWindow die = true → Answers (exec .vaultWrite s) (fun t =>
          Tab.find? t.vault.recs (w.rec_ * 4 + w.done) = some ⟨w.gen, true, w.data⟩
          ∧ t.vault.writes = (if w.done = 2 then rest else { w with done := w.done + 1 } :: rest)
          ∧ t.on .VAULT_STAT F.VAULT_STAT.waiting = false ∧ (t.on .VAULT_STAT F.VAULT_STAT.busy = true ↔ t.vault.writes ≠ [])))
        ∧ (s.dieWindow die = false → Answers (exec .vaultWrite s) (fun t => t.vault = s.vault ∧ t.on .VAULT_STAT F.VAULT_STAT.waiting = true)))
    ∧ (∀ j d, s.vault.rebuild = some (j, d) → d < 4 → j < s.vault.dies.length →
      (s.dieWindow d = true → Answers (exec .vaultRebuild s) (fun t => t.vault.rebuild = none ∧ t.vault.dies.getD j 0 = d
        ∧ t.on .VAULT_STAT F.VAULT_STAT.degraded = false ∧ bitAt (t.rd .VAULT_STAT F.VAULT_STAT.copy_dies) d = true))
      ∧ (s.dieWindow d = false → Answers (exec .vaultRebuild s) (fun t => t.vault = s.vault ∧ t.on .VAULT_STAT F.VAULT_STAT.waiting = true)))

/-- O: R457, R458, R460 to R463, R470, R471: a mirror run starts on the slot next in turn, passes, is voided or finds a difference; its replay blames the
facet, the mirror or neither, and the second count fences; an injection is refused unless allowed and known, armed, or done at once. -/
def Obligations.MirrorRunsAndInjection : Prop :=
  ∀ (g value : Nat) (s : State), g < 48 → (∀ n, ∀ y ∈ Tab.getD s.staged n [], y.phys < 132) →
    (∀ n, n < 816 → s.lfOf n < 768 ∨ s.lfOf n = 0x3FF) →
    let r := s.region g
    let stat := Reg.MR_STAT g
    let kind := bits value 23 16
    let inj := Reg.FLT_INJ_CTL
    (∀ i, r.mr = none → s.mirrorsOn g = true → s.nextSlot g = some i → s.facState (g * 17 + i) = 4 → Answers (exec (.mrRunStart g) s) (fun t =>
      (t.region g).mr = some ⟨i, 0, 0, [], none⟩ ∧ t.regs = s.regs ∧ t.facets = s.facets))
    ∧ (∀ m, r.mr = some m → m.slot < 16 →
      (m.phase = 0 → Answers (exec (.mrSnapshotDone g) s) (fun t => (t.region g).mr = some { m with phase := 1 } ∧ t.regs = s.regs))
      ∧ (∀ first diff, Answers (exec (.mrMirrorStepEnd g true first diff) s) (fun t => (t.region g).mr = none
        ∧ t.rd stat F.MR_STAT.void = min (s.rd stat F.MR_STAT.void + 1) (2 ^ 16 - 1)))
      ∧ (m.phase = 2 → s.on inj F.FLT_INJ_CTL.arm = false → ∀ first,
        Answers (exec (.mrMirrorStepEnd g false first none) s) (fun t => (t.region g).mr = none
          ∧ t.rd stat F.MR_STAT.runs = min (s.rd stat F.MR_STAT.runs + 1) (2 ^ 24 - 1))
        ∧ (∀ o, Answers (exec (.mrMirrorStepEnd g false first (some o)) s) (fun t =>
          (t.region g).mr = some { m with phase := 3, diff := some ⟨o.kind, o.order, o.bundle, o.orig, o.mirror, none⟩ } ∧ t.regs = s.regs)))
      ∧ (∀ d replay, m.diff = some d → d.inj = none →
        (replay = d.mirror → replay ≠ d.orig → Answers (exec (.mrReplayDone g true replay) s) (fun t => (t.region g).mr = none
          ∧ t.rd stat F.MR_STAT.confirmations = min (s.rd stat F.MR_STAT.confirmations + 1) 255
          ∧ t.confOf g m.slot = min 2 (s.confOf g m.slot + 1) ∧ (1 ≤ s.confOf g m.slot → (t.facet (g * 17 + m.slot)).fenced = true)))
        ∧ (replay = d.orig → Answers (exec (.mrReplayDone g true replay) s) (fun t => (t.region g).mr = none
          ∧ t.rd stat F.MR_STAT.mirror_faults = min (s.rd stat F.MR_STAT.mirror_faults + 1) 255
          ∧ t.confOf g 16 = min 2 (s.confOf g 16 + 1) ∧ (1 ≤ s.confOf g 16 → (t.facet (g * 17 + 16)).fenced = true)))
        ∧ Answers (exec (.mrReplayDone g false replay) s) (fun t => (t.region g).mr = none
          ∧ t.rd stat F.MR_STAT.unresolved = min (s.rd stat F.MR_STAT.unresolved + 1) 255
          ∧ (t.region g).focus.getLast? = some (m.slot, max 1 (s.rd (.MR_CTL g) F.MR_CTL.focus_clean)))))
    ∧ (bitAt value 0 = true →
      (s.on inj F.FLT_INJ_CTL.allowed = false ∨ knownKind kind = false → Answers (exec (.fltInjArm value) s) (fun t =>
        t.on inj F.FLT_INJ_CTL.refused = true ∧ t.on inj F.FLT_INJ_CTL.arm = s.on inj F.FLT_INJ_CTL.arm ∧ t.faults = s.faults ∧ t.raises = s.raises))
      ∧ (s.on inj F.FLT_INJ_CTL.allowed = true → 1 ≤ kind → kind < 0x0A → Answers (exec (.fltInjArm value) s) (fun t =>
        t.on inj F.FLT_INJ_CTL.arm = true ∧ t.rd inj F.FLT_INJ_CTL.kind = kind ∧ t.rd inj F.FLT_INJ_CTL.arg = bits value 63 24
        ∧ t.on inj F.FLT_INJ_CTL.dry = bitAt value 1 ∧ t.raises = s.raises))
      ∧ (s.on inj F.FLT_INJ_CTL.allowed = true → kind = 0x0E → Answers (exec (.fltInjArm value) s) (fun t =>
        t.on inj F.FLT_INJ_CTL.arm = false ∧ t.on inj F.FLT_INJ_CTL.done = true ∧ bits value 63 24 / 64 ∈ t.faults.hbmCe
        ∧ t.raises = s.raises ++ [⟨6, 0x1C9, 0xFFFF, 0xFFFF, [0x0E, s.reg .FLT_INJ_SEL, bits value 1 1]⟩])))

/-- O: R483, R486, R490, R491, R494, R496: a port is enabled, trains, loses lanes; flits are taken in order or asked for again, resent on the timer; time is
sent, the delay measured; a message incomplete for 1 ms is dropped. -/
def Obligations.LinkPorts : Prop :=
  ∀ (p lane value peer peerPort ident rtt vc : Nat) (good : List Nat) (b : List Byte) (s : State), p < 12 → lane < 9 → peer < 256 →
    peerPort < 16 → s.on .FLT_INJ_CTL F.FLT_INJ_CTL.arm = false → s.on .LOUPE_CTL F.LOUPE_CTL.flits = false →
    let st := Reg.LINK_PORT_STAT p
    let x := s.lport p
    let l := (List.range 9).filter (fun i => good.contains i && !s.faults.active.contains (unitDesc 9 p i 0))
    (s.on (.LINK_PORT_CTL p) F.LINK_PORT_CTL.enable = false → bitAt value 0 = true → Answers (exec (.linkPortEnable p value) s) (fun t =>
      t.portState p = 1 ∧ t.on (.LINK_PORT_CTL p) F.LINK_PORT_CTL.enable = true ∧ t.lanes p = [] ∧ t.link = s.link))
    ∧ (s.on (.LINK_PORT_CTL p) F.LINK_PORT_CTL.enable = true → bitAt value 0 = false → Answers (exec (.linkPortEnable p value) s) (fun t =>
      t.portState p = 0 ∧ t.on (.LINK_PORT_CTL p) F.LINK_PORT_CTL.enable = false ∧ (t.lport p).sent = [] ∧ (t.lport p).waiting = []))
    ∧ (s.portState p = 1 →
      (4 ≤ l.length → s.conflict p peer ident = false → Answers (exec (.linkTrainDone p good peer peerPort ident) s) (fun t =>
        t.portState p = (if 8 ≤ l.length then 2 else 3) ∧ t.lanes p = l.take 8 ∧ t.rd st F.LINK_PORT_STAT.peer_pkg = peer
        ∧ t.rd st F.LINK_PORT_STAT.peer_port = peerPort ∧ ⟨7, 0x190, 0xFFFF, 0xFFFF, [p, peer, peerPort, min 8 l.length]⟩ ∈ t.raises))
      ∧ (4 ≤ l.length → s.conflict p peer ident = true → Answers (exec (.linkTrainDone p good peer peerPort ident) s) (fun t =>
        t.portState p = 5 ∧ t.raises = s.raises ++ [⟨7, 0x194, 0xFFFF, 0xFFFF, [p, peer]⟩]))
      ∧ (l.length < 4 → Answers (exec (.linkTrainDone p good peer peerPort ident) s) (fun t => t.portState p = 4)))
    ∧ (s.portUp p = true →
      (x.spare ≠ some lane → (s.lanes p).contains lane = true → (x.spare = none ∨ s.on (.LINK_PORT_CTL p) F.LINK_PORT_CTL.spare_en = false) →
        let left := (s.lanes p).filter (fun i => decide (i ≠ lane))
        (4 ≤ left.length → Answers (exec (.laneReplace p lane) s) (fun t => t.portState p = 3 ∧ t.lanes p = left
          ∧ t.raises = s.raises ++ [⟨7, 0x193, 0xFFFF, 0xFFFF, [p, left.length]⟩]))
        ∧ (left.length < 4 → Answers (exec (.laneReplace p lane) s) (fun t => t.portState p = 4)))
      ∧ (b.length = 256 → crc32c (b.take 252) = field b 252 4 → field b 0 1 = 4 → x.sent = [] → x.waiting = [] → field b 4 1 = s.pkg → bitAt (field b 1 1) 2 = false →
        field b 2 2 % 4096 = x.rxNext → Answers (exec (.flitReceive p b 0) s) (fun t => (t.lport p).rxNext = (x.rxNext + 1) % 4096
          ∧ t.link.inbox = s.link.inbox ++ [(p, msgOf (field b 1 1 % 4) (field b 5 1) s.pkg false ((b.drop 16).take (min 224 (field b 6 1)))
              (bitsSet 28 (field b 8 4)))] ∧ t.regs = s.regs))
      ∧ (crc32c (b.take 252) ≠ field b 252 4 → x.nak = false → Answers (exec (.flitReceive p b 0) s) (fun t => (t.lport p).nak = true
        ∧ t.link.inbox = s.link.inbox ∧ t.rd (.LINK_PORT_ERR p) F.LINK_PORT_ERR.crc = min (s.rd (.LINK_PORT_ERR p) F.LINK_PORT_ERR.crc + 1) 4095))
      ∧ (∀ t0, x.timer = some t0 → t0 ≤ s.time →
        let most := max 1 (s.rd (.LINK_PORT_CTL p) F.LINK_PORT_CTL.replay_max)
        (x.replays < most → Answers (exec (.linkReplayTimer p) s) (fun t => (t.lport p).replays = x.replays + 1 ∧ (t.lport p).sent = x.sent
          ∧ t.out.length = s.out.length + x.sent.length ∧ t.portState p = s.portState p))
        ∧ (most ≤ x.replays → Answers (exec (.linkReplayTimer p) s) (fun t => t.portState p = 4 ∧ (t.lport p).sent = [])))
      ∧ Answers (exec (.delayMeasure p rtt) s) (fun t => ∃ up, up ≤ rtt % 2 ∧ t.rd (.LINK_PORT_DELAY p) F.LINK_PORT_DELAY.delay = (rtt / 2 + up) % 2 ^ 32)
      ∧ (s.on (.LINK_PORT_CTL p) F.LINK_PORT_CTL.time_tx = true → x.waiting = [] → x.sent.length < 512 → 0 < x.credits.getD 3 0 →
        Answers (exec (.timeSendTick p) s) (fun t => t.out.length = s.out.length + 1 ∧ (t.lport p).sent.length = x.sent.length + 1 ∧ t.regs = s.regs)))
    ∧ (∀ part, Tab.find? x.part vc = some part → part.since + 1000000 ≤ s.time → Answers (exec (.msgIncompleteTimeout p vc) s) (fun t =>
      Tab.find? (t.lport p).part vc = none ∧ t.link.inbox = s.link.inbox))

/-- O: R244, R395, R484, R493 to R498, R500: a WRITE is stored, a SEND delivered, a RESP taken off its job, TIME estimated; the barrier is armed, its
arrivals counted, released at T or at once, failed; the package number is written only while every port is disabled. -/
def Obligations.MessagesAndBarrier : Prop :=
  ∀ (q value : Nat) (s : State), q < 12 →
    let taken := fun (kind : Nat) (r : State × Nat × LMsg) => s.takeMsg kind = some r
    let bar := fun (t : State) => t.rd .BAR_STAT F.BAR_STAT.state
    (∀ u m, taken 1 (u, q, m) → m.mcast = false → m.data.length ≤ 64 → m.data ≠ [] → m.addr % 64 = 0 → m.addr < 2 ^ 40 → m.poison = [] →
      s.hbmLost m.addr = false → s.pageOf m.addr = none → Answers (exec .msgWrite s) (fun t => t.hbm.read m.addr m.data.length = m.data
        ∧ (∀ i, i < m.addr ∨ m.addr + m.data.length ≤ i → t.hbm.byte i = s.hbm.byte i)))
    ∧ (∀ u m pf, taken 2 (u, q, m) → s.pfOf (m.addr % 1024) = some pf → (s.facet pf).core.recvs = [] →
      (s.facet pf).core.dropsMsg (some (m.addr / 2 ^ 32)) = false → Answers (exec .msgSend s) (fun t => (t.facet pf).core.rxq = (s.facet pf).core.rxq
        ++ [⟨2 ^ 24 + m.src * 2 ^ 16 + m.tag % 1024, m.addr % 1024, m.chan, some (m.addr / 2 ^ 32), m.data, m.poison⟩] ∧ t.regs = s.regs))
    ∧ (∀ u m, taken 3 (u, q, m) → Answers (exec .msgResp s) (fun t => t.loader.jobs = s.loader.jobs.map (fun j =>
      if j.kind = 2 ∧ j.slot = m.tag then { j with pkgs := j.pkgs.erase m.src } else j) ∧ t.regs = s.regs))
    ∧ (∀ u m, taken 4 (u, q, m) → s.pkg ≠ s.rd .LINK_CFG F.LINK_CFG.root → q = s.rd .LINK_CFG F.LINK_CFG.parent → Answers (exec .msgTime s) (fun t =>
      t.rd .TIME_STAT F.TIME_STAT.hops = (field m.data 16 1 + 1) % 256
      ∧ t.rd .TIME_STAT F.TIME_STAT.ofs = toCode 32 ((field m.data 8 8 : Int) + (s.rd (.LINK_PORT_DELAY q) F.LINK_PORT_DELAY.delay : Int)
          - ((s.sysClock * 16 : Nat) : Int))))
    ∧ (bar s ≠ 1 → s.isRoot = false → bitAt value 0 = true → Answers (exec (.barArm value) s) (fun t =>
      bar t = 1 ∧ t.link.barTimer = some (s.time + max 1 (bits value 39 16) * 1000) ∧ t.rd .BAR_CTL F.BAR_CTL.count = bits value 15 7))
    ∧ (∀ u m, taken 5 (u, q, m) → s.isRoot = true → bar s = 1 → s.link.barFrom.length + 1 < max 1 (s.rd .BAR_CTL F.BAR_CTL.count) →
      Answers (exec .msgBarArrive s) (fun t => t.link.barFrom = s.link.barFrom ++ [m.src] ∧ t.rd .BAR_STAT F.BAR_STAT.arrivals = s.link.barFrom.length + 1
        ∧ bar t = 1))
    ∧ (∀ u m, taken 6 (u, q, m) → s.isRoot = false → bar s = 1 → let own := (-((s.timeOfs - 16 * (field m.data 0 8 : Int)) / 16)).toNat
      (s.sysClock ≤ own → Answers (exec .msgBarRelease s) (fun t => t.link.barAt = some own ∧ bar t = 1))
      ∧ (own < s.sysClock → Answers (exec .msgBarRelease s) (fun t => bar t = 2 ∧ t.on .BAR_STAT F.BAR_STAT.late = true)))
    ∧ (∀ u m, taken 7 (u, q, m) → s.isRoot = false → bar s = 1 → Answers (exec .msgBarFail s) (fun t => bar t = 3
      ∧ t.raises = s.raises ++ [⟨7, 0x196, 0xFFFF, 0xFFFF, [s.rd .BAR_STAT F.BAR_STAT.arrivals, 1]⟩]))
    ∧ (∀ t0, s.link.barAt = some t0 → bar s = 1 → t0 ≤ s.sysClock → Answers (exec .barLocalRelease s) (fun t => bar t = 2
      ∧ (s.on .BAR_CTL F.BAR_CTL.align = true → s.anyLive = false → t.sysClock = s.rd .BAR_T F.BAR_T.t)
      ∧ (s.on .BAR_CTL F.BAR_CTL.align = true → s.anyLive = true → t.sysClock = s.sysClock ∧ t.on .BAR_STAT F.BAR_STAT.align_refused = true)))
    ∧ (∀ t0, s.link.barTimer = some t0 → t0 ≤ s.time → bar s = 1 → s.isRoot = false → Answers (exec .barTimer s) (fun t => bar t = 3
      ∧ t.link.barTimer = none ∧ t.link.barAt = none))
    ∧ Answers (exec (.linkCfgWrite value) s) (fun t => t.rd .LINK_CFG F.LINK_CFG.root = bits value 23 16 ∧ t.rd .LINK_CFG F.LINK_CFG.parent = bits value 27 24
      ∧ t.pkg = if (List.range 12).all (fun i => !s.on (.LINK_PORT_CTL i) F.LINK_PORT_CTL.enable) then bits value 7 0 else s.pkg)

/-- O: R507 to R512, R516 to R522, R525, R527: a nonce is drawn once; a command is refused by busy or by state, or begins with what it writes, and ends with its
status; a seed is unwrapped at power-up; keys are written only while unlocked and unused; a sensor alarms on appearing and acts by its class; an
erase ends when two copies hold it. -/
def Obligations.SecurityBlock : Prop :=
  ∀ (slot n h value : Nat) (failed dies : List Nat) (s : State), n < 13 → h < 2 →
    let cmd := fun (t : State) => t.rd .SEC_CMD F.SEC_CMD.status
    let begun := fun (t : State) (op : Nat) => t.on .SEC_CMD F.SEC_CMD.busy = true ∧ ∃ c, t.sec.cmd = some c ∧ c.op = op ∧ c.status = none
    let token := s.secInput 7411
    let valid := fun (op : Nat) => s.on .SEC_CMD F.SEC_CMD.busy = false ∧ s.stateErr op = 0 ∧ token.2 = false ∧ s.tokenErr token.1 op = 0
    let alarm := Reg.SEC_ALARM n
    (let b := toBytes 64 (Config.entropy s.sec.draws)
     Answers (exec .nonceDraw s) (fun t => t.sec.nonce = some b ∧ t.sec.draws = s.sec.draws + 1 ∧ t.out = .read (field b 0 8) false :: s.out
        ∧ (∀ k, k < 8 → t.reg (.SEC_NONCE k) = field b (8 * k) 8)))
    ∧ (∀ op c, (op, c) ∈ [(1, Instr.attest), (2, .enroll), (3, .svnCommit), (4, .unlock), (5, .owner)] →
      (s.on .SEC_CMD F.SEC_CMD.busy = true → Answers (exec c s) (fun t => cmd t = 2 ∧ t.sec = s.sec ∧ t.vault = s.vault))
      ∧ (s.on .SEC_CMD F.SEC_CMD.busy = false → s.stateErr op ≠ 0 → Answers (exec c s) (fun t => t.sec.cmd = some ⟨op, [], some (s.stateErr op), []⟩
        ∧ t.vault = s.vault ∧ t.sec.nonce = s.sec.nonce)))
    ∧ (s.on .SEC_CMD F.SEC_CMD.busy = false → s.stateErr 1 = 0 → (s.secInput 64).2 = false → Answers (exec .attest s) (fun t => begun t 1 ∧ t.vault = s.vault))
    ∧ (valid 2 → Answers (exec .enroll s) (fun t => begun t 2 ∧ t.sec.nonce = none ∧ t.sec.draws = s.sec.draws + 1
      ∧ (∃ w ∈ t.vault.writes, w.rec_ = vGen ∧ w.data = .count (s.idGen + 1))))
    ∧ (s.on .SEC_CMD F.SEC_CMD.busy = false → s.stateErr 3 = 0 → Answers (exec .svnCommit s) (fun t => begun t 3
      ∧ (∀ r, s.bootRec = some r → r.svn < s.rd .FW_STAT F.FW_STAT.svn →
        ∃ w ∈ t.vault.writes, w.rec_ = vBoot ∧ w.data = .boot { r with svn := s.rd .FW_STAT F.FW_STAT.svn })))
    ∧ (valid 4 → Answers (exec .unlock s) (fun t => begun t 4 ∧ t.sec.nonce = none ∧ t.vault = s.vault))
    ∧ (valid 5 → Answers (exec .owner s) (fun t => begun t 5 ∧ t.sec.nonce = none
      ∧ (∃ w ∈ t.vault.writes, w.rec_ = vOwner ∧ w.data = .bytes ((token.1.drop 128).take 64))))
    ∧ (∀ c, s.sec.cmd = some c → c.op < 8 →
      (∀ e, c.status = some e → e < 256 → Answers (exec .secCmdComplete s) (fun t => t.sec.cmd = none ∧ t.on .SEC_CMD F.SEC_CMD.busy = false ∧ cmd t = e
        ∧ t.raises = s.raises ++ [⟨5, 0x1A5, 0xFFFF, 0xFFFF, [c.op, e]⟩]))
      ∧ (c.status = none → c.waits.all (fun w => s.vheld w.1 w.2) = true → Answers (exec .secCmdComplete s) (fun t => t.sec.cmd = none
        ∧ t.on .SEC_CMD F.SEC_CMD.busy = false ∧ cmd t = 1 ∧ ⟨5, 0x1A5, 0xFFFF, 0xFFFF, [c.op, 1]⟩ ∈ t.raises
        ∧ (c.op = 4 → t.locked = false) ∧ (c.op ≠ 4 → t.locked = s.locked) ∧ (c.op = 2 → t.idState = 1 ∧ t.sec.seed.isSome = true))))
    ∧ (s.power.phase = 0 → s.sec.seed = none →
      let got := fun k => if failed.contains k then none else s.unwrap k
      (s.erasing = true → Answers (exec (.pufUnwrap failed) s) (fun t => t.idState = 2 ∧ t.sec = s.sec))
      ∧ (s.erasing = false → ∀ x, (got 0 = some x ∨ (got 0 = none ∧ got 1 = some x)) → Answers (exec (.pufUnwrap failed) s) (fun t => t.sec.seed = some x
        ∧ t.idState = 1 ∧ t.rd .SEC_STAT F.SEC_STAT.hub_keys = 3))
      ∧ (s.erasing = false → got 0 = none → got 1 = none → Answers (exec (.pufUnwrap failed) s) (fun t => t.sec.seed = none
        ∧ t.idState = if s.owned = false ∧ s.vbytes vKey = none then 0 else if s.erased then 2 else 3)))
    ∧ (let bad := s.locked = true ∨ 8191 < slot ∨ ∃ p ∈ s.serve.chans, p.2.enabled = true ∧ p.2.keySlot = slot
      let key := [0, 1, 2, 3].flatMap (fun k => toBytes 8 (s.reg (.SEC_KEY_DATA k)))
      let cleared := fun (t : State) => ∀ k, k < 4 → t.reg (.SEC_KEY_DATA k) = 0
      (¬bad → Answers (exec (.keyCommit slot) s) (fun t => Tab.find? t.sec.keys slot = some key ∧ cleared t)
        ∧ Answers (exec (.keyClear slot) s) (fun t => Tab.find? t.sec.keys slot = none ∧ cleared t))
      ∧ (bad → ∀ c ∈ [Instr.keyCommit slot, .keyClear slot], Answers (exec c s) (fun t => t.sec = s.sec ∧ cleared t
        ∧ t.on .SEC_KEY_SEL F.SEC_KEY_SEL.refused = true)))
    ∧ (Answers (exec (.sensorAlarm n false) s) (fun t => t.on alarm F.SEC_ALARM.active = false ∧ t.raises = s.raises ∧ t.sec = s.sec))
    ∧ (s.on alarm F.SEC_ALARM.active = false → s.rd alarm F.SEC_ALARM.cls ≤ 2 → Answers (exec (.sensorAlarm n true) s) (fun t =>
      t.on alarm F.SEC_ALARM.active = true ∧ t.rd alarm F.SEC_ALARM.count = min (s.rd alarm F.SEC_ALARM.count + 1) 65535
      ∧ ⟨5, 0x1A0, 0xFFFF, 0xFFFF, [n, s.rd alarm F.SEC_ALARM.cls, 0]⟩ ∈ t.raises
      ∧ t.locked = (s.locked || decide (s.rd alarm F.SEC_ALARM.cls = 2))))
    ∧ (s.erasing = true → s.sec.erase ≠ [] → s.sec.erase.all (fun w => s.vheld w.1 w.2) = true → Answers (exec .eraseComplete s) (fun t =>
      t.erasing = false ∧ t.sec.erase = [] ∧ t.raises = s.raises ++ [⟨5, 0x1A2, 0xFFFF, 0xFFFF, [s.idGen]⟩]))
    ∧ Answers (exec (.secAlarmClassWrite n value) s) (fun t => t.rd alarm F.SEC_ALARM.count = bits value 63 48
      ∧ t.rd alarm F.SEC_ALARM.cls = max (s.rd alarm F.SEC_ALARM.cls) (bits value 3 2) ∧ t.on alarm F.SEC_ALARM.active = s.on alarm F.SEC_ALARM.active)
    ∧ (s.hubFenced h = false → s.rd (.SEC_ALARM 11) F.SEC_ALARM.cls ≤ 2 → Answers (exec (.d2dChallenge h dies) s) (fun t =>
      t.on (.SEC_ALARM 11) F.SEC_ALARM.active = (List.range 4).any (fun d => dies.contains d && !s.dieFenced d)))

/-- O: R529, R531, R533 to R535, R537, R543 to R546: a sensor round shows the hottest reading and moves the region's state; hot, the clock is
stepped down, cool and below its design point, up; boost steps above it; rails are read, set before a raise, and a failed transaction counted. -/
def Obligations.TemperaturesClocksRails : Prop :=
  ∀ (g k d n hot : Nat) (codes : List Int) (t : Int) (s : State), g < 48 → k < 8 → d < 4 → n < 12 →
    let therm := Reg.REGION_THERM g
    let st := s.rd therm F.REGION_THERM.state
    let cur := s.rd (.REGION_CLK g) F.REGION_CLK.fclk_cur
    let design := s.rd (.REGION_CLK g) F.REGION_CLK.fclk_design
    let asked := fun (u : State) (f : Nat) => (u.region g).clkPend = some f ∨ (u.region g).clkWait = some f
    let rail := Reg.PWR_RAIL n
    ((s.region g).sensNew = [] → s.on .FLT_INJ_CTL F.FLT_INJ_CTL.arm = false → s.sensBroken g = [] → (s.region g).cal = none →
      s.newlyBroken g (s.sensCount g (s.region g) codes) codes = [] → hot ∈ s.sensUse g →
      (∀ j ∈ s.sensUse g, codes.getD j 0 ≤ codes.getD hot 0) → let top := codes.getD hot 0
      let nx := thermNext st top (decide (design ≤ cur))
      Answers (exec (.sensorRound g codes) s) (fun u =>
        (st ≠ 4 → u.rd therm F.REGION_THERM.temp = toCode 16 top ∧ u.regionTemp g = sext 16 (toCode 16 top)
          ∧ u.rd therm F.REGION_THERM.state = nx ∧ (nx = 4 → (u.region g).tripped = true ∧ (u.region g).stopped = true
          ∧ u.rd therm F.REGION_THERM.trips = min (s.rd therm F.REGION_THERM.trips + 1) 65535))
        ∧ (st = 4 → nx ≠ 4 → (u.region g).tripped = false ∧ (u.region g).stopped = false)))
    ∧ ((s.region g).clkPend = none → (s.region g).clkWait = none → st ≠ 1 → st ≠ 4 →
      (1600 ≤ s.regionTemp g → max 400 (cur - 100) < cur → Answers (exec (.throttleTick g) s) (fun u =>
        (u.region g).clkPend = some (max 400 (cur - 100)) ∧ (max 400 (cur - 100) < design → u.on (.REGION_CLK g) F.REGION_CLK.throttled = true)))
      ∧ (s.regionTemp g < 1568 → cur < design → Answers (exec (.throttleTick g) s) (fun u => asked u (min design (cur + 25)) ∧ u.regs = s.regs))
      ∧ (1568 ≤ s.regionTemp g → s.regionTemp g < 1600 → exec (.throttleTick g) s = .next s))
    ∧ ((s.region g).clkPend = none → (s.region g).clkWait = none → st = 0 →
      (cur < design → s.on (.REGION_CLK g) F.REGION_CLK.throttled = false → Answers (exec (.boostDecision g) s) (fun u =>
        asked u (min design (cur + 25)) ∧ u.regs = s.regs))
      ∧ (design ≤ cur → cur < 1600 → s.on .THERM_CTL F.THERM_CTL.boost_en = true → s.regionTemp g < sext 16 (s.rd .THERM_CTL F.THERM_CTL.boost_max) →
        s.rd .PWR_STAT F.PWR_STAT.p_in < s.rd .PWR_CTL F.PWR_CTL.p_limit → Answers (exec (.boostDecision g) s) (fun u =>
          asked u (min 1600 (cur + 25)) ∧ u.regs = s.regs))
      ∧ (design < cur → s.on .THERM_CTL F.THERM_CTL.boost_en = false → Answers (exec (.boostDecision g) s) (fun u =>
        (u.region g).clkPend = some design ∧ u.regs = s.regs)))
    ∧ Answers (exec (.hbmTemp k t false) s) (fun u => Tab.getD u.plant.hot k 0 = b2n (decide (1360 < t)) + 2 * b2n (decide (1520 < t)) ∧ u.regs = s.regs
      ∧ (1520 < t → Tab.getD s.plant.hot k 0 < 2 → u.raises = s.raises ++ [⟨3, 0x188, k, 0xFFFF, [k, toCode 32 t]⟩]))
    ∧ Answers (exec (.hbmTemp k t true) s) (fun u => u.power.phase = 4 ∧ u.power.trip = true ∧ u.power.enabled = [] ∧ u.power.ready = false)
    ∧ ((∃ r, r < 12 ∧ (s.region (d * 12 + r)).clkWait ≠ none) → s.on .PWR_CTL F.PWR_CTL.avs_en = true → (∀ e ∈ s.power.vwait, e.1 ≠ d) →
      Answers (exec (.vfacSetpointRaise d) s) (fun u => Tab.find? u.power.vwait d = some (s.dieVolt d) ∧ u.out = .avs d (s.dieVolt d) :: s.out ∧ u.regs = s.regs))
    ∧ (∀ mv, Tab.find? s.power.vwait d = some mv → mv < 65536 →
      Answers (exec (.vfacSettled d true) s) (fun u => u.rd (.PWR_RAIL d) F.PWR_RAIL.vset = mv ∧ Tab.find? u.power.vwait d = none
        ∧ (∀ r f, r < 12 → (s.region (d * 12 + r)).clkWait = some f → s.voltFor f ≤ mv → (u.region (d * 12 + r)).clkPend = some f))
      ∧ Answers (exec (.vfacSettled d false) s) (fun u => u.rd .PWR_STAT F.PWR_STAT.bus_err = min (s.rd .PWR_STAT F.PWR_STAT.bus_err + 1) 65535
        ∧ (∀ r, r < 12 → (u.region (d * 12 + r)).clkWait = none ∧ (u.region (d * 12 + r)).clkPend = (s.region (d * 12 + r)).clkPend)))
    ∧ Answers (exec (.railPoll n none) s) (fun u => u.on rail F.PWR_RAIL.comm_err = true ∧ u.rd rail F.PWR_RAIL.vout = s.rd rail F.PWR_RAIL.vout
      ∧ u.rd .PWR_STAT F.PWR_STAT.bus_err = min (s.rd .PWR_STAT F.PWR_STAT.bus_err + 1) 65535)
    ∧ (∀ v i on, v < 65536 → i < 65536 → Answers (exec (.railPoll n (some (v, i, on))) s) (fun u => u.rd rail F.PWR_RAIL.vout = v
      ∧ u.rd rail F.PWR_RAIL.iout = i ∧ u.on rail F.PWR_RAIL.on = on ∧ u.on rail F.PWR_RAIL.comm_err = false
      ∧ (u.on rail F.PWR_RAIL.over_warn = true ↔ 9 * s.rd rail F.PWR_RAIL.ilimit < i)))
    ∧ Answers (exec .powerForecast s) (fun u => u.serve = s.serve ∧ u.rd .PWR_STAT F.PWR_STAT.p_in = s.rd .PWR_STAT F.PWR_STAT.p_in
      ∧ ((∀ v, v < 64 → s.svcOn v = false) → u.rd .PWR_STAT F.PWR_STAT.p_sched = min 65535 (Config.freeValue 540 0)))

/-- O: R536, R538, R539, R542, R570 to R572: the plant loop drives the valve and the pump, hands over without a jump, and opens fully on a fault; the power
sequence enables group after group, fails at a rail, waits and restarts; PORST_N and package trips put the package in reset. -/
def Obligations.PlantAndPowerSequence : Prop :=
  ∀ (n ns value pulses : Nat) (t pred tin tout : Int) (temps : List Int) (s : State), n < 12 →
    let st := Reg.PLANT_STAT
    let valve := fun (u : State) => u.rd st F.PLANT_STAT.valve
    let pump := fun (u : State) => u.rd st F.PLANT_STAT.pump
    let en := s.on .THERM_CTL F.THERM_CTL.plant_en
    let sound := s.plant.lost = false ∧ s.plant.low = false
    let opened := fun (u : State) (cause : Nat) => valve u = s.rd .PLANT_CTL F.PLANT_CTL.u_max ∧ pump u = 0x3FF
      ∧ (∃ l, ⟨3, 0x187, 0xFFFF, 0xFFFF, cause :: l⟩ ∈ u.raises)
    let p := s.power
    (en = true → sound → (∀ g, g < 48 → s.regionCold g = false) → Answers (exec (.plantStep pred) s) (fun u => u.plant.u = s.loop.1 ∧ u.plant.i = s.loop.2
      ∧ (∃ up, up ≤ 1 ∧ valve u = min 0x3FF ((s.loop.1 * 1024).floor.toNat + up)) ∧ pump u = max (s.rd .PLANT_CTL F.PLANT_CTL.pump_min) (valve u)))
    ∧ (en = false → bitAt value 0 = true → Answers (exec (.plantEnWrite value) s) (fun u => u.on .THERM_CTL F.THERM_CTL.plant_en = true ∧ u.plant.i = 0
      ∧ u.plant.u = (valve s : Rat) / 1024 ∧ valve u = valve s))
    ∧ (en = true → bitAt value 0 = false → sound → Answers (exec (.plantEnWrite value) s) (fun u => u.on .THERM_CTL F.THERM_CTL.plant_en = false
      ∧ valve u = s.rd .PLANT_IO F.PLANT_IO.valve_man ∧ pump u = s.rd .PLANT_IO F.PLANT_IO.pump_man))
    ∧ Answers (exec (.plantSensorRead (some tin) (some tout)) s) (fun u => u.rd st F.PLANT_STAT.t_in = toCode 16 tin ∧ u.rd st F.PLANT_STAT.t_out = toCode 16 tout
      ∧ u.plant.lost = false ∧ u.plant.lastRead = s.time)
    ∧ (s.plant.lost = false → s.plant.lastRead + 100000000 ≤ s.time → Answers (exec .plantSensorLost s) (fun u => u.plant.lost = true ∧ opened u 0
      ∧ u.on .PLANT_ERR F.PLANT_ERR.sensor_lost = true))
    ∧ (let low := 100000 * pulses < s.rd .PWR_STAT F.PWR_STAT.p_sched * s.rd .PLANT_IO F.PLANT_IO.k_factor ∧ s.rd .PLANT_CTL F.PLANT_CTL.pump_min ≤ pump s
      (¬low → Answers (exec (.flowWindow pulses) s) (fun u => u.plant.low = false ∧ u.plant.lowSince = none))
      ∧ (low → s.plant.lowSince = none → Answers (exec (.flowWindow pulses) s) (fun u => u.plant.lowSince = some s.time ∧ valve u = valve s))
      ∧ (∀ t0, low → s.plant.lowSince = some t0 → t0 + 1000000000 ≤ s.time → s.plant.low = false → Answers (exec (.flowWindow pulses) s) (fun u =>
        u.plant.low = true ∧ opened u 1 ∧ u.on .PLANT_ERR F.PLANT_ERR.flow_low = true)))
    ∧ (ns < 1000 → exec (.porstAssert ns) s = .next s)
    ∧ (1000 ≤ ns → Answers (exec (.porstAssert ns) s) (fun u => u.power.phase = 1 ∧ u.power.enabled = [] ∧ u.power.good = [] ∧ u.power.fails = 0
      ∧ u.facets = [] ∧ u.serve = Serve.reset ∧ u.hub = Mem.empty ∧ u.sec.keys = s.sec.keys ∧ u.sec.seed = none))
    ∧ (p.phase = 1 → Answers (exec .porstRelease s) (fun u => u.sysClock = 0 ∧ u.faults.boots = s.faults.boots + 1
      ∧ (p.trip = false → u.power.phase = 2 ∧ u.power.enabled = railGroup 0 ∧ u.power.group = 0) ∧ (p.trip = true → u.power.phase = 4)))
    ∧ (p.phase = 2 → p.enabled.contains n = true →
      ((∃ k ∈ p.enabled, k ≠ n ∧ k ∉ p.good) → Answers (exec (.railPgRise n) s) (fun u => n ∈ u.power.good ∧ u.power.group = p.group ∧ u.power.enabled = p.enabled))
      ∧ ((∀ k ∈ p.enabled, k = n ∨ k ∈ p.good) → p.group < 7 → Answers (exec (.railPgRise n) s) (fun u => u.power.group = p.group + 1
        ∧ u.power.enabled = p.enabled ++ railGroup (p.group + 1) ∧ u.power.phase = 2))
      ∧ ((∀ k ∈ p.enabled, k = n ∨ k ∈ p.good) → 7 ≤ p.group → s.faults.map = [] → Answers (exec (.railPgRise n) s) (fun u => u.power.phase = 0 ∧ u.power.fails = 0)))
    ∧ (let failed := fun (u : State) => u.rd .PWR_SEQ F.PWR_SEQ.rail = n ∧ u.on .PWR_SEQ F.PWR_SEQ.fail = true ∧ u.power.fails = p.fails + 1
        ∧ u.rd .PWR_SEQ F.PWR_SEQ.attempts = min (s.rd .PWR_SEQ F.PWR_SEQ.attempts + 1) 255 ∧ u.power.phase = (if 3 ≤ p.fails + 1 then 5 else 3)
        ∧ u.power.enabled = []
      (p.phase = 2 → p.enabled.contains n = true → p.good.contains n = false → p.since + 10000000 ≤ s.time → Answers (exec (.railPgTimeout n) s) failed)
      ∧ (p.phase = 0 → p.good.contains n = true → 10000 < ns → Answers (exec (.railPgDrop n ns) s) failed)
      ∧ (ns ≤ 10000 → exec (.railPgDrop n ns) s = .next s))
    ∧ (p.phase = 3 → p.since + 1000000000 ≤ s.time → Answers (exec .seqRestartTimer s) (fun u => u.power.phase = 2 ∧ u.power.group = 0
      ∧ u.power.enabled = railGroup 0))
    ∧ (p.phase = 0 → 1920 ≤ t → Answers (exec (.pkgSensorTrip n t) s) (fun u => u.power.phase = 4 ∧ u.power.trip = true
      ∧ u.rd (.THERM_PKG n) F.THERM_PKG.temp = toCode 16 t))
    ∧ (t < 1920 → Answers (exec (.pkgSensorTrip n t) s) (fun u => u.power = p ∧ u.rd (.THERM_PKG n) F.THERM_PKG.temp = toCode 16 t))
    ∧ (p.trip = true → p.phase = 4 → temps.length = 12 → (∀ x ∈ temps, x < 1360) → Answers (exec (.pkgTripRestart temps) s) (fun u => u.power.trip = false
      ∧ u.power.phase = 2 ∧ u.sysClock = 0 ∧ u.rd (.THERM_PKG n) F.THERM_PKG.temp = toCode 16 (temps.getD n 0)))
    ∧ (p.trip = true → (∃ x ∈ temps, 1360 ≤ x) → exec (.pkgTripRestart temps) s = .next s)

/-- O: R558 to R563, R565 to R567, R573 to R575: edges of TIME_IN, frames to and from software, the ports' enabling, PCIe in both directions, the TAP's
instructions and the loupe. -/
def Obligations.PortsTapAndLoupe : Prop :=
  ∀ (ns p k q h value lanes speed width addr n : Nat) (frame data : List Byte) (ep ok : Bool) (pins load : List Bool) (s : State),
    p < 3 → k < 2 → q < 2 → h < 2 →
    let rx := Reg.NET_RX (p / 2)
    let rxLen := ringLen (s.rd rx F.NET_RX.size_log2)
    let rxTail := s.rd rx F.NET_RX.tail % rxLen
    let tx := Reg.NET_TX k
    let txLen := ringLen (s.rd tx F.NET_TX.size_log2)
    let head := s.rd tx F.NET_TX.head % txLen
    let e := s.rd tx F.NET_TX.addr * 64 + head * 16
    let port := s.hbm.readNat (e + 10) 1
    let buf := s.hbm.readNat (e + 8) 2
    let base := s.rd (.PCIE_WIN h) F.PCIE_WIN.base * 2 ^ 20
    let size := s.rd (.PCIE_WINSZ h) F.PCIE_WINSZ.mib * 2 ^ 20
    let up := s.on (.PCIE_STAT h) F.PCIE_STAT.up
    let act := if s.hubFenced (bits value 4 4) then 1 - bits value 4 4 else bits value 4 4
    (1000 ≤ ns → Answers (exec (.timeInEdge ns) s) (fun t => t.rd .TIME_IN_STAMP F.TIME_IN_STAMP.time = s.sysClock
      ∧ t.raises = s.raises ++ [⟨0xC, 0x1B5, 0xFFFF, 0xFFFF, [s.sysClock]⟩]))
    ∧ (ns < 1000 → exec (.timeInEdge ns) s = .next s)
    ∧ (s.macState p = 2 → frame.length ≤ 9216 → (p < 2 → s.on (.SPORT_CTL p) F.SPORT_CTL.to_sw = true) →
      ((rxTail + 1) % rxLen ≠ s.rd rx F.NET_RX.head % rxLen → Answers (exec (.frameToSoftware p frame false false) s) (fun t =>
        t.rd rx F.NET_RX.tail = (rxTail + 1) % rxLen ∧ t.raises = s.raises ++ [⟨8 + p / 2, 0x1B2, 0xFFFF, 0xFFFF, [p / 2, (rxTail + 1) % rxLen]⟩]))
      ∧ (p < 2 → (rxTail + 1) % rxLen = s.rd rx F.NET_RX.head % rxLen → Answers (exec (.frameToSoftware p frame false false) s) (fun t =>
        t.rd (.SPORT_ERR p) F.SPORT_ERR.sw_drop = min (s.rd (.SPORT_ERR p) F.SPORT_ERR.sw_drop + 1) (2 ^ (F.SPORT_ERR.sw_drop.hi + 1 - F.SPORT_ERR.sw_drop.lo) - 1)
        ∧ t.hbm = s.hbm)))
    ∧ (head ≠ s.rd tx F.NET_TX.tail % txLen → port / 2 = k → port < 3 → s.macState port = 2 → s.hbm.rangePoison 64 (s.hbm.readNat e 8) buf = false →
      let b := s.hbm.read (s.hbm.readNat e 8) buf
      Answers (exec (.netTxSend k) s) (fun t => t.out = .frame port (b ++ frameFcs b) :: s.out ∧ t.rd tx F.NET_TX.head = (head + 1) % txLen
        ∧ (s.hbm.isLost ((e + 11) / 64) = false → (t.hbm.byte (e + 11)).toNat = 1) ∧ (∀ i, i ≠ e + 11 → t.hbm.byte i = s.hbm.byte i)))
    ∧ (bitAt value 0 = true → s.on (.SPORT_CTL q) F.SPORT_CTL.enable = false → Answers (exec (.sportEnable q value lanes) s) (fun t =>
      t.rd (.SPORT_STAT q) F.SPORT_STAT.state = (if lanes % 16 = 15 then 2 else 3) ∧ t.rd (.SPORT_STAT q) F.SPORT_STAT.lanes_ok = lanes % 16
      ∧ t.on (.SPORT_CTL q) F.SPORT_CTL.enable = true))
    ∧ (bitAt value 0 = false → s.on (.SPORT_CTL q) F.SPORT_CTL.enable = true → Answers (exec (.sportEnable q value lanes) s) (fun t =>
      t.rd (.SPORT_STAT q) F.SPORT_STAT.state = 0 ∧ t.on (.SPORT_CTL q) F.SPORT_CTL.enable = false))
    ∧ (bitAt value 0 = true → s.on .MGMT_CTL F.MGMT_CTL.enable = false → Answers (exec (.mgmtPortEnable value ok) s) (fun t =>
      t.rd .MGMT_STAT F.MGMT_STAT.state = (if ok then 2 else 3) ∧ t.rd .MGMT_STAT F.MGMT_STAT.hub_active = act))
    ∧ (bitAt value 0 = true → bitAt value 1 = false → s.hubFenced h = false → up = false → speed ≠ 0 → speed < 8 → Answers (exec (.pcieEnable h value speed width) s) (fun t =>
      t.on (.PCIE_STAT h) F.PCIE_STAT.up = true ∧ t.rd (.PCIE_STAT h) F.PCIE_STAT.width = min width 4
      ∧ t.rd (.PCIE_STAT h) F.PCIE_STAT.speed = min speed (if 1 ≤ bits value 7 4 ∧ bits value 7 4 ≤ 6 then bits value 7 4 else 6)))
    ∧ (up = true → ¬(0xFEE00000 ≤ addr ∧ addr ≤ 0xFEE00FFF) →
      (addr + data.length ≤ size → base + size ≤ 2 ^ 40 → data ≠ [] → addr % 64 = 0 → data.length ≤ 64 → s.hbmLost (base + addr) = false →
        s.pageOf (base + addr) = none → Answers (exec (.pcieInbound h addr n (some data) false) s) (fun t => t.hbm.read (base + addr) data.length = data
          ∧ (∀ i, i < base + addr ∨ base + addr + data.length ≤ i → t.hbm.byte i = s.hbm.byte i) ∧ t.regs = s.regs))
      ∧ (size < addr + n → Answers (exec (.pcieInbound h addr n none ep) s) (fun t => t.out = .pcieCpl h [] false true :: s.out ∧ t.hbm = s.hbm
        ∧ t.rd (.PCIE_STAT h) F.PCIE_STAT.ur = min (s.rd (.PCIE_STAT h) F.PCIE_STAT.ur + 1) 255)))
    ∧ (up = true → 0xFEE00000 ≤ addr → addr ≤ 0xFEE00FFF → exec (.pcieInbound h addr n (some data) ep) s
      = .next (s.raise ⟨0xA + h, 0x1B4, h, 0xFFFF, [addr, ofBytes (data.take 4)]⟩))
    ∧ (let cfg := s.on (.PCIE_OB_CTL h) F.PCIE_OB_CTL.cfg
      let w := if cfg then 2 ^ 32 else 2 ^ 64
      let dest := s.reg (.PCIE_OB_ADDR h)
      (up = true → ∀ v, exec (.pcieObAccess h none (some v)) s = .next ((s.emit (.pcieOb h false cfg dest 0)).emit (.read (v % w) false)))
      ∧ (up = true → ∀ v a, exec (.pcieObAccess h (some v) (some a)) s = .next (s.emit (.pcieOb h true cfg dest (v % w))))
      ∧ (up = false → Answers (exec (.pcieObAccess h none (some value)) s) (fun t => t.out = .read (2 ^ 64 - 1) false :: s.out
        ∧ t.on (.PCIE_OB_CTL h) F.PCIE_OB_CTL.err = true)))
    ∧ (let shown := fun (c : Instr) (ir m v : Nat) => Answers (exec c s) (fun t => t.tap.ir = ir ∧ t.out = .tap m v :: s.out ∧ t.regs = s.regs)
      shown .tapBypass 0xFF 1 0 ∧ shown .tapIdcode 2 32 (idcode s.variant)
      ∧ Answers (exec (.tapSamplePreload pins load) s) (fun t => t.tap = ⟨1, load⟩ ∧ t.out = .tap pins.length (scanOut pins) :: s.out)
      ∧ (s.power.ready = false → shown .tapClamp 4 1 0 ∧ shown .tapHighz 5 1 0
        ∧ Answers (exec (.tapExtest pins load) s) (fun t => t.tap = ⟨0, load⟩ ∧ t.out = .tap pins.length (scanOut pins) :: s.out))
      ∧ (s.power.ready = true → ∀ c ∈ [Instr.tapClamp, .tapHighz, .tapExtest pins load], shown c 0xFF 1 0)
      ∧ Answers (exec .tapReset s) (fun t => t.tap.ir = 2 ∧ t.out = s.out))
    ∧ (s.on .LOUPE_CTL F.LOUPE_CTL.trig_mode = true → Answers (exec .loupeTrigIn s) (fun t => t.ctl.loupe = true ∧ t.out = s.out))
    ∧ (let pf := s.rd .LOUPE_CTL F.LOUPE_CTL.pf
      s.on .LOUPE_CTL F.LOUPE_CTL.samples = true → pf < 816 → s.on .LOUPE_CTL F.LOUPE_CTL.enable = true → s.on .LOUPE_CTL F.LOUPE_CTL.trig_mode = false →
      s.on .SEC_STAT F.SEC_STAT.locked = false → Answers (exec .loupeSample s) (fun t => t.regs = s.regs ∧ t.out = .loupe (toBytes 2 2 ++ List.replicate 6 0
        ++ (toBytes 2 pf ++ toBytes 2 (s.lfField pf) ++ toBytes 2 (s.facet pf).core.pc ++ toBytes 1 (s.facState pf) ++ toBytes 1 0
        ++ toBytes 8 (s.cycles pf) ++ toBytes 8 s.sysClock ++ toBytes 8 (s.reg (.FAC_STALL pf)))) :: s.out))

/-- O: R15, R17, R18, R355, R416 to R418, R420, R451, R568: the loss of the always-on domain, of a hub, a die's lanes or a memory channel; a register write reaches
HBM, hub SRAM and the registers, each field as its access code says, and faults where nothing is mapped. -/
def Obligations.LossesAndRegisterWrites : Prop :=
  ∀ (h die lane k c a value : Nat) (s : State), h < 2 → die < 4 → lane < 2 ^ 24 → k < 8 → c < 16 → value < 2 ^ 64 →
    Answers (exec .vddAonLoss s) (fun t => t.sec.keys = [] ∧ t.sec.seed = none ∧ t.erasing = false ∧ t.power.phase = 1
      ∧ t.reg .PWR_SEQ = Reg.resetVal s.variant .PWR_SEQ)
    ∧ (s.hubFenced h = false → s.hubFenced (1 - h) = true → Answers (exec (.hubLinkLoss h) s) (fun t => t.ctl.stopped = true ∧ t.regs = s.regs))
    ∧ (s.hubFenced h = false → s.hubFenced (1 - h) = false → (∀ i ∈ s.ctl.evClaim, i.1 < 4096) → Answers (exec (.hubLinkLoss h) s) (fun t => t.hubFenced h = true
      ∧ t.rd (.SPORT_STAT h) F.SPORT_STAT.hub = 1 - h ∧ (∀ p, p < 20 → hubOfCore p = h → t.coreState p = 5)))
    ∧ (s.hubFenced h = true → exec (.hubLinkLoss h) s = .next s)
    ∧ (let d := unitDesc 0x0A die h lane
      s.isFenced d = false → Answers (exec (.d2dLaneFailure die h lane false) s) (fun t => d ∈ t.faults.active ∧ t.hbm.lost = s.hbm.lost
        ∧ t.facets = s.facets))
    ∧ (s.dieFenced die = false → Answers (exec (.d2dLaneFailure die h lane true) s) (fun t => t.dieFenced die = true
      ∧ (∀ i, die * 2 ^ 38 ≤ i → i < (die + 1) * 2 ^ 38 → t.hbmLost i = true)
      ∧ (∀ p, die * 204 ≤ p → p < (die + 1) * 204 → (t.facet p).fenced = true)))
    ∧ (s.isFenced (unitDesc 0x0B k c 0) = false → Answers (exec (.hbmChannelRetrainFail k c) s) (fun t => unitDesc 0x0B k c 0 ∈ t.faults.active
      ∧ (∀ i, k * 2 ^ 37 + c * 2 ^ 33 ≤ i → i < k * 2 ^ 37 + (c + 1) * 2 ^ 33 → t.hbmLost i = true)))
    ∧ (a % 8 = 0 → a + 8 ≤ 2 ^ 40 → s.hbmLost a = false → s.pageOf a = none → Answers (exec (.registerWrite a value) s) (fun t =>
      t.hbm.readNat a 8 = value ∧ (∀ i, i < a ∨ a + 8 ≤ i → t.hbm.byte i = s.hbm.byte i) ∧ t.regs = s.regs))
    ∧ (a < 0x4000000 - 8 → s.hub.lost = [] →
      (a < 0x80000 → Answers (exec (.registerWrite (0x600000000000 + a) value) s) (fun t => t.hub = s.hub ∧ t.serve = s.serve
        ∧ t.rd .RT_STAT F.RT_STAT.sw_reject = min (s.rd .RT_STAT F.RT_STAT.sw_reject + 1) 65535))
      ∧ (0xC0000 ≤ a → ¬(0x2000000 ≤ a ∧ a < 0x2080000) → Answers (exec (.registerWrite (0x600000000000 + a) value) s) (fun t => t.hub.readNat a 8 = value
        ∧ (∀ i, i < a ∨ a + 8 ≤ i → t.hub.byte i = s.hub.byte i) ∧ t.regs = s.regs)))
    ∧ Answers (exec (.registerWrite 0x700000800010 value) s) (fun t => t.reg .FLT_INJ_SEL = value ∧ t.hbm = s.hbm)
    ∧ Answers (exec (.registerWrite 0x700000000008 value) s) (fun t => t.reg .PKG_VARIANT = s.reg .PKG_VARIANT)
    ∧ Answers (exec (.registerWrite 0x700000500028 value) s) (fun t => t.on .PLANT_ERR F.PLANT_ERR.sensor_lost = (s.on .PLANT_ERR F.PLANT_ERR.sensor_lost && !bitAt value 0)
      ∧ t.on .PLANT_ERR F.PLANT_ERR.flow_low = (s.on .PLANT_ERR F.PLANT_ERR.flow_low && !bitAt value 1)
      ∧ t.on .PLANT_ERR F.PLANT_ERR.model_dev = (s.on .PLANT_ERR F.PLANT_ERR.model_dev && !bitAt value 2))
    ∧ (k < 8 → exec (.registerWrite (0x700000402000 + 8 * k) value) s = exec (.lfMapWrite k value) s)
    ∧ (2 ^ 40 ≤ a → a < 0x400000000000 → exec (.registerWrite a value) s = .fault (.unmapped a))
    ∧ (0x600004000000 ≤ a → a < 0x700000000000 → exec (.registerWrite a value) s = .fault (.unmapped a))
    ∧ (0x700100000000 ≤ a → exec (.registerWrite a value) s = .fault (.unmapped a))

/-- O: the queue: a step runs the command at its front on the state with the rest of the queue; on an empty queue 1 st passes (log entry
7), the model's clock and, outside reset, SYS_TIME advance by 1, and nothing else changes. -/
def Obligations.StepRunsTheFront : Prop :=
  ∀ (c : Instr) (s : State),
    step { s with pending := c :: s.pending } = exec c s
    ∧ (s.pending = [] → Answers (step s) (fun t => s.SameBut [.regs] t ∧ t.pending = [] ∧ t.variant = s.variant ∧ t.time = s.time + 1
      ∧ (s.power.phase = 0 ∨ s.power.phase = 2 → t.reg .SYS_TIME = (s.sysClock + 1) % 2 ^ 64)
      ∧ (s.power.phase ≠ 0 → s.power.phase ≠ 2 → t.regs = s.regs)
      ∧ (∀ r : Reg, r.key ≠ Reg.SYS_TIME.key → t.reg r = s.reg r)))

/-- O: after reset the queue is empty, the tables are canonical, every register holds its reset value, every byte of HBM and of hub SRAM
reads 0 without poison, every facet is in RESET with its registers 0 and no facet, array or link is at work (log entries 1 to 4 and 9 name
the values the spec does not give). -/
def Obligations.ResetState : Prop :=
  State.reset.Canonical ∧ State.reset.pending = [] ∧ State.reset.raises = [] ∧ State.reset.time = 0
  ∧ (∀ r : Reg, State.reset.reg r = r.resetVal .zlp440 % 2 ^ 64)
  ∧ (∀ a, State.reset.hbm.byte a = 0 ∧ State.reset.hbm.isPoison a = false ∧ State.reset.hub.byte a = 0 ∧ State.reset.hub.isPoison a = false)
  ∧ (∀ pf n, State.reset.facState pf = 0 ∧ ((State.reset.facet pf).core.rdS n) = ⟨0, false⟩ ∧ (State.reset.facet pf).core.pc = 0
      ∧ (State.reset.facet pf).core.dq = [] ∧ (State.reset.facet pf).core.mq = [] ∧ (State.reset.facet pf).core.tq = [])
  ∧ (∀ pf a, (State.reset.parr pf a).run = none ∧ (State.reset.parr pf a).queue = [])

/-- O: no command changes the variant, the queue or the model's clock, and none undraws a free value; HBM, hub SRAM, the register file and
the facets keep their canonical form. -/
def Obligations.CommandsKeep : Prop := ∀ (c : Instr) (s t : State), exec c s = .next t → s.Keeps t

/-- O: every step keeps the canonical form of the state. -/
def Obligations.StepKeepsCanonical : Prop := ∀ s t : State, s.Canonical → step s = .next t → t.Canonical

/-- O: R417: no command is refused, and the only commands that stop are an access of a core to an address the map leaves unmapped: the fault
names the address. -/
def Obligations.OnlyUnmappedAccessesStop : Prop :=
  ∀ (c : Instr) (s : State),
    (∀ r, exec c s ≠ .refused r)
    ∧ (∀ f, exec c s = .fault f → match c with
      | .registerWrite addr _ | .windowRead addr _ | .windowWrite addr _ _ => f = .unmapped addr
      | _ => False)

/-- O: the frame of every command: the parts of the state outside its list are unchanged. -/
def Obligations.CommandsChangeOnly : Prop := ∀ (c : Instr) (s t : State), exec c s = .next t → s.SameBut (changes c) t

/-- O: the frame of the commands that write registers and little else: every register at another address reads as before. -/
def Obligations.RegisterFrames : Prop :=
  ∀ (n k value : Nat) (s t : State) (r : Reg),
    let only := fun (i : Instr) (l : List Reg) => exec i s = .next t → r.key ∉ l.map Reg.key → t.reg r = s.reg r
    only (.serviceEnable n) [.SVC_STAT n] ∧ only (.svcReadmit n) [.SVC_STAT n] ∧ only (.svcStop n) [.SVC_CTL n]
    ∧ only (.apCeilingWrite n value) [.ARR_CTL n] ∧ only (.chkWinSelWrite n value) [.CHK_WIN_SEL n]
    ∧ only (.arrWinSelWrite n value) [.ARR_WIN_SEL n, .ARR_CTL n] ∧ only (.arrMapWrite n k value) [.ARR_MAP n k, .ARR_CTL n]
    ∧ only (.convMapWrite n k value) [.CONV_MAP n (s.winArr n) k, .ARR_CTL n]
    ∧ only (.calStartWrite n) [.CAL_REGION_CTL n] ∧ only (.facStop n) [.FAC_CTL n] ∧ only (.facReset n) [.FAC_CTL n]
    ∧ only (.facLoadGo n) [.FAC_STAT n, .FAC_LOAD_CTL n] ∧ only (.facEpochWrite n value) [.FAC_EPOCH n, .FAC_STAT n]
    ∧ only (.acc16CtlWrite n value) [.ACC16_CTL n, .FAC_STAT n] ∧ only (.tenShadowWrite n value) [.TEN_SHADOW n]
    ∧ only (.kvPoolStrideWrite n value) [.KV_POOL_STRIDE n, .KV_POOL_STAT n]
    ∧ only (.prismRangeEnable n k value) [.PRISM_RANGE_BASE n k, .PRISM_RANGE_STAT n]
    ∧ only (.epochSwitch n) [.EP_STAT n] ∧ only (.linkCfgWrite value) [.LINK_CFG] ∧ only (.secAlarmClassWrite n value) [.SEC_ALARM n]
    ∧ only .powerForecast [.PWR_STAT] ∧ only (.timeInEdge value) [.TIME_IN_STAMP]
    ∧ only (.regionClkWrite n value) (.REGION_CLK n :: (List.range 64).map .SVC_STAT)
    ∧ (∀ lanes, only (.sportEnable n value lanes) [.SPORT_CTL n, .SPORT_STAT n])
    ∧ (∀ ok, only (.mgmtPortEnable value ok) [.MGMT_CTL, .MGMT_STAT])
    ∧ (∀ speed width, only (.pcieEnable n value speed width) [.PCIE_CTL n, .PCIE_STAT n])

/-- O: R178, R183: a slot that is not its bundle's last changes nothing but the bundle its facet is presenting: the facet's core, every other
facet and every other part of the state stay as they were. -/
def Obligations.SlotsBeforeTheLast : Prop :=
  ∀ (c : Instr) (h : Hdr) (s : State), slotOf c = some h → h.last = false →
    Answers (exec c s) (fun t => s.SameBut [.facets] t ∧ (t.facet h.pf).core = (s.facet h.pf).core
      ∧ (t.facet h.pf).stop = (s.facet h.pf).stop ∧ ∀ q, q ≠ h.pf → t.facet q = s.facet q)
end

