-- ==== Sys2Proof/Laws/Tab.lean ====
section
/-! SUPPORT. Laws of sparse tables and byte memories: what a read gives after a write, and that every operation keeps
the canonical form. -/

namespace Sys2Proof.Machine

@[simp] theorem Tab.find?_nil {α : Type} (n : Nat) : Tab.find? ([] : Tab α) n = none := rfl

theorem Tab.find?_erase {α : Type} (t : Tab α) (n m : Nat) :
    Tab.find? (Tab.erase t n) m = if m = n then none else Tab.find? t m := by
  induction t with
  | nil => simp [Tab.erase]
  | cons c t ih =>
    obtain ⟨k, v⟩ := c
    by_cases h : k = n <;> by_cases h' : k = m <;> simp_all [Tab.erase, Tab.find?] <;> grind

theorem Tab.find?_insert {α : Type} (t : Tab α) (n m : Nat) (x : α) (h : Tab.find? t n = none) :
    Tab.find? (Tab.insert t n x) m = if m = n then some x else Tab.find? t m := by
  induction t with
  | nil => by_cases h' : n = m <;> simp [Tab.insert, Tab.find?] <;> grind
  | cons c t ih =>
    obtain ⟨k, v⟩ := c
    simp only [Tab.find?] at h
    split at h
    · cases h
    · simp only [Tab.insert]
      split
      · simp only [Tab.find?]; grind
      · simp only [Tab.find?, ih h]; grind

/-- A table after `put` reads the new value at the key and the old one elsewhere. -/
theorem Tab.getD_put {α : Type} [DecidableEq α] (t : Tab α) (n m : Nat) (d x : α) :
    Tab.getD (Tab.put t n d x) m d = if m = n then x else Tab.getD t m d := by
  unfold Tab.getD Tab.put
  split
  · subst_vars
    rw [Tab.find?_erase]; split <;> simp
  · rw [Tab.find?_insert _ _ _ _ (by simp [Tab.find?_erase]), Tab.find?_erase]
    split <;> simp

@[simp] theorem Tab.getD_put_same {α : Type} [DecidableEq α] (t : Tab α) (n : Nat) (d x : α) :
    Tab.getD (Tab.put t n d x) n d = x := by simp [Tab.getD_put]

theorem Tab.getD_put_other {α : Type} [DecidableEq α] (t : Tab α) {n m : Nat} (d x : α) (h : m ≠ n) :
    Tab.getD (Tab.put t n d x) m d = Tab.getD t m d := by simp [Tab.getD_put, h]

/-- `set` reads like `put` at every key. -/
theorem Tab.find?_set {α : Type} (t : Tab α) (n m : Nat) (x : α) :
    Tab.find? (Tab.set t n x) m = if m = n then some x else Tab.find? t m := by
  unfold Tab.set
  rw [Tab.find?_insert _ _ _ _ (by simp [Tab.find?_erase]), Tab.find?_erase]
  split <;> simp

/-- The keys of a sorted table are pairwise rising. -/
theorem Tab.sorted_iff {α : Type} (t : Tab α) :
    Tab.sorted t = true ↔ t.Pairwise (fun a b => a.1 < b.1) := by
  induction t with
  | nil => simp [Tab.sorted]
  | cons c t ih =>
    cases t with
    | nil => simp [Tab.sorted]
    | cons e u =>
      obtain ⟨k, v⟩ := c
      obtain ⟨m, w⟩ := e
      simp only [Tab.sorted, Bool.and_eq_true, decide_eq_true_eq, ih, List.pairwise_cons, List.mem_cons]
      constructor
      · rintro ⟨h, h1, h2⟩
        refine ⟨?_, h1, h2⟩
        rintro a (rfl | ha)
        · exact h
        · exact Nat.lt_trans h (h1 a ha)
      · rintro ⟨h, h1, h2⟩
        exact ⟨h (m, w) (Or.inl rfl), h1, h2⟩

theorem Tab.mem_erase {α : Type} (t : Tab α) (n : Nat) (c : Nat × α) (h : c ∈ Tab.erase t n) : c ∈ t ∧ c.1 ≠ n := by
  induction t with
  | nil => simp [Tab.erase] at h
  | cons e t ih =>
    obtain ⟨k, v⟩ := e
    simp only [Tab.erase] at h
    split at h
    · have := ih h; exact ⟨List.mem_cons_of_mem _ this.1, this.2⟩
    · rcases List.mem_cons.1 h with rfl | h
      · exact ⟨List.mem_cons_self .., by assumption⟩
      · have := ih h; exact ⟨List.mem_cons_of_mem _ this.1, this.2⟩

theorem Tab.mem_insert {α : Type} (t : Tab α) (n : Nat) (x : α) (c : Nat × α) (h : c ∈ Tab.insert t n x) :
    c = (n, x) ∨ c ∈ t := by
  induction t with
  | nil => simpa [Tab.insert] using h
  | cons e t ih =>
    obtain ⟨k, v⟩ := e
    simp only [Tab.insert] at h
    split at h
    · simpa using h
    · rcases List.mem_cons.1 h with rfl | h
      · simp
      · rcases ih h with h | h <;> simp [h]

/-- Erasing a key keeps the order of the keys. -/
theorem Tab.sorted_erase {α : Type} (t : Tab α) (n : Nat) (h : Tab.sorted t = true) :
    Tab.sorted (Tab.erase t n) = true := by
  rw [Tab.sorted_iff] at *
  induction t with
  | nil => simp [Tab.erase]
  | cons e t ih =>
    obtain ⟨k, v⟩ := e
    rw [List.pairwise_cons] at h
    simp only [Tab.erase]
    split
    · exact ih h.2
    · exact List.pairwise_cons.2 ⟨fun a ha => h.1 a (Tab.mem_erase t n a ha).1, ih h.2⟩

/-- Inserting an absent key keeps the order of the keys. -/
theorem Tab.sorted_insert {α : Type} (t : Tab α) (n : Nat) (x : α) (hn : ∀ c ∈ t, c.1 ≠ n)
    (h : Tab.sorted t = true) : Tab.sorted (Tab.insert t n x) = true := by
  rw [Tab.sorted_iff] at *
  induction t with
  | nil => simp [Tab.insert]
  | cons e t ih =>
    obtain ⟨k, v⟩ := e
    rw [List.pairwise_cons] at h
    have hk : k ≠ n := hn (k, v) (List.mem_cons_self ..)
    simp only [Tab.insert]
    split
    · rename_i hlt
      refine List.pairwise_cons.2 ⟨?_, List.pairwise_cons.2 h⟩
      intro a ha
      rcases List.mem_cons.1 ha with rfl | ha
      · exact hlt
      · exact Nat.lt_trans hlt (h.1 a ha)
    · rename_i hlt
      refine List.pairwise_cons.2 ⟨?_, ih (fun c hc => hn c (List.mem_cons_of_mem _ hc)) h.2⟩
      intro a ha
      rcases Tab.mem_insert t n x a ha with rfl | ha
      · show k < n
        omega
      · exact h.1 a ha

/-- `put` keeps the order of the keys. -/
theorem Tab.sorted_put {α : Type} [DecidableEq α] (t : Tab α) (n : Nat) (d x : α) (h : Tab.sorted t = true) :
    Tab.sorted (Tab.put t n d x) = true := by
  unfold Tab.put
  split
  · exact Tab.sorted_erase t n h
  · exact Tab.sorted_insert _ n x (fun c hc => (Tab.mem_erase t n c hc).2) (Tab.sorted_erase t n h)

/-- `put` lists no default if the table listed none. -/
theorem Tab.noDefault_put {α : Type} [DecidableEq α] (t : Tab α) (n : Nat) (d x : α)
    (h : ∀ c ∈ t, c.2 ≠ d) : ∀ c ∈ Tab.put t n d x, c.2 ≠ d := by
  intro c hc
  unfold Tab.put at hc
  split at hc
  · exact h c (Tab.mem_erase t n c hc).1
  · rcases Tab.mem_insert _ n x c hc with rfl | hc
    · assumption
    · exact h c (Tab.mem_erase t n c hc).1

theorem risingNat_iff (l : List Nat) : risingNat l = true ↔ l.Pairwise (· < ·) := by
  induction l with
  | nil => simp [risingNat]
  | cons k t ih =>
    cases t with
    | nil => simp [risingNat]
    | cons m u =>
      simp only [risingNat, Bool.and_eq_true, decide_eq_true_eq, ih, List.pairwise_cons, List.mem_cons]
      constructor
      · rintro ⟨h, h1, h2⟩
        refine ⟨?_, h1, h2⟩
        rintro a (rfl | ha)
        · exact h
        · exact Nat.lt_trans h (h1 a ha)
      · rintro ⟨h, h1, h2⟩
        exact ⟨h m (Or.inl rfl), h1, h2⟩

theorem mem_insertNat (l : List Nat) (n k : Nat) (h : k ∈ insertNat l n) : k = n ∨ k ∈ l := by
  induction l with
  | nil => simpa [insertNat] using h
  | cons m t ih =>
    simp only [insertNat] at h
    split at h
    · simpa using h
    · split at h
      · exact Or.inr h
      · rcases List.mem_cons.1 h with rfl | h
        · simp
        · rcases ih h with h | h <;> simp [h]

theorem risingNat_insertNat (l : List Nat) (n : Nat) (h : risingNat l = true) : risingNat (insertNat l n) = true := by
  rw [risingNat_iff] at *
  induction l with
  | nil => simp [insertNat]
  | cons k t ih =>
    rw [List.pairwise_cons] at h
    simp only [insertNat]
    split
    · rename_i hlt
      refine List.pairwise_cons.2 ⟨?_, List.pairwise_cons.2 h⟩
      intro a ha
      rcases List.mem_cons.1 ha with rfl | ha
      · exact hlt
      · exact Nat.lt_trans hlt (h.1 a ha)
    · split
      · exact List.pairwise_cons.2 h
      · refine List.pairwise_cons.2 ⟨?_, ih h.2⟩
        intro a ha
        rcases mem_insertNat t n a ha with rfl | ha
        · omega
        · exact h.1 a ha

theorem risingNat_filter (l : List Nat) (p : Nat → Bool) (h : risingNat l = true) : risingNat (l.filter p) = true := by
  rw [risingNat_iff] at *
  exact h.filter p

/-- The canonical form, spelled out. -/
theorem Mem.wf_iff (m : Mem) : m.wf = true ↔
    Tab.sorted m.bytes = true ∧ (∀ c ∈ m.bytes, c.2 ≠ 0) ∧ risingNat m.poison = true := by
  simp [Mem.wf, and_assoc]

theorem Mem.wf_empty : Mem.empty.wf = true := rfl

/-- Storing a byte keeps the canonical form. -/
theorem Mem.wf_setByte (m : Mem) (a : Nat) (b : Byte) (h : m.wf = true) : (m.setByte a b).wf = true := by
  unfold Mem.setByte
  split
  · exact h
  · rw [Mem.wf_iff] at *
    exact ⟨Tab.sorted_put _ _ _ _ h.1, Tab.noDefault_put _ _ _ _ h.2.1, h.2.2⟩

theorem Mem.wf_write (l : List Byte) : ∀ (m : Mem) (a : Nat), m.wf = true → (m.write a l).wf = true := by
  induction l with
  | nil => intro m a h; exact h
  | cons b t ih => intro m a h; exact ih _ _ (Mem.wf_setByte m a b h)

theorem Mem.wf_writeNat (m : Mem) (a n x : Nat) (h : m.wf = true) : (m.writeNat a n x).wf = true :=
  Mem.wf_write _ m a h

theorem Mem.wf_setPoison (m : Mem) (u : Nat) (p : Bool) (h : m.wf = true) : (m.setPoison u p).wf = true := by
  rw [Mem.wf_iff] at *
  refine ⟨h.1, h.2.1, ?_⟩
  unfold Mem.setPoison
  cases p
  · exact risingNat_filter _ _ h.2.2
  · exact risingNat_insertNat _ _ h.2.2

theorem Mem.wf_setRangePoison (m : Mem) (sz a n : Nat) (p : Bool) (h : m.wf = true) :
    (m.setRangePoison sz a n p).wf = true := by
  unfold Mem.setRangePoison
  generalize List.range ((a + n + sz - 1) / sz - a / sz) = l
  induction l generalizing m with
  | nil => exact h
  | cons i l ih => exact ih _ (Mem.wf_setPoison m _ p h)

@[simp] theorem Mem.lost_setByte (m : Mem) (a : Nat) (b : Byte) : (m.setByte a b).lost = m.lost := by
  unfold Mem.setByte; split <;> rfl

/-- A byte read after one byte is stored outside the lost ranges. -/
theorem Mem.byte_setByte (m : Mem) (a x : Nat) (b : Byte) (h : m.isLost (a / 64) = false) :
    (m.setByte a b).byte x = if x = a then b else m.byte x := by
  simp [Mem.setByte, h, Mem.byte, Tab.getD_put]

/-- Storing a byte leaves every other byte alone. -/
theorem Mem.byte_setByte_other (m : Mem) {a x : Nat} (b : Byte) (h : x ≠ a) : (m.setByte a b).byte x = m.byte x := by
  unfold Mem.setByte
  split
  · rfl
  · simp [Mem.byte, Tab.getD_put, h]

/-- A store leaves every byte outside its range alone. -/
theorem Mem.byte_write_other (l : List Byte) : ∀ (m : Mem) (a x : Nat), x < a ∨ a + l.length ≤ x →
    (m.write a l).byte x = m.byte x := by
  induction l with
  | nil => intros; rfl
  | cons b t ih =>
    intro m a x h
    simp only [List.length_cons] at h
    simp only [Mem.write]
    rw [ih _ _ _ (by omega), Mem.byte_setByte_other _ _ (by omega)]

end Sys2Proof.Machine
end

