-- ==== Sys2Proof/Laws/State.lean ====
section
/-! SUPPORT. The small lemmas of the named updates of State: which field each changes, and what a read gives after it. -/

namespace Sys2Proof.Machine

section
variable (s : State) (r : Reg) (x : Nat)

@[simp] theorem State.setReg_variant : (s.setReg r x).variant = s.variant := rfl
@[simp] theorem State.setReg_time : (s.setReg r x).time = s.time := rfl
@[simp] theorem State.setReg_hbm : (s.setReg r x).hbm = s.hbm := rfl
@[simp] theorem State.setReg_facets : (s.setReg r x).facets = s.facets := rfl
@[simp] theorem State.setReg_arrs : (s.setReg r x).arrs = s.arrs := rfl
@[simp] theorem State.setReg_larrs : (s.setReg r x).larrs = s.larrs := rfl
@[simp] theorem State.setReg_outJobs : (s.setReg r x).outJobs = s.outJobs := rfl
@[simp] theorem State.setReg_fbPlaces : (s.setReg r x).fbPlaces = s.fbPlaces := rfl
@[simp] theorem State.setReg_staged : (s.setReg r x).staged = s.staged := rfl
@[simp] theorem State.setReg_regions : (s.setReg r x).regions = s.regions := rfl
@[simp] theorem State.setReg_calStore : (s.setReg r x).calStore = s.calStore := rfl
@[simp] theorem State.setReg_loader : (s.setReg r x).loader = s.loader := rfl
@[simp] theorem State.setReg_faults : (s.setReg r x).faults = s.faults := rfl
@[simp] theorem State.setReg_vault : (s.setReg r x).vault = s.vault := rfl
@[simp] theorem State.setReg_boot : (s.setReg r x).boot = s.boot := rfl
@[simp] theorem State.setReg_sec : (s.setReg r x).sec = s.sec := rfl
@[simp] theorem State.setReg_link : (s.setReg r x).link = s.link := rfl
@[simp] theorem State.setReg_plant : (s.setReg r x).plant = s.plant := rfl
@[simp] theorem State.setReg_power : (s.setReg r x).power = s.power := rfl
@[simp] theorem State.setReg_tap : (s.setReg r x).tap = s.tap := rfl
@[simp] theorem State.setReg_noc : (s.setReg r x).noc = s.noc := rfl
@[simp] theorem State.setReg_serve : (s.setReg r x).serve = s.serve := rfl
@[simp] theorem State.setReg_kv : (s.setReg r x).kv = s.kv := rfl
@[simp] theorem State.setReg_hub : (s.setReg r x).hub = s.hub := rfl
@[simp] theorem State.setReg_ctl : (s.setReg r x).ctl = s.ctl := rfl
@[simp] theorem State.setReg_raises : (s.setReg r x).raises = s.raises := rfl
@[simp] theorem State.setReg_free : (s.setReg r x).free = s.free := rfl
@[simp] theorem State.setReg_out : (s.setReg r x).out = s.out := rfl
@[simp] theorem State.setReg_pending : (s.setReg r x).pending = s.pending := rfl

end

section
variable (s : State) (r : Reg) (f : Fld) (v : Nat)

@[simp] theorem State.wr_variant : (s.wr r f v).variant = s.variant := rfl
@[simp] theorem State.wr_time : (s.wr r f v).time = s.time := rfl
@[simp] theorem State.wr_hbm : (s.wr r f v).hbm = s.hbm := rfl
@[simp] theorem State.wr_facets : (s.wr r f v).facets = s.facets := rfl
@[simp] theorem State.wr_arrs : (s.wr r f v).arrs = s.arrs := rfl
@[simp] theorem State.wr_larrs : (s.wr r f v).larrs = s.larrs := rfl
@[simp] theorem State.wr_outJobs : (s.wr r f v).outJobs = s.outJobs := rfl
@[simp] theorem State.wr_fbPlaces : (s.wr r f v).fbPlaces = s.fbPlaces := rfl
@[simp] theorem State.wr_staged : (s.wr r f v).staged = s.staged := rfl
@[simp] theorem State.wr_regions : (s.wr r f v).regions = s.regions := rfl
@[simp] theorem State.wr_calStore : (s.wr r f v).calStore = s.calStore := rfl
@[simp] theorem State.wr_loader : (s.wr r f v).loader = s.loader := rfl
@[simp] theorem State.wr_faults : (s.wr r f v).faults = s.faults := rfl
@[simp] theorem State.wr_vault : (s.wr r f v).vault = s.vault := rfl
@[simp] theorem State.wr_boot : (s.wr r f v).boot = s.boot := rfl
@[simp] theorem State.wr_sec : (s.wr r f v).sec = s.sec := rfl
@[simp] theorem State.wr_link : (s.wr r f v).link = s.link := rfl
@[simp] theorem State.wr_plant : (s.wr r f v).plant = s.plant := rfl
@[simp] theorem State.wr_power : (s.wr r f v).power = s.power := rfl
@[simp] theorem State.wr_tap : (s.wr r f v).tap = s.tap := rfl
@[simp] theorem State.wr_noc : (s.wr r f v).noc = s.noc := rfl
@[simp] theorem State.wr_serve : (s.wr r f v).serve = s.serve := rfl
@[simp] theorem State.wr_kv : (s.wr r f v).kv = s.kv := rfl
@[simp] theorem State.wr_hub : (s.wr r f v).hub = s.hub := rfl
@[simp] theorem State.wr_ctl : (s.wr r f v).ctl = s.ctl := rfl
@[simp] theorem State.wr_raises : (s.wr r f v).raises = s.raises := rfl
@[simp] theorem State.wr_free : (s.wr r f v).free = s.free := rfl
@[simp] theorem State.wr_out : (s.wr r f v).out = s.out := rfl
@[simp] theorem State.wr_pending : (s.wr r f v).pending = s.pending := rfl

end

section
variable (s : State) (r : Reg) (f : Fld) (n : Nat)

@[simp] theorem State.bump_variant : (s.bump r f n).variant = s.variant := rfl
@[simp] theorem State.bump_time : (s.bump r f n).time = s.time := rfl
@[simp] theorem State.bump_hbm : (s.bump r f n).hbm = s.hbm := rfl
@[simp] theorem State.bump_facets : (s.bump r f n).facets = s.facets := rfl
@[simp] theorem State.bump_arrs : (s.bump r f n).arrs = s.arrs := rfl
@[simp] theorem State.bump_larrs : (s.bump r f n).larrs = s.larrs := rfl
@[simp] theorem State.bump_outJobs : (s.bump r f n).outJobs = s.outJobs := rfl
@[simp] theorem State.bump_fbPlaces : (s.bump r f n).fbPlaces = s.fbPlaces := rfl
@[simp] theorem State.bump_staged : (s.bump r f n).staged = s.staged := rfl
@[simp] theorem State.bump_regions : (s.bump r f n).regions = s.regions := rfl
@[simp] theorem State.bump_calStore : (s.bump r f n).calStore = s.calStore := rfl
@[simp] theorem State.bump_loader : (s.bump r f n).loader = s.loader := rfl
@[simp] theorem State.bump_faults : (s.bump r f n).faults = s.faults := rfl
@[simp] theorem State.bump_vault : (s.bump r f n).vault = s.vault := rfl
@[simp] theorem State.bump_boot : (s.bump r f n).boot = s.boot := rfl
@[simp] theorem State.bump_sec : (s.bump r f n).sec = s.sec := rfl
@[simp] theorem State.bump_link : (s.bump r f n).link = s.link := rfl
@[simp] theorem State.bump_plant : (s.bump r f n).plant = s.plant := rfl
@[simp] theorem State.bump_power : (s.bump r f n).power = s.power := rfl
@[simp] theorem State.bump_tap : (s.bump r f n).tap = s.tap := rfl
@[simp] theorem State.bump_noc : (s.bump r f n).noc = s.noc := rfl
@[simp] theorem State.bump_serve : (s.bump r f n).serve = s.serve := rfl
@[simp] theorem State.bump_kv : (s.bump r f n).kv = s.kv := rfl
@[simp] theorem State.bump_hub : (s.bump r f n).hub = s.hub := rfl
@[simp] theorem State.bump_ctl : (s.bump r f n).ctl = s.ctl := rfl
@[simp] theorem State.bump_raises : (s.bump r f n).raises = s.raises := rfl
@[simp] theorem State.bump_free : (s.bump r f n).free = s.free := rfl
@[simp] theorem State.bump_out : (s.bump r f n).out = s.out := rfl
@[simp] theorem State.bump_pending : (s.bump r f n).pending = s.pending := rfl

end

section
variable (s : State) (e : Raise)

@[simp] theorem State.raise_variant : (s.raise e).variant = s.variant := rfl
@[simp] theorem State.raise_regs : (s.raise e).regs = s.regs := rfl
@[simp] theorem State.raise_time : (s.raise e).time = s.time := rfl
@[simp] theorem State.raise_hbm : (s.raise e).hbm = s.hbm := rfl
@[simp] theorem State.raise_facets : (s.raise e).facets = s.facets := rfl
@[simp] theorem State.raise_arrs : (s.raise e).arrs = s.arrs := rfl
@[simp] theorem State.raise_larrs : (s.raise e).larrs = s.larrs := rfl
@[simp] theorem State.raise_outJobs : (s.raise e).outJobs = s.outJobs := rfl
@[simp] theorem State.raise_fbPlaces : (s.raise e).fbPlaces = s.fbPlaces := rfl
@[simp] theorem State.raise_staged : (s.raise e).staged = s.staged := rfl
@[simp] theorem State.raise_regions : (s.raise e).regions = s.regions := rfl
@[simp] theorem State.raise_calStore : (s.raise e).calStore = s.calStore := rfl
@[simp] theorem State.raise_loader : (s.raise e).loader = s.loader := rfl
@[simp] theorem State.raise_faults : (s.raise e).faults = s.faults := rfl
@[simp] theorem State.raise_vault : (s.raise e).vault = s.vault := rfl
@[simp] theorem State.raise_boot : (s.raise e).boot = s.boot := rfl
@[simp] theorem State.raise_sec : (s.raise e).sec = s.sec := rfl
@[simp] theorem State.raise_link : (s.raise e).link = s.link := rfl
@[simp] theorem State.raise_plant : (s.raise e).plant = s.plant := rfl
@[simp] theorem State.raise_power : (s.raise e).power = s.power := rfl
@[simp] theorem State.raise_tap : (s.raise e).tap = s.tap := rfl
@[simp] theorem State.raise_noc : (s.raise e).noc = s.noc := rfl
@[simp] theorem State.raise_serve : (s.raise e).serve = s.serve := rfl
@[simp] theorem State.raise_kv : (s.raise e).kv = s.kv := rfl
@[simp] theorem State.raise_hub : (s.raise e).hub = s.hub := rfl
@[simp] theorem State.raise_ctl : (s.raise e).ctl = s.ctl := rfl
@[simp] theorem State.raise_free : (s.raise e).free = s.free := rfl
@[simp] theorem State.raise_out : (s.raise e).out = s.out := rfl
@[simp] theorem State.raise_pending : (s.raise e).pending = s.pending := rfl

end

section
variable (s : State) (o : Out)

@[simp] theorem State.emit_variant : (s.emit o).variant = s.variant := rfl
@[simp] theorem State.emit_regs : (s.emit o).regs = s.regs := rfl
@[simp] theorem State.emit_time : (s.emit o).time = s.time := rfl
@[simp] theorem State.emit_hbm : (s.emit o).hbm = s.hbm := rfl
@[simp] theorem State.emit_facets : (s.emit o).facets = s.facets := rfl
@[simp] theorem State.emit_arrs : (s.emit o).arrs = s.arrs := rfl
@[simp] theorem State.emit_larrs : (s.emit o).larrs = s.larrs := rfl
@[simp] theorem State.emit_outJobs : (s.emit o).outJobs = s.outJobs := rfl
@[simp] theorem State.emit_fbPlaces : (s.emit o).fbPlaces = s.fbPlaces := rfl
@[simp] theorem State.emit_staged : (s.emit o).staged = s.staged := rfl
@[simp] theorem State.emit_regions : (s.emit o).regions = s.regions := rfl
@[simp] theorem State.emit_calStore : (s.emit o).calStore = s.calStore := rfl
@[simp] theorem State.emit_loader : (s.emit o).loader = s.loader := rfl
@[simp] theorem State.emit_faults : (s.emit o).faults = s.faults := rfl
@[simp] theorem State.emit_vault : (s.emit o).vault = s.vault := rfl
@[simp] theorem State.emit_boot : (s.emit o).boot = s.boot := rfl
@[simp] theorem State.emit_sec : (s.emit o).sec = s.sec := rfl
@[simp] theorem State.emit_link : (s.emit o).link = s.link := rfl
@[simp] theorem State.emit_plant : (s.emit o).plant = s.plant := rfl
@[simp] theorem State.emit_power : (s.emit o).power = s.power := rfl
@[simp] theorem State.emit_tap : (s.emit o).tap = s.tap := rfl
@[simp] theorem State.emit_noc : (s.emit o).noc = s.noc := rfl
@[simp] theorem State.emit_serve : (s.emit o).serve = s.serve := rfl
@[simp] theorem State.emit_kv : (s.emit o).kv = s.kv := rfl
@[simp] theorem State.emit_hub : (s.emit o).hub = s.hub := rfl
@[simp] theorem State.emit_ctl : (s.emit o).ctl = s.ctl := rfl
@[simp] theorem State.emit_raises : (s.emit o).raises = s.raises := rfl
@[simp] theorem State.emit_free : (s.emit o).free = s.free := rfl
@[simp] theorem State.emit_pending : (s.emit o).pending = s.pending := rfl

end

section
variable (s : State) (pf : Nat) (f : Facet)

@[simp] theorem State.setFacet_variant : (s.setFacet pf f).variant = s.variant := rfl
@[simp] theorem State.setFacet_regs : (s.setFacet pf f).regs = s.regs := rfl
@[simp] theorem State.setFacet_time : (s.setFacet pf f).time = s.time := rfl
@[simp] theorem State.setFacet_hbm : (s.setFacet pf f).hbm = s.hbm := rfl
@[simp] theorem State.setFacet_arrs : (s.setFacet pf f).arrs = s.arrs := rfl
@[simp] theorem State.setFacet_larrs : (s.setFacet pf f).larrs = s.larrs := rfl
@[simp] theorem State.setFacet_outJobs : (s.setFacet pf f).outJobs = s.outJobs := rfl
@[simp] theorem State.setFacet_fbPlaces : (s.setFacet pf f).fbPlaces = s.fbPlaces := rfl
@[simp] theorem State.setFacet_staged : (s.setFacet pf f).staged = s.staged := rfl
@[simp] theorem State.setFacet_regions : (s.setFacet pf f).regions = s.regions := rfl
@[simp] theorem State.setFacet_calStore : (s.setFacet pf f).calStore = s.calStore := rfl
@[simp] theorem State.setFacet_loader : (s.setFacet pf f).loader = s.loader := rfl
@[simp] theorem State.setFacet_faults : (s.setFacet pf f).faults = s.faults := rfl
@[simp] theorem State.setFacet_vault : (s.setFacet pf f).vault = s.vault := rfl
@[simp] theorem State.setFacet_boot : (s.setFacet pf f).boot = s.boot := rfl
@[simp] theorem State.setFacet_sec : (s.setFacet pf f).sec = s.sec := rfl
@[simp] theorem State.setFacet_link : (s.setFacet pf f).link = s.link := rfl
@[simp] theorem State.setFacet_plant : (s.setFacet pf f).plant = s.plant := rfl
@[simp] theorem State.setFacet_power : (s.setFacet pf f).power = s.power := rfl
@[simp] theorem State.setFacet_tap : (s.setFacet pf f).tap = s.tap := rfl
@[simp] theorem State.setFacet_noc : (s.setFacet pf f).noc = s.noc := rfl
@[simp] theorem State.setFacet_serve : (s.setFacet pf f).serve = s.serve := rfl
@[simp] theorem State.setFacet_kv : (s.setFacet pf f).kv = s.kv := rfl
@[simp] theorem State.setFacet_hub : (s.setFacet pf f).hub = s.hub := rfl
@[simp] theorem State.setFacet_ctl : (s.setFacet pf f).ctl = s.ctl := rfl
@[simp] theorem State.setFacet_raises : (s.setFacet pf f).raises = s.raises := rfl
@[simp] theorem State.setFacet_free : (s.setFacet pf f).free = s.free := rfl
@[simp] theorem State.setFacet_out : (s.setFacet pf f).out = s.out := rfl
@[simp] theorem State.setFacet_pending : (s.setFacet pf f).pending = s.pending := rfl

end

section
variable (s : State) (pf st : Nat)

@[simp] theorem State.setFacState_variant : (s.setFacState pf st).variant = s.variant := rfl
@[simp] theorem State.setFacState_time : (s.setFacState pf st).time = s.time := rfl
@[simp] theorem State.setFacState_hbm : (s.setFacState pf st).hbm = s.hbm := rfl
@[simp] theorem State.setFacState_facets : (s.setFacState pf st).facets = s.facets := rfl
@[simp] theorem State.setFacState_arrs : (s.setFacState pf st).arrs = s.arrs := rfl
@[simp] theorem State.setFacState_larrs : (s.setFacState pf st).larrs = s.larrs := rfl
@[simp] theorem State.setFacState_outJobs : (s.setFacState pf st).outJobs = s.outJobs := rfl
@[simp] theorem State.setFacState_fbPlaces : (s.setFacState pf st).fbPlaces = s.fbPlaces := rfl
@[simp] theorem State.setFacState_staged : (s.setFacState pf st).staged = s.staged := rfl
@[simp] theorem State.setFacState_regions : (s.setFacState pf st).regions = s.regions := rfl
@[simp] theorem State.setFacState_calStore : (s.setFacState pf st).calStore = s.calStore := rfl
@[simp] theorem State.setFacState_loader : (s.setFacState pf st).loader = s.loader := rfl
@[simp] theorem State.setFacState_faults : (s.setFacState pf st).faults = s.faults := rfl
@[simp] theorem State.setFacState_vault : (s.setFacState pf st).vault = s.vault := rfl
@[simp] theorem State.setFacState_boot : (s.setFacState pf st).boot = s.boot := rfl
@[simp] theorem State.setFacState_sec : (s.setFacState pf st).sec = s.sec := rfl
@[simp] theorem State.setFacState_link : (s.setFacState pf st).link = s.link := rfl
@[simp] theorem State.setFacState_plant : (s.setFacState pf st).plant = s.plant := rfl
@[simp] theorem State.setFacState_power : (s.setFacState pf st).power = s.power := rfl
@[simp] theorem State.setFacState_tap : (s.setFacState pf st).tap = s.tap := rfl
@[simp] theorem State.setFacState_noc : (s.setFacState pf st).noc = s.noc := rfl
@[simp] theorem State.setFacState_serve : (s.setFacState pf st).serve = s.serve := rfl
@[simp] theorem State.setFacState_kv : (s.setFacState pf st).kv = s.kv := rfl
@[simp] theorem State.setFacState_hub : (s.setFacState pf st).hub = s.hub := rfl
@[simp] theorem State.setFacState_ctl : (s.setFacState pf st).ctl = s.ctl := rfl
@[simp] theorem State.setFacState_raises : (s.setFacState pf st).raises = s.raises := rfl
@[simp] theorem State.setFacState_free : (s.setFacState pf st).free = s.free := rfl
@[simp] theorem State.setFacState_out : (s.setFacState pf st).out = s.out := rfl
@[simp] theorem State.setFacState_pending : (s.setFacState pf st).pending = s.pending := rfl

end

section
variable (s : State) (pf a st : Nat)

@[simp] theorem State.setArrState_variant : (s.setArrState pf a st).variant = s.variant := rfl
@[simp] theorem State.setArrState_time : (s.setArrState pf a st).time = s.time := rfl
@[simp] theorem State.setArrState_hbm : (s.setArrState pf a st).hbm = s.hbm := rfl
@[simp] theorem State.setArrState_facets : (s.setArrState pf a st).facets = s.facets := rfl
@[simp] theorem State.setArrState_arrs : (s.setArrState pf a st).arrs = s.arrs := rfl
@[simp] theorem State.setArrState_larrs : (s.setArrState pf a st).larrs = s.larrs := rfl
@[simp] theorem State.setArrState_outJobs : (s.setArrState pf a st).outJobs = s.outJobs := rfl
@[simp] theorem State.setArrState_fbPlaces : (s.setArrState pf a st).fbPlaces = s.fbPlaces := rfl
@[simp] theorem State.setArrState_staged : (s.setArrState pf a st).staged = s.staged := rfl
@[simp] theorem State.setArrState_regions : (s.setArrState pf a st).regions = s.regions := rfl
@[simp] theorem State.setArrState_calStore : (s.setArrState pf a st).calStore = s.calStore := rfl
@[simp] theorem State.setArrState_loader : (s.setArrState pf a st).loader = s.loader := rfl
@[simp] theorem State.setArrState_faults : (s.setArrState pf a st).faults = s.faults := rfl
@[simp] theorem State.setArrState_vault : (s.setArrState pf a st).vault = s.vault := rfl
@[simp] theorem State.setArrState_boot : (s.setArrState pf a st).boot = s.boot := rfl
@[simp] theorem State.setArrState_sec : (s.setArrState pf a st).sec = s.sec := rfl
@[simp] theorem State.setArrState_link : (s.setArrState pf a st).link = s.link := rfl
@[simp] theorem State.setArrState_plant : (s.setArrState pf a st).plant = s.plant := rfl
@[simp] theorem State.setArrState_power : (s.setArrState pf a st).power = s.power := rfl
@[simp] theorem State.setArrState_tap : (s.setArrState pf a st).tap = s.tap := rfl
@[simp] theorem State.setArrState_noc : (s.setArrState pf a st).noc = s.noc := rfl
@[simp] theorem State.setArrState_serve : (s.setArrState pf a st).serve = s.serve := rfl
@[simp] theorem State.setArrState_kv : (s.setArrState pf a st).kv = s.kv := rfl
@[simp] theorem State.setArrState_hub : (s.setArrState pf a st).hub = s.hub := rfl
@[simp] theorem State.setArrState_ctl : (s.setArrState pf a st).ctl = s.ctl := rfl
@[simp] theorem State.setArrState_raises : (s.setArrState pf a st).raises = s.raises := rfl
@[simp] theorem State.setArrState_free : (s.setArrState pf a st).free = s.free := rfl
@[simp] theorem State.setArrState_out : (s.setArrState pf a st).out = s.out := rfl
@[simp] theorem State.setArrState_pending : (s.setArrState pf a st).pending = s.pending := rfl

end

section
variable (s : State) (pf a : Nat) (x : PArr)

@[simp] theorem State.setParr_variant : (s.setParr pf a x).variant = s.variant := rfl
@[simp] theorem State.setParr_regs : (s.setParr pf a x).regs = s.regs := rfl
@[simp] theorem State.setParr_time : (s.setParr pf a x).time = s.time := rfl
@[simp] theorem State.setParr_hbm : (s.setParr pf a x).hbm = s.hbm := rfl
@[simp] theorem State.setParr_facets : (s.setParr pf a x).facets = s.facets := rfl
@[simp] theorem State.setParr_larrs : (s.setParr pf a x).larrs = s.larrs := rfl
@[simp] theorem State.setParr_outJobs : (s.setParr pf a x).outJobs = s.outJobs := rfl
@[simp] theorem State.setParr_fbPlaces : (s.setParr pf a x).fbPlaces = s.fbPlaces := rfl
@[simp] theorem State.setParr_staged : (s.setParr pf a x).staged = s.staged := rfl
@[simp] theorem State.setParr_regions : (s.setParr pf a x).regions = s.regions := rfl
@[simp] theorem State.setParr_calStore : (s.setParr pf a x).calStore = s.calStore := rfl
@[simp] theorem State.setParr_loader : (s.setParr pf a x).loader = s.loader := rfl
@[simp] theorem State.setParr_faults : (s.setParr pf a x).faults = s.faults := rfl
@[simp] theorem State.setParr_vault : (s.setParr pf a x).vault = s.vault := rfl
@[simp] theorem State.setParr_boot : (s.setParr pf a x).boot = s.boot := rfl
@[simp] theorem State.setParr_sec : (s.setParr pf a x).sec = s.sec := rfl
@[simp] theorem State.setParr_link : (s.setParr pf a x).link = s.link := rfl
@[simp] theorem State.setParr_plant : (s.setParr pf a x).plant = s.plant := rfl
@[simp] theorem State.setParr_power : (s.setParr pf a x).power = s.power := rfl
@[simp] theorem State.setParr_tap : (s.setParr pf a x).tap = s.tap := rfl
@[simp] theorem State.setParr_noc : (s.setParr pf a x).noc = s.noc := rfl
@[simp] theorem State.setParr_serve : (s.setParr pf a x).serve = s.serve := rfl
@[simp] theorem State.setParr_kv : (s.setParr pf a x).kv = s.kv := rfl
@[simp] theorem State.setParr_hub : (s.setParr pf a x).hub = s.hub := rfl
@[simp] theorem State.setParr_ctl : (s.setParr pf a x).ctl = s.ctl := rfl
@[simp] theorem State.setParr_raises : (s.setParr pf a x).raises = s.raises := rfl
@[simp] theorem State.setParr_free : (s.setParr pf a x).free = s.free := rfl
@[simp] theorem State.setParr_out : (s.setParr pf a x).out = s.out := rfl
@[simp] theorem State.setParr_pending : (s.setParr pf a x).pending = s.pending := rfl

end

section
variable (s : State) (pf n : Nat) (x : LArr)

@[simp] theorem State.setLarr_variant : (s.setLarr pf n x).variant = s.variant := rfl
@[simp] theorem State.setLarr_regs : (s.setLarr pf n x).regs = s.regs := rfl
@[simp] theorem State.setLarr_time : (s.setLarr pf n x).time = s.time := rfl
@[simp] theorem State.setLarr_hbm : (s.setLarr pf n x).hbm = s.hbm := rfl
@[simp] theorem State.setLarr_facets : (s.setLarr pf n x).facets = s.facets := rfl
@[simp] theorem State.setLarr_arrs : (s.setLarr pf n x).arrs = s.arrs := rfl
@[simp] theorem State.setLarr_outJobs : (s.setLarr pf n x).outJobs = s.outJobs := rfl
@[simp] theorem State.setLarr_fbPlaces : (s.setLarr pf n x).fbPlaces = s.fbPlaces := rfl
@[simp] theorem State.setLarr_staged : (s.setLarr pf n x).staged = s.staged := rfl
@[simp] theorem State.setLarr_regions : (s.setLarr pf n x).regions = s.regions := rfl
@[simp] theorem State.setLarr_calStore : (s.setLarr pf n x).calStore = s.calStore := rfl
@[simp] theorem State.setLarr_loader : (s.setLarr pf n x).loader = s.loader := rfl
@[simp] theorem State.setLarr_faults : (s.setLarr pf n x).faults = s.faults := rfl
@[simp] theorem State.setLarr_vault : (s.setLarr pf n x).vault = s.vault := rfl
@[simp] theorem State.setLarr_boot : (s.setLarr pf n x).boot = s.boot := rfl
@[simp] theorem State.setLarr_sec : (s.setLarr pf n x).sec = s.sec := rfl
@[simp] theorem State.setLarr_link : (s.setLarr pf n x).link = s.link := rfl
@[simp] theorem State.setLarr_plant : (s.setLarr pf n x).plant = s.plant := rfl
@[simp] theorem State.setLarr_power : (s.setLarr pf n x).power = s.power := rfl
@[simp] theorem State.setLarr_tap : (s.setLarr pf n x).tap = s.tap := rfl
@[simp] theorem State.setLarr_noc : (s.setLarr pf n x).noc = s.noc := rfl
@[simp] theorem State.setLarr_serve : (s.setLarr pf n x).serve = s.serve := rfl
@[simp] theorem State.setLarr_kv : (s.setLarr pf n x).kv = s.kv := rfl
@[simp] theorem State.setLarr_hub : (s.setLarr pf n x).hub = s.hub := rfl
@[simp] theorem State.setLarr_ctl : (s.setLarr pf n x).ctl = s.ctl := rfl
@[simp] theorem State.setLarr_raises : (s.setLarr pf n x).raises = s.raises := rfl
@[simp] theorem State.setLarr_free : (s.setLarr pf n x).free = s.free := rfl
@[simp] theorem State.setLarr_out : (s.setLarr pf n x).out = s.out := rfl
@[simp] theorem State.setLarr_pending : (s.setLarr pf n x).pending = s.pending := rfl

end

section
variable (s : State) (g : Nat) (x : Region)

@[simp] theorem State.setRegion_variant : (s.setRegion g x).variant = s.variant := rfl
@[simp] theorem State.setRegion_regs : (s.setRegion g x).regs = s.regs := rfl
@[simp] theorem State.setRegion_time : (s.setRegion g x).time = s.time := rfl
@[simp] theorem State.setRegion_hbm : (s.setRegion g x).hbm = s.hbm := rfl
@[simp] theorem State.setRegion_facets : (s.setRegion g x).facets = s.facets := rfl
@[simp] theorem State.setRegion_arrs : (s.setRegion g x).arrs = s.arrs := rfl
@[simp] theorem State.setRegion_larrs : (s.setRegion g x).larrs = s.larrs := rfl
@[simp] theorem State.setRegion_outJobs : (s.setRegion g x).outJobs = s.outJobs := rfl
@[simp] theorem State.setRegion_fbPlaces : (s.setRegion g x).fbPlaces = s.fbPlaces := rfl
@[simp] theorem State.setRegion_staged : (s.setRegion g x).staged = s.staged := rfl
@[simp] theorem State.setRegion_calStore : (s.setRegion g x).calStore = s.calStore := rfl
@[simp] theorem State.setRegion_loader : (s.setRegion g x).loader = s.loader := rfl
@[simp] theorem State.setRegion_faults : (s.setRegion g x).faults = s.faults := rfl
@[simp] theorem State.setRegion_vault : (s.setRegion g x).vault = s.vault := rfl
@[simp] theorem State.setRegion_boot : (s.setRegion g x).boot = s.boot := rfl
@[simp] theorem State.setRegion_sec : (s.setRegion g x).sec = s.sec := rfl
@[simp] theorem State.setRegion_link : (s.setRegion g x).link = s.link := rfl
@[simp] theorem State.setRegion_plant : (s.setRegion g x).plant = s.plant := rfl
@[simp] theorem State.setRegion_power : (s.setRegion g x).power = s.power := rfl
@[simp] theorem State.setRegion_tap : (s.setRegion g x).tap = s.tap := rfl
@[simp] theorem State.setRegion_noc : (s.setRegion g x).noc = s.noc := rfl
@[simp] theorem State.setRegion_serve : (s.setRegion g x).serve = s.serve := rfl
@[simp] theorem State.setRegion_kv : (s.setRegion g x).kv = s.kv := rfl
@[simp] theorem State.setRegion_hub : (s.setRegion g x).hub = s.hub := rfl
@[simp] theorem State.setRegion_ctl : (s.setRegion g x).ctl = s.ctl := rfl
@[simp] theorem State.setRegion_raises : (s.setRegion g x).raises = s.raises := rfl
@[simp] theorem State.setRegion_free : (s.setRegion g x).free = s.free := rfl
@[simp] theorem State.setRegion_out : (s.setRegion g x).out = s.out := rfl
@[simp] theorem State.setRegion_pending : (s.setRegion g x).pending = s.pending := rfl

end

section
variable (s : State) (c : Ctl)

@[simp] theorem State.setCtl_variant : (s.setCtl c).variant = s.variant := rfl
@[simp] theorem State.setCtl_regs : (s.setCtl c).regs = s.regs := rfl
@[simp] theorem State.setCtl_time : (s.setCtl c).time = s.time := rfl
@[simp] theorem State.setCtl_hbm : (s.setCtl c).hbm = s.hbm := rfl
@[simp] theorem State.setCtl_facets : (s.setCtl c).facets = s.facets := rfl
@[simp] theorem State.setCtl_arrs : (s.setCtl c).arrs = s.arrs := rfl
@[simp] theorem State.setCtl_larrs : (s.setCtl c).larrs = s.larrs := rfl
@[simp] theorem State.setCtl_outJobs : (s.setCtl c).outJobs = s.outJobs := rfl
@[simp] theorem State.setCtl_fbPlaces : (s.setCtl c).fbPlaces = s.fbPlaces := rfl
@[simp] theorem State.setCtl_staged : (s.setCtl c).staged = s.staged := rfl
@[simp] theorem State.setCtl_regions : (s.setCtl c).regions = s.regions := rfl
@[simp] theorem State.setCtl_calStore : (s.setCtl c).calStore = s.calStore := rfl
@[simp] theorem State.setCtl_loader : (s.setCtl c).loader = s.loader := rfl
@[simp] theorem State.setCtl_faults : (s.setCtl c).faults = s.faults := rfl
@[simp] theorem State.setCtl_vault : (s.setCtl c).vault = s.vault := rfl
@[simp] theorem State.setCtl_boot : (s.setCtl c).boot = s.boot := rfl
@[simp] theorem State.setCtl_sec : (s.setCtl c).sec = s.sec := rfl
@[simp] theorem State.setCtl_link : (s.setCtl c).link = s.link := rfl
@[simp] theorem State.setCtl_plant : (s.setCtl c).plant = s.plant := rfl
@[simp] theorem State.setCtl_power : (s.setCtl c).power = s.power := rfl
@[simp] theorem State.setCtl_tap : (s.setCtl c).tap = s.tap := rfl
@[simp] theorem State.setCtl_noc : (s.setCtl c).noc = s.noc := rfl
@[simp] theorem State.setCtl_serve : (s.setCtl c).serve = s.serve := rfl
@[simp] theorem State.setCtl_kv : (s.setCtl c).kv = s.kv := rfl
@[simp] theorem State.setCtl_hub : (s.setCtl c).hub = s.hub := rfl
@[simp] theorem State.setCtl_raises : (s.setCtl c).raises = s.raises := rfl
@[simp] theorem State.setCtl_free : (s.setCtl c).free = s.free := rfl
@[simp] theorem State.setCtl_out : (s.setCtl c).out = s.out := rfl
@[simp] theorem State.setCtl_pending : (s.setCtl c).pending = s.pending := rfl

end

section
variable (s : State) (e : Nat) (x : Entry)

@[simp] theorem State.setEntry_variant : (s.setEntry e x).variant = s.variant := rfl
@[simp] theorem State.setEntry_regs : (s.setEntry e x).regs = s.regs := rfl
@[simp] theorem State.setEntry_time : (s.setEntry e x).time = s.time := rfl
@[simp] theorem State.setEntry_hbm : (s.setEntry e x).hbm = s.hbm := rfl
@[simp] theorem State.setEntry_facets : (s.setEntry e x).facets = s.facets := rfl
@[simp] theorem State.setEntry_arrs : (s.setEntry e x).arrs = s.arrs := rfl
@[simp] theorem State.setEntry_larrs : (s.setEntry e x).larrs = s.larrs := rfl
@[simp] theorem State.setEntry_outJobs : (s.setEntry e x).outJobs = s.outJobs := rfl
@[simp] theorem State.setEntry_fbPlaces : (s.setEntry e x).fbPlaces = s.fbPlaces := rfl
@[simp] theorem State.setEntry_staged : (s.setEntry e x).staged = s.staged := rfl
@[simp] theorem State.setEntry_regions : (s.setEntry e x).regions = s.regions := rfl
@[simp] theorem State.setEntry_calStore : (s.setEntry e x).calStore = s.calStore := rfl
@[simp] theorem State.setEntry_loader : (s.setEntry e x).loader = s.loader := rfl
@[simp] theorem State.setEntry_faults : (s.setEntry e x).faults = s.faults := rfl
@[simp] theorem State.setEntry_vault : (s.setEntry e x).vault = s.vault := rfl
@[simp] theorem State.setEntry_boot : (s.setEntry e x).boot = s.boot := rfl
@[simp] theorem State.setEntry_sec : (s.setEntry e x).sec = s.sec := rfl
@[simp] theorem State.setEntry_link : (s.setEntry e x).link = s.link := rfl
@[simp] theorem State.setEntry_plant : (s.setEntry e x).plant = s.plant := rfl
@[simp] theorem State.setEntry_power : (s.setEntry e x).power = s.power := rfl
@[simp] theorem State.setEntry_tap : (s.setEntry e x).tap = s.tap := rfl
@[simp] theorem State.setEntry_noc : (s.setEntry e x).noc = s.noc := rfl
@[simp] theorem State.setEntry_kv : (s.setEntry e x).kv = s.kv := rfl
@[simp] theorem State.setEntry_hub : (s.setEntry e x).hub = s.hub := rfl
@[simp] theorem State.setEntry_ctl : (s.setEntry e x).ctl = s.ctl := rfl
@[simp] theorem State.setEntry_raises : (s.setEntry e x).raises = s.raises := rfl
@[simp] theorem State.setEntry_free : (s.setEntry e x).free = s.free := rfl
@[simp] theorem State.setEntry_out : (s.setEntry e x).out = s.out := rfl
@[simp] theorem State.setEntry_pending : (s.setEntry e x).pending = s.pending := rfl

end

section
variable (s : State) (n : Nat) (c : Chan)

@[simp] theorem State.setChan_variant : (s.setChan n c).variant = s.variant := rfl
@[simp] theorem State.setChan_regs : (s.setChan n c).regs = s.regs := rfl
@[simp] theorem State.setChan_time : (s.setChan n c).time = s.time := rfl
@[simp] theorem State.setChan_hbm : (s.setChan n c).hbm = s.hbm := rfl
@[simp] theorem State.setChan_facets : (s.setChan n c).facets = s.facets := rfl
@[simp] theorem State.setChan_arrs : (s.setChan n c).arrs = s.arrs := rfl
@[simp] theorem State.setChan_larrs : (s.setChan n c).larrs = s.larrs := rfl
@[simp] theorem State.setChan_outJobs : (s.setChan n c).outJobs = s.outJobs := rfl
@[simp] theorem State.setChan_fbPlaces : (s.setChan n c).fbPlaces = s.fbPlaces := rfl
@[simp] theorem State.setChan_staged : (s.setChan n c).staged = s.staged := rfl
@[simp] theorem State.setChan_regions : (s.setChan n c).regions = s.regions := rfl
@[simp] theorem State.setChan_calStore : (s.setChan n c).calStore = s.calStore := rfl
@[simp] theorem State.setChan_loader : (s.setChan n c).loader = s.loader := rfl
@[simp] theorem State.setChan_faults : (s.setChan n c).faults = s.faults := rfl
@[simp] theorem State.setChan_vault : (s.setChan n c).vault = s.vault := rfl
@[simp] theorem State.setChan_boot : (s.setChan n c).boot = s.boot := rfl
@[simp] theorem State.setChan_sec : (s.setChan n c).sec = s.sec := rfl
@[simp] theorem State.setChan_link : (s.setChan n c).link = s.link := rfl
@[simp] theorem State.setChan_plant : (s.setChan n c).plant = s.plant := rfl
@[simp] theorem State.setChan_power : (s.setChan n c).power = s.power := rfl
@[simp] theorem State.setChan_tap : (s.setChan n c).tap = s.tap := rfl
@[simp] theorem State.setChan_noc : (s.setChan n c).noc = s.noc := rfl
@[simp] theorem State.setChan_kv : (s.setChan n c).kv = s.kv := rfl
@[simp] theorem State.setChan_hub : (s.setChan n c).hub = s.hub := rfl
@[simp] theorem State.setChan_ctl : (s.setChan n c).ctl = s.ctl := rfl
@[simp] theorem State.setChan_raises : (s.setChan n c).raises = s.raises := rfl
@[simp] theorem State.setChan_free : (s.setChan n c).free = s.free := rfl
@[simp] theorem State.setChan_out : (s.setChan n c).out = s.out := rfl
@[simp] theorem State.setChan_pending : (s.setChan n c).pending = s.pending := rfl

end

section
variable (s : State) (k : Kv)

@[simp] theorem State.setKv_variant : (s.setKv k).variant = s.variant := rfl
@[simp] theorem State.setKv_regs : (s.setKv k).regs = s.regs := rfl
@[simp] theorem State.setKv_time : (s.setKv k).time = s.time := rfl
@[simp] theorem State.setKv_hbm : (s.setKv k).hbm = s.hbm := rfl
@[simp] theorem State.setKv_facets : (s.setKv k).facets = s.facets := rfl
@[simp] theorem State.setKv_arrs : (s.setKv k).arrs = s.arrs := rfl
@[simp] theorem State.setKv_larrs : (s.setKv k).larrs = s.larrs := rfl
@[simp] theorem State.setKv_outJobs : (s.setKv k).outJobs = s.outJobs := rfl
@[simp] theorem State.setKv_fbPlaces : (s.setKv k).fbPlaces = s.fbPlaces := rfl
@[simp] theorem State.setKv_staged : (s.setKv k).staged = s.staged := rfl
@[simp] theorem State.setKv_regions : (s.setKv k).regions = s.regions := rfl
@[simp] theorem State.setKv_calStore : (s.setKv k).calStore = s.calStore := rfl
@[simp] theorem State.setKv_loader : (s.setKv k).loader = s.loader := rfl
@[simp] theorem State.setKv_faults : (s.setKv k).faults = s.faults := rfl
@[simp] theorem State.setKv_vault : (s.setKv k).vault = s.vault := rfl
@[simp] theorem State.setKv_boot : (s.setKv k).boot = s.boot := rfl
@[simp] theorem State.setKv_sec : (s.setKv k).sec = s.sec := rfl
@[simp] theorem State.setKv_link : (s.setKv k).link = s.link := rfl
@[simp] theorem State.setKv_plant : (s.setKv k).plant = s.plant := rfl
@[simp] theorem State.setKv_power : (s.setKv k).power = s.power := rfl
@[simp] theorem State.setKv_tap : (s.setKv k).tap = s.tap := rfl
@[simp] theorem State.setKv_noc : (s.setKv k).noc = s.noc := rfl
@[simp] theorem State.setKv_serve : (s.setKv k).serve = s.serve := rfl
@[simp] theorem State.setKv_hub : (s.setKv k).hub = s.hub := rfl
@[simp] theorem State.setKv_ctl : (s.setKv k).ctl = s.ctl := rfl
@[simp] theorem State.setKv_raises : (s.setKv k).raises = s.raises := rfl
@[simp] theorem State.setKv_free : (s.setKv k).free = s.free := rfl
@[simp] theorem State.setKv_out : (s.setKv k).out = s.out := rfl
@[simp] theorem State.setKv_pending : (s.setKv k).pending = s.pending := rfl

end

section
variable (s : State) (l : List StepRun)

@[simp] theorem State.setSteps_variant : (s.setSteps l).variant = s.variant := rfl
@[simp] theorem State.setSteps_regs : (s.setSteps l).regs = s.regs := rfl
@[simp] theorem State.setSteps_time : (s.setSteps l).time = s.time := rfl
@[simp] theorem State.setSteps_hbm : (s.setSteps l).hbm = s.hbm := rfl
@[simp] theorem State.setSteps_facets : (s.setSteps l).facets = s.facets := rfl
@[simp] theorem State.setSteps_arrs : (s.setSteps l).arrs = s.arrs := rfl
@[simp] theorem State.setSteps_larrs : (s.setSteps l).larrs = s.larrs := rfl
@[simp] theorem State.setSteps_outJobs : (s.setSteps l).outJobs = s.outJobs := rfl
@[simp] theorem State.setSteps_fbPlaces : (s.setSteps l).fbPlaces = s.fbPlaces := rfl
@[simp] theorem State.setSteps_staged : (s.setSteps l).staged = s.staged := rfl
@[simp] theorem State.setSteps_regions : (s.setSteps l).regions = s.regions := rfl
@[simp] theorem State.setSteps_calStore : (s.setSteps l).calStore = s.calStore := rfl
@[simp] theorem State.setSteps_loader : (s.setSteps l).loader = s.loader := rfl
@[simp] theorem State.setSteps_faults : (s.setSteps l).faults = s.faults := rfl
@[simp] theorem State.setSteps_vault : (s.setSteps l).vault = s.vault := rfl
@[simp] theorem State.setSteps_boot : (s.setSteps l).boot = s.boot := rfl
@[simp] theorem State.setSteps_sec : (s.setSteps l).sec = s.sec := rfl
@[simp] theorem State.setSteps_link : (s.setSteps l).link = s.link := rfl
@[simp] theorem State.setSteps_plant : (s.setSteps l).plant = s.plant := rfl
@[simp] theorem State.setSteps_power : (s.setSteps l).power = s.power := rfl
@[simp] theorem State.setSteps_tap : (s.setSteps l).tap = s.tap := rfl
@[simp] theorem State.setSteps_noc : (s.setSteps l).noc = s.noc := rfl
@[simp] theorem State.setSteps_kv : (s.setSteps l).kv = s.kv := rfl
@[simp] theorem State.setSteps_hub : (s.setSteps l).hub = s.hub := rfl
@[simp] theorem State.setSteps_ctl : (s.setSteps l).ctl = s.ctl := rfl
@[simp] theorem State.setSteps_raises : (s.setSteps l).raises = s.raises := rfl
@[simp] theorem State.setSteps_free : (s.setSteps l).free = s.free := rfl
@[simp] theorem State.setSteps_out : (s.setSteps l).out = s.out := rfl
@[simp] theorem State.setSteps_pending : (s.setSteps l).pending = s.pending := rfl

end

section
variable (s : State) (e : Nat) (x : Sampler)

@[simp] theorem State.setSampler_variant : (s.setSampler e x).variant = s.variant := rfl
@[simp] theorem State.setSampler_regs : (s.setSampler e x).regs = s.regs := rfl
@[simp] theorem State.setSampler_time : (s.setSampler e x).time = s.time := rfl
@[simp] theorem State.setSampler_hbm : (s.setSampler e x).hbm = s.hbm := rfl
@[simp] theorem State.setSampler_facets : (s.setSampler e x).facets = s.facets := rfl
@[simp] theorem State.setSampler_arrs : (s.setSampler e x).arrs = s.arrs := rfl
@[simp] theorem State.setSampler_larrs : (s.setSampler e x).larrs = s.larrs := rfl
@[simp] theorem State.setSampler_outJobs : (s.setSampler e x).outJobs = s.outJobs := rfl
@[simp] theorem State.setSampler_fbPlaces : (s.setSampler e x).fbPlaces = s.fbPlaces := rfl
@[simp] theorem State.setSampler_staged : (s.setSampler e x).staged = s.staged := rfl
@[simp] theorem State.setSampler_regions : (s.setSampler e x).regions = s.regions := rfl
@[simp] theorem State.setSampler_calStore : (s.setSampler e x).calStore = s.calStore := rfl
@[simp] theorem State.setSampler_loader : (s.setSampler e x).loader = s.loader := rfl
@[simp] theorem State.setSampler_faults : (s.setSampler e x).faults = s.faults := rfl
@[simp] theorem State.setSampler_vault : (s.setSampler e x).vault = s.vault := rfl
@[simp] theorem State.setSampler_boot : (s.setSampler e x).boot = s.boot := rfl
@[simp] theorem State.setSampler_sec : (s.setSampler e x).sec = s.sec := rfl
@[simp] theorem State.setSampler_link : (s.setSampler e x).link = s.link := rfl
@[simp] theorem State.setSampler_plant : (s.setSampler e x).plant = s.plant := rfl
@[simp] theorem State.setSampler_power : (s.setSampler e x).power = s.power := rfl
@[simp] theorem State.setSampler_tap : (s.setSampler e x).tap = s.tap := rfl
@[simp] theorem State.setSampler_noc : (s.setSampler e x).noc = s.noc := rfl
@[simp] theorem State.setSampler_kv : (s.setSampler e x).kv = s.kv := rfl
@[simp] theorem State.setSampler_hub : (s.setSampler e x).hub = s.hub := rfl
@[simp] theorem State.setSampler_ctl : (s.setSampler e x).ctl = s.ctl := rfl
@[simp] theorem State.setSampler_raises : (s.setSampler e x).raises = s.raises := rfl
@[simp] theorem State.setSampler_free : (s.setSampler e x).free = s.free := rfl
@[simp] theorem State.setSampler_out : (s.setSampler e x).out = s.out := rfl
@[simp] theorem State.setSampler_pending : (s.setSampler e x).pending = s.pending := rfl

end

section
variable (s : State) (p : Nat) (x : LPort)

@[simp] theorem State.setLport_variant : (s.setLport p x).variant = s.variant := rfl
@[simp] theorem State.setLport_regs : (s.setLport p x).regs = s.regs := rfl
@[simp] theorem State.setLport_time : (s.setLport p x).time = s.time := rfl
@[simp] theorem State.setLport_hbm : (s.setLport p x).hbm = s.hbm := rfl
@[simp] theorem State.setLport_facets : (s.setLport p x).facets = s.facets := rfl
@[simp] theorem State.setLport_arrs : (s.setLport p x).arrs = s.arrs := rfl
@[simp] theorem State.setLport_larrs : (s.setLport p x).larrs = s.larrs := rfl
@[simp] theorem State.setLport_outJobs : (s.setLport p x).outJobs = s.outJobs := rfl
@[simp] theorem State.setLport_fbPlaces : (s.setLport p x).fbPlaces = s.fbPlaces := rfl
@[simp] theorem State.setLport_staged : (s.setLport p x).staged = s.staged := rfl
@[simp] theorem State.setLport_regions : (s.setLport p x).regions = s.regions := rfl
@[simp] theorem State.setLport_calStore : (s.setLport p x).calStore = s.calStore := rfl
@[simp] theorem State.setLport_loader : (s.setLport p x).loader = s.loader := rfl
@[simp] theorem State.setLport_faults : (s.setLport p x).faults = s.faults := rfl
@[simp] theorem State.setLport_vault : (s.setLport p x).vault = s.vault := rfl
@[simp] theorem State.setLport_boot : (s.setLport p x).boot = s.boot := rfl
@[simp] theorem State.setLport_sec : (s.setLport p x).sec = s.sec := rfl
@[simp] theorem State.setLport_plant : (s.setLport p x).plant = s.plant := rfl
@[simp] theorem State.setLport_power : (s.setLport p x).power = s.power := rfl
@[simp] theorem State.setLport_tap : (s.setLport p x).tap = s.tap := rfl
@[simp] theorem State.setLport_noc : (s.setLport p x).noc = s.noc := rfl
@[simp] theorem State.setLport_serve : (s.setLport p x).serve = s.serve := rfl
@[simp] theorem State.setLport_kv : (s.setLport p x).kv = s.kv := rfl
@[simp] theorem State.setLport_hub : (s.setLport p x).hub = s.hub := rfl
@[simp] theorem State.setLport_ctl : (s.setLport p x).ctl = s.ctl := rfl
@[simp] theorem State.setLport_raises : (s.setLport p x).raises = s.raises := rfl
@[simp] theorem State.setLport_free : (s.setLport p x).free = s.free := rfl
@[simp] theorem State.setLport_out : (s.setLport p x).out = s.out := rfl
@[simp] theorem State.setLport_pending : (s.setLport p x).pending = s.pending := rfl

end

section
variable (s : State) (h : Nat) (x : HubBoot)

@[simp] theorem State.setHubBoot_variant : (s.setHubBoot h x).variant = s.variant := rfl
@[simp] theorem State.setHubBoot_regs : (s.setHubBoot h x).regs = s.regs := rfl
@[simp] theorem State.setHubBoot_time : (s.setHubBoot h x).time = s.time := rfl
@[simp] theorem State.setHubBoot_hbm : (s.setHubBoot h x).hbm = s.hbm := rfl
@[simp] theorem State.setHubBoot_facets : (s.setHubBoot h x).facets = s.facets := rfl
@[simp] theorem State.setHubBoot_arrs : (s.setHubBoot h x).arrs = s.arrs := rfl
@[simp] theorem State.setHubBoot_larrs : (s.setHubBoot h x).larrs = s.larrs := rfl
@[simp] theorem State.setHubBoot_outJobs : (s.setHubBoot h x).outJobs = s.outJobs := rfl
@[simp] theorem State.setHubBoot_fbPlaces : (s.setHubBoot h x).fbPlaces = s.fbPlaces := rfl
@[simp] theorem State.setHubBoot_staged : (s.setHubBoot h x).staged = s.staged := rfl
@[simp] theorem State.setHubBoot_regions : (s.setHubBoot h x).regions = s.regions := rfl
@[simp] theorem State.setHubBoot_calStore : (s.setHubBoot h x).calStore = s.calStore := rfl
@[simp] theorem State.setHubBoot_loader : (s.setHubBoot h x).loader = s.loader := rfl
@[simp] theorem State.setHubBoot_faults : (s.setHubBoot h x).faults = s.faults := rfl
@[simp] theorem State.setHubBoot_vault : (s.setHubBoot h x).vault = s.vault := rfl
@[simp] theorem State.setHubBoot_sec : (s.setHubBoot h x).sec = s.sec := rfl
@[simp] theorem State.setHubBoot_link : (s.setHubBoot h x).link = s.link := rfl
@[simp] theorem State.setHubBoot_plant : (s.setHubBoot h x).plant = s.plant := rfl
@[simp] theorem State.setHubBoot_power : (s.setHubBoot h x).power = s.power := rfl
@[simp] theorem State.setHubBoot_tap : (s.setHubBoot h x).tap = s.tap := rfl
@[simp] theorem State.setHubBoot_noc : (s.setHubBoot h x).noc = s.noc := rfl
@[simp] theorem State.setHubBoot_serve : (s.setHubBoot h x).serve = s.serve := rfl
@[simp] theorem State.setHubBoot_kv : (s.setHubBoot h x).kv = s.kv := rfl
@[simp] theorem State.setHubBoot_hub : (s.setHubBoot h x).hub = s.hub := rfl
@[simp] theorem State.setHubBoot_ctl : (s.setHubBoot h x).ctl = s.ctl := rfl
@[simp] theorem State.setHubBoot_raises : (s.setHubBoot h x).raises = s.raises := rfl
@[simp] theorem State.setHubBoot_free : (s.setHubBoot h x).free = s.free := rfl
@[simp] theorem State.setHubBoot_out : (s.setHubBoot h x).out = s.out := rfl
@[simp] theorem State.setHubBoot_pending : (s.setHubBoot h x).pending = s.pending := rfl

end

section
variable (s : State) (p st : Nat)

@[simp] theorem State.setCoreState_variant : (s.setCoreState p st).variant = s.variant := rfl
@[simp] theorem State.setCoreState_time : (s.setCoreState p st).time = s.time := rfl
@[simp] theorem State.setCoreState_hbm : (s.setCoreState p st).hbm = s.hbm := rfl
@[simp] theorem State.setCoreState_facets : (s.setCoreState p st).facets = s.facets := rfl
@[simp] theorem State.setCoreState_arrs : (s.setCoreState p st).arrs = s.arrs := rfl
@[simp] theorem State.setCoreState_larrs : (s.setCoreState p st).larrs = s.larrs := rfl
@[simp] theorem State.setCoreState_outJobs : (s.setCoreState p st).outJobs = s.outJobs := rfl
@[simp] theorem State.setCoreState_fbPlaces : (s.setCoreState p st).fbPlaces = s.fbPlaces := rfl
@[simp] theorem State.setCoreState_staged : (s.setCoreState p st).staged = s.staged := rfl
@[simp] theorem State.setCoreState_regions : (s.setCoreState p st).regions = s.regions := rfl
@[simp] theorem State.setCoreState_calStore : (s.setCoreState p st).calStore = s.calStore := rfl
@[simp] theorem State.setCoreState_loader : (s.setCoreState p st).loader = s.loader := rfl
@[simp] theorem State.setCoreState_faults : (s.setCoreState p st).faults = s.faults := rfl
@[simp] theorem State.setCoreState_vault : (s.setCoreState p st).vault = s.vault := rfl
@[simp] theorem State.setCoreState_boot : (s.setCoreState p st).boot = s.boot := rfl
@[simp] theorem State.setCoreState_sec : (s.setCoreState p st).sec = s.sec := rfl
@[simp] theorem State.setCoreState_link : (s.setCoreState p st).link = s.link := rfl
@[simp] theorem State.setCoreState_plant : (s.setCoreState p st).plant = s.plant := rfl
@[simp] theorem State.setCoreState_power : (s.setCoreState p st).power = s.power := rfl
@[simp] theorem State.setCoreState_tap : (s.setCoreState p st).tap = s.tap := rfl
@[simp] theorem State.setCoreState_noc : (s.setCoreState p st).noc = s.noc := rfl
@[simp] theorem State.setCoreState_serve : (s.setCoreState p st).serve = s.serve := rfl
@[simp] theorem State.setCoreState_kv : (s.setCoreState p st).kv = s.kv := rfl
@[simp] theorem State.setCoreState_hub : (s.setCoreState p st).hub = s.hub := rfl
@[simp] theorem State.setCoreState_ctl : (s.setCoreState p st).ctl = s.ctl := rfl
@[simp] theorem State.setCoreState_raises : (s.setCoreState p st).raises = s.raises := rfl
@[simp] theorem State.setCoreState_free : (s.setCoreState p st).free = s.free := rfl
@[simp] theorem State.setCoreState_out : (s.setCoreState p st).out = s.out := rfl
@[simp] theorem State.setCoreState_pending : (s.setCoreState p st).pending = s.pending := rfl

end

@[simp] theorem State.raise_raises (s : State) (e : Raise) : (s.raise e).raises = s.raises ++ [e] := rfl
@[simp] theorem State.emit_out (s : State) (o : Out) : (s.emit o).out = o :: s.out := rfl
@[simp] theorem State.setCtl_ctl (s : State) (c : Ctl) : (s.setCtl c).ctl = c := rfl
@[simp] theorem State.setKv_kv (s : State) (k : Kv) : (s.setKv k).kv = k := rfl
@[simp] theorem State.setSteps_steps (s : State) (l : List StepRun) : (s.setSteps l).serve.steps = l := rfl

/-- A facet reads as written, every other one as before. -/
theorem State.facet_setFacet (s : State) (pf q : Nat) (f : Facet) :
    (s.setFacet pf f).facet q = if q = pf then f else s.facet q := Tab.getD_put ..

@[simp] theorem State.facet_setFacet_same (s : State) (pf : Nat) (f : Facet) : (s.setFacet pf f).facet pf = f := by
  simp [State.facet_setFacet]

@[simp] theorem State.facet_setReg (s : State) (r : Reg) (x q : Nat) : (s.setReg r x).facet q = s.facet q := rfl
@[simp] theorem State.facet_wr (s : State) (r : Reg) (f : Fld) (v q : Nat) : (s.wr r f v).facet q = s.facet q := rfl
@[simp] theorem State.facet_bump (s : State) (r : Reg) (f : Fld) (v q : Nat) : (s.bump r f v).facet q = s.facet q := rfl
@[simp] theorem State.facet_raise (s : State) (e : Raise) (q : Nat) : (s.raise e).facet q = s.facet q := rfl

/-- A region's record reads as written, every other one as before. -/
theorem State.region_setRegion (s : State) (g q : Nat) (x : Region) :
    (s.setRegion g x).region q = if q = g then x else s.region q := Tab.getD_put ..

/-- An entry reads as written, every other one as before. -/
theorem State.entry_setEntry (s : State) (e q : Nat) (x : Entry) :
    (s.setEntry e x).entry q = if q = e then x else s.entry q := Tab.getD_put ..

/-- A channel reads as written, every other one as before. -/
theorem State.chan_setChan (s : State) (n q : Nat) (x : Chan) :
    (s.setChan n x).chan q = if q = n then x else s.chan q := Tab.getD_put ..

/-- A link port reads as written, every other one as before. -/
theorem State.lport_setLport (s : State) (n q : Nat) (x : LPort) :
    (s.setLport n x).lport q = if q = n then x else s.lport q := Tab.getD_put ..

/-- A physical array reads as written. -/
@[simp] theorem State.parr_setParr_same (s : State) (pf a : Nat) (x : PArr) : (s.setParr pf a x).parr pf a = x :=
  Tab.getD_put_same ..

/-- A logical array reads as written. -/
@[simp] theorem State.larr_setLarr_same (s : State) (pf n : Nat) (x : LArr) : (s.setLarr pf n x).larr pf n = x :=
  Tab.getD_put_same ..

/-- A register reads as written, its low 64 bits. -/
@[simp] theorem State.reg_setReg_same (s : State) (r : Reg) (x : Nat) : (s.setReg r x).reg r = x % 2 ^ 64 := by
  simp [State.reg, State.setReg, Tab.getD_put]

/-- A register of another address reads as before. -/
theorem State.reg_setReg_other (s : State) {r q : Reg} (x : Nat) (h : q.key ≠ r.key) :
    (s.setReg r x).reg q = s.reg q := by
  simp [State.reg, State.setReg, Tab.getD, Tab.put]
  have := Tab.getD_put_other s.regs (n := r.key) (m := q.key) (BitVec.ofNat 64 (r.resetVal s.variant))
    (BitVec.ofNat 64 x) h
  split
  · rw [Tab.find?_erase]; simp [h]
  · rw [Tab.find?_insert _ _ _ _ (by simp [Tab.find?_erase]), Tab.find?_erase]; simp [h]

theorem State.rd_wr_other_reg (s : State) {r q : Reg} (f g : Fld) (v : Nat) (h : q.key ≠ r.key) :
    (s.wr r f v).rd q g = s.rd q g := by
  simp [State.rd, State.wr, State.reg_setReg_other s _ h]

theorem setBits_lt (x hi lo v w : Nat) (hx : x < 2 ^ w) (h1 : lo ≤ hi) (h2 : hi < w) : setBits x hi lo v < 2 ^ w := by
  unfold setBits
  have a : x / 2 ^ (hi + 1) < 2 ^ (w - (hi + 1)) := by
    rw [Nat.div_lt_iff_lt_mul (Nat.two_pow_pos _), ← Nat.pow_add]
    rwa [Nat.sub_add_cancel (by omega)]
  have b : v % 2 ^ (hi + 1 - lo) < 2 ^ (hi + 1 - lo) := Nat.mod_lt _ (Nat.two_pow_pos _)
  have c : x % 2 ^ lo < 2 ^ lo := Nat.mod_lt _ (Nat.two_pow_pos _)
  have d : (v % 2 ^ (hi + 1 - lo) + 1) * 2 ^ lo ≤ 2 ^ (hi + 1 - lo) * 2 ^ lo := Nat.mul_le_mul_right _ b
  have e : (x / 2 ^ (hi + 1) + 1) * 2 ^ (hi + 1) ≤ 2 ^ (w - (hi + 1)) * 2 ^ (hi + 1) := Nat.mul_le_mul_right _ a
  rw [← Nat.pow_add, Nat.sub_add_cancel (by omega)] at d
  rw [← Nat.pow_add, Nat.sub_add_cancel (by omega)] at e
  rw [Nat.add_mul, Nat.one_mul] at d e
  omega

/-- The bits set are the bits read. -/
theorem bits_setBits (x hi lo v : Nat) (h : lo ≤ hi) : bits (setBits x hi lo v) hi lo = v % 2 ^ (hi + 1 - lo) := by
  unfold bits setBits
  have c : x % 2 ^ lo < 2 ^ lo := Nat.mod_lt _ (Nat.two_pow_pos _)
  have e : x / 2 ^ (hi + 1) * 2 ^ (hi + 1) = x / 2 ^ (hi + 1) * 2 ^ (hi + 1 - lo) * 2 ^ lo := by
    rw [Nat.mul_assoc, ← Nat.pow_add, Nat.sub_add_cancel (by omega)]
  rw [e, ← Nat.add_mul, Nat.add_comm, Nat.add_mul_div_right _ _ (Nat.two_pow_pos _), Nat.div_eq_of_lt c, Nat.zero_add,
    Nat.add_comm, Nat.add_mul_mod_self_right, Nat.mod_mod]

theorem State.reg_lt (s : State) (r : Reg) : s.reg r < 2 ^ 64 := BitVec.isLt _

/-- A field reads as written, its low bits. -/
theorem State.rd_wr_same (s : State) (r : Reg) (f : Fld) (v : Nat) (h1 : f.lo ≤ f.hi) (h2 : f.hi < 64) :
    (s.wr r f v).rd r f = v % 2 ^ (f.hi + 1 - f.lo) := by
  simp only [State.rd, State.wr, State.reg_setReg_same]
  rw [Nat.mod_eq_of_lt (setBits_lt _ _ _ _ _ (s.reg_lt r) h1 h2), bits_setBits _ _ _ _ h1]

/-- The bits beside those set read as before. -/
theorem bits_setBits_above (x hi lo v hi' lo' : Nat) (h : lo ≤ hi) (h' : hi < lo') :
    bits (setBits x hi lo v) hi' lo' = bits x hi' lo' := by
  unfold bits
  congr 1
  have a : setBits x hi lo v / 2 ^ (hi + 1) = x / 2 ^ (hi + 1) := by
    have b := setBits_lt (x % 2 ^ (hi + 1)) hi lo v (hi + 1) (Nat.mod_lt _ (Nat.two_pow_pos _)) h (by omega)
    have e : setBits x hi lo v = setBits (x % 2 ^ (hi + 1)) hi lo v + x / 2 ^ (hi + 1) * 2 ^ (hi + 1) := by
      unfold setBits
      rw [Nat.div_eq_of_lt (Nat.mod_lt _ (Nat.two_pow_pos _)),
        Nat.mod_mod_of_dvd _ (Nat.pow_dvd_pow 2 (by omega : lo ≤ hi + 1))]
      omega
    rw [e, Nat.add_mul_div_right _ _ (Nat.two_pow_pos _), Nat.div_eq_of_lt b, Nat.zero_add]
  obtain ⟨k, rfl⟩ : ∃ k, lo' = hi + 1 + k := ⟨lo' - (hi + 1), by omega⟩
  rw [Nat.pow_add, ← Nat.div_div_eq_div_mul, ← Nat.div_div_eq_div_mul, a]

theorem bits_setBits_below (x hi lo v hi' lo' : Nat) (h : hi' < lo) (hl : lo ≤ hi) (hl' : lo' ≤ hi') :
    bits (setBits x hi lo v) hi' lo' = bits x hi' lo' := by
  have key : ∀ y : Nat, bits y hi' lo' = bits (y % 2 ^ lo) hi' lo' := by
    intro y
    unfold bits
    obtain ⟨k, hk⟩ : ∃ k, lo = lo' + (hi' + 1 - lo') + k := ⟨lo - (hi' + 1), by omega⟩
    rw [hk, Nat.pow_add, Nat.pow_add, Nat.mul_assoc, Nat.mod_mul_right_div_self,
      Nat.mod_mul_right_mod]
  rw [key, key x]
  congr 1
  unfold setBits
  have e : x / 2 ^ (hi + 1) * 2 ^ (hi + 1) = x / 2 ^ (hi + 1) * 2 ^ (hi + 1 - lo) * 2 ^ lo := by
    rw [Nat.mul_assoc, ← Nat.pow_add, Nat.sub_add_cancel (by omega)]
  rw [e, ← Nat.add_mul, Nat.add_comm, Nat.add_mul_mod_self_right, Nat.mod_mod]

/-- Another field of the register, beside the one written, reads as before. -/
theorem State.rd_wr_other (s : State) (r : Reg) (f g : Fld) (v : Nat) (h1 : f.lo ≤ f.hi) (h2 : f.hi < 64)
    (h3 : g.lo ≤ g.hi) (h : f.hi < g.lo ∨ g.hi < f.lo) : (s.wr r f v).rd r g = s.rd r g := by
  simp only [State.rd, State.wr, State.reg_setReg_same]
  rw [Nat.mod_eq_of_lt (setBits_lt _ _ _ _ _ (s.reg_lt r) h1 h2)]
  rcases h with h | h
  · exact bits_setBits_above _ _ _ _ _ _ h1 h
  · exact bits_setBits_below _ _ _ _ _ _ h h1 h3

end Sys2Proof.Machine
end

