-- ==== Sys2Proof/Laws/KeepsBase.lean ====
section
/-! SUPPORT. What every operation keeps (State.Keeps) and which parts it may change (State.SameBut): one lemma per operation on
State. -/

namespace Sys2Proof.Machine

theorem State.Keeps.refl (s : State) : s.Keeps s := ⟨rfl, rfl, rfl, Nat.le_refl _, id, id, id, id⟩

theorem State.Keeps.trans {s t u : State} (h : s.Keeps t) (k : t.Keeps u) : s.Keeps u :=
  ⟨k.1.trans h.1, k.2.1.trans h.2.1, k.2.2.1.trans h.2.2.1, Nat.le_trans h.2.2.2.1 k.2.2.2.1,
    fun w => k.2.2.2.2.1 (h.2.2.2.2.1 w), fun w => k.2.2.2.2.2.1 (h.2.2.2.2.2.1 w),
    fun w => k.2.2.2.2.2.2.1 (h.2.2.2.2.2.2.1 w), fun w => k.2.2.2.2.2.2.2 (h.2.2.2.2.2.2.2 w)⟩

theorem State.SameBut.refl (w : List Part) (s : State) : s.SameBut w s := by
  apply State.SameBut.mk <;> exact fun _ => rfl

theorem State.SameBut.trans {w : List Part} {s t u : State} (h : s.SameBut w t) (k : t.SameBut w u) : s.SameBut w u := by
  cases h; cases k
  apply State.SameBut.mk <;> (intro n; simp_all only [not_false_eq_true, forall_const])

/-- Where an operation starts from, and the parts that may change on the way. -/
structure Base where
  st : State
  w : List Part

/-- A part that may change. -/
class Base.Has (x : Base) (p : Part) : Prop where
  mem : p ∈ x.w

/-- What has been kept so far. -/
def Base.Keeps (x : Base) (s : State) : Prop := x.st.Keeps s ∧ x.st.SameBut x.w s

theorem Base.Keeps.trans {x : Base} {s t : State} (h : x.Keeps s) (k : s.Keeps t) (b : s.SameBut x.w t) : x.Keeps t :=
  ⟨h.1.trans k, h.2.trans b⟩

/-- A part that may change is no part that must not. -/
theorem Base.Has.no {x : Base} {p : Part} [h : x.Has p] {q : Prop} (n : p ∉ x.w) : q := absurd h.mem n

/-- Parts that may change change at will. -/
theorem keeps_mk {x : Base} {s : State} {v_arrs v_larrs v_outJobs v_fbPlaces v_staged v_regions v_calStore v_loader v_faults v_vault v_boot v_sec v_link v_plant v_power v_tap v_noc v_serve v_kv v_ctl v_raises v_out}
    (b : s.SameBut x.w ⟨s.variant, s.regs, s.time, s.hbm, s.facets, v_arrs, v_larrs, v_outJobs, v_fbPlaces, v_staged, v_regions, v_calStore, v_loader, v_faults, v_vault, v_boot, v_sec, v_link, v_plant, v_power, v_tap, v_noc, v_serve, v_kv, s.hub, v_ctl, v_raises, s.free, v_out, s.pending⟩) :
    x.Keeps ⟨s.variant, s.regs, s.time, s.hbm, s.facets, v_arrs, v_larrs, v_outJobs, v_fbPlaces, v_staged, v_regions, v_calStore, v_loader, v_faults, v_vault, v_boot, v_sec, v_link, v_plant, v_power, v_tap, v_noc, v_serve, v_kv, s.hub, v_ctl, v_raises, s.free, v_out, s.pending⟩ ↔ x.Keeps s := by
  refine ⟨fun h => ⟨h.1, h.2.trans ?_⟩, fun h => ⟨h.1, h.2.trans b⟩⟩
  cases b
  apply State.SameBut.mk <;> (intro n; simp_all only [not_false_eq_true, forall_const])

/-- What a command answers keeps what it keeps, if it is a next state. -/
def KeepsRes (x : Base) (r : Res) : Prop := ∀ t, r = .next t → x.Keeps t

/-- The frame of a command from what its meaning keeps: start with `x := ⟨s, w⟩`, `State.Keeps.refl` and `State.SameBut.refl`. -/
theorem KeepsRes.frame {w : List Part} {s t : State} {r : Res} (k : (⟨s, w⟩ : Base).Keeps s → KeepsRes ⟨s, w⟩ r) (e : r = .next t) :
    s.Keeps t ∧ s.SameBut w t :=
  k ⟨State.Keeps.refl s, State.SameBut.refl w s⟩ t e

/-- A listed part may change. -/
theorem Base.has {s : State} {w : List Part} {p : Part} (h : p ∈ w) : (⟨s, w⟩ : Base).Has p := ⟨h⟩

theorem keepsRes_next {x : Base} {t : State} (h : x.Keeps t) : KeepsRes x (.next t) := by
  intro u e; cases e; exact h

theorem keepsRes_fault (x : Base) (f : Fault) : KeepsRes x (.fault f) := by
  intro u e; cases e

theorem keepsRes_refused (x : Base) (f : Refusal) : KeepsRes x (.refused f) := by
  intro u e; cases e

theorem keepsRes_ite {x : Base} {a b : Res} {c : Prop} [Decidable c] (ha : KeepsRes x a) (hb : KeepsRes x b) :
    KeepsRes x (if c then a else b) := by
  split <;> assumption

section
variable {x : Base} {s : State} (h : x.Keeps s)
include h

theorem keeps_mk_free {z : Nat} {v_arrs v_larrs v_outJobs v_fbPlaces v_staged v_regions v_calStore v_loader v_faults v_vault v_boot v_sec v_link v_plant v_power v_tap v_noc v_serve v_kv v_ctl v_raises v_out}
    (b : s.SameBut x.w ⟨s.variant, s.regs, s.time, s.hbm, s.facets, v_arrs, v_larrs, v_outJobs, v_fbPlaces, v_staged, v_regions, v_calStore, v_loader, v_faults, v_vault, v_boot, v_sec, v_link, v_plant, v_power, v_tap, v_noc, v_serve, v_kv, s.hub, v_ctl, v_raises, s.free + z, v_out, s.pending⟩) :
    x.Keeps ⟨s.variant, s.regs, s.time, s.hbm, s.facets, v_arrs, v_larrs, v_outJobs, v_fbPlaces, v_staged, v_regions, v_calStore, v_loader, v_faults, v_vault, v_boot, v_sec, v_link, v_plant, v_power, v_tap, v_noc, v_serve, v_kv, s.hub, v_ctl, v_raises, s.free + z, v_out, s.pending⟩ :=
  h.trans ⟨rfl, rfl, rfl, Nat.le_add_right _ _, id, id, id, id⟩ b

theorem keeps_mk_freeLe {z : Nat} (hz : s.free ≤ z) {v_arrs v_larrs v_outJobs v_fbPlaces v_staged v_regions v_calStore v_loader v_faults v_vault v_boot v_sec v_link v_plant v_power v_tap v_noc v_serve v_kv v_ctl v_raises v_out}
    (b : s.SameBut x.w ⟨s.variant, s.regs, s.time, s.hbm, s.facets, v_arrs, v_larrs, v_outJobs, v_fbPlaces, v_staged, v_regions, v_calStore, v_loader, v_faults, v_vault, v_boot, v_sec, v_link, v_plant, v_power, v_tap, v_noc, v_serve, v_kv, s.hub, v_ctl, v_raises, z, v_out, s.pending⟩) :
    x.Keeps ⟨s.variant, s.regs, s.time, s.hbm, s.facets, v_arrs, v_larrs, v_outJobs, v_fbPlaces, v_staged, v_regions, v_calStore, v_loader, v_faults, v_vault, v_boot, v_sec, v_link, v_plant, v_power, v_tap, v_noc, v_serve, v_kv, s.hub, v_ctl, v_raises, z, v_out, s.pending⟩ :=
  h.trans ⟨rfl, rfl, rfl, hz, id, id, id, id⟩ b

theorem keeps_mk_hbm {z : Mem} (hz : s.hbm.wf = true → z.wf = true) {v_arrs v_larrs v_outJobs v_fbPlaces v_staged v_regions v_calStore v_loader v_faults v_vault v_boot v_sec v_link v_plant v_power v_tap v_noc v_serve v_kv v_ctl v_raises v_out}
    (b : s.SameBut x.w ⟨s.variant, s.regs, s.time, z, s.facets, v_arrs, v_larrs, v_outJobs, v_fbPlaces, v_staged, v_regions, v_calStore, v_loader, v_faults, v_vault, v_boot, v_sec, v_link, v_plant, v_power, v_tap, v_noc, v_serve, v_kv, s.hub, v_ctl, v_raises, s.free, v_out, s.pending⟩) :
    x.Keeps ⟨s.variant, s.regs, s.time, z, s.facets, v_arrs, v_larrs, v_outJobs, v_fbPlaces, v_staged, v_regions, v_calStore, v_loader, v_faults, v_vault, v_boot, v_sec, v_link, v_plant, v_power, v_tap, v_noc, v_serve, v_kv, s.hub, v_ctl, v_raises, s.free, v_out, s.pending⟩ :=
  h.trans ⟨rfl, rfl, rfl, Nat.le_refl _, hz, id, id, id⟩ b

theorem keeps_mk_hub {z : Mem} (hz : s.hub.wf = true → z.wf = true) {v_arrs v_larrs v_outJobs v_fbPlaces v_staged v_regions v_calStore v_loader v_faults v_vault v_boot v_sec v_link v_plant v_power v_tap v_noc v_serve v_kv v_ctl v_raises v_out}
    (b : s.SameBut x.w ⟨s.variant, s.regs, s.time, s.hbm, s.facets, v_arrs, v_larrs, v_outJobs, v_fbPlaces, v_staged, v_regions, v_calStore, v_loader, v_faults, v_vault, v_boot, v_sec, v_link, v_plant, v_power, v_tap, v_noc, v_serve, v_kv, z, v_ctl, v_raises, s.free, v_out, s.pending⟩) :
    x.Keeps ⟨s.variant, s.regs, s.time, s.hbm, s.facets, v_arrs, v_larrs, v_outJobs, v_fbPlaces, v_staged, v_regions, v_calStore, v_loader, v_faults, v_vault, v_boot, v_sec, v_link, v_plant, v_power, v_tap, v_noc, v_serve, v_kv, z, v_ctl, v_raises, s.free, v_out, s.pending⟩ :=
  h.trans ⟨rfl, rfl, rfl, Nat.le_refl _, id, hz, id, id⟩ b

theorem keeps_mk_hbm_setPoison {z : Nat} {z' : Bool} {v_arrs v_larrs v_outJobs v_fbPlaces v_staged v_regions v_calStore v_loader v_faults v_vault v_boot v_sec v_link v_plant v_power v_tap v_noc v_serve v_kv v_ctl v_raises v_out}
    (b : s.SameBut x.w ⟨s.variant, s.regs, s.time, (s.hbm.setPoison z z'), s.facets, v_arrs, v_larrs, v_outJobs, v_fbPlaces, v_staged, v_regions, v_calStore, v_loader, v_faults, v_vault, v_boot, v_sec, v_link, v_plant, v_power, v_tap, v_noc, v_serve, v_kv, s.hub, v_ctl, v_raises, s.free, v_out, s.pending⟩) :
    x.Keeps ⟨s.variant, s.regs, s.time, (s.hbm.setPoison z z'), s.facets, v_arrs, v_larrs, v_outJobs, v_fbPlaces, v_staged, v_regions, v_calStore, v_loader, v_faults, v_vault, v_boot, v_sec, v_link, v_plant, v_power, v_tap, v_noc, v_serve, v_kv, s.hub, v_ctl, v_raises, s.free, v_out, s.pending⟩ :=
  h.trans ⟨rfl, rfl, rfl, Nat.le_refl _, Mem.wf_setPoison _ _ _, id, id, id⟩ b

theorem keeps_mk_hub_setPoison {z : Nat} {z' : Bool} {v_arrs v_larrs v_outJobs v_fbPlaces v_staged v_regions v_calStore v_loader v_faults v_vault v_boot v_sec v_link v_plant v_power v_tap v_noc v_serve v_kv v_ctl v_raises v_out}
    (b : s.SameBut x.w ⟨s.variant, s.regs, s.time, s.hbm, s.facets, v_arrs, v_larrs, v_outJobs, v_fbPlaces, v_staged, v_regions, v_calStore, v_loader, v_faults, v_vault, v_boot, v_sec, v_link, v_plant, v_power, v_tap, v_noc, v_serve, v_kv, (s.hub.setPoison z z'), v_ctl, v_raises, s.free, v_out, s.pending⟩) :
    x.Keeps ⟨s.variant, s.regs, s.time, s.hbm, s.facets, v_arrs, v_larrs, v_outJobs, v_fbPlaces, v_staged, v_regions, v_calStore, v_loader, v_faults, v_vault, v_boot, v_sec, v_link, v_plant, v_power, v_tap, v_noc, v_serve, v_kv, (s.hub.setPoison z z'), v_ctl, v_raises, s.free, v_out, s.pending⟩ :=
  h.trans ⟨rfl, rfl, rfl, Nat.le_refl _, id, Mem.wf_setPoison _ _ _, id, id⟩ b

theorem keeps_mk_hub_write {z : Nat} {z' : List Byte} {v_arrs v_larrs v_outJobs v_fbPlaces v_staged v_regions v_calStore v_loader v_faults v_vault v_boot v_sec v_link v_plant v_power v_tap v_noc v_serve v_kv v_ctl v_raises v_out}
    (b : s.SameBut x.w ⟨s.variant, s.regs, s.time, s.hbm, s.facets, v_arrs, v_larrs, v_outJobs, v_fbPlaces, v_staged, v_regions, v_calStore, v_loader, v_faults, v_vault, v_boot, v_sec, v_link, v_plant, v_power, v_tap, v_noc, v_serve, v_kv, (s.hub.write z z'), v_ctl, v_raises, s.free, v_out, s.pending⟩) :
    x.Keeps ⟨s.variant, s.regs, s.time, s.hbm, s.facets, v_arrs, v_larrs, v_outJobs, v_fbPlaces, v_staged, v_regions, v_calStore, v_loader, v_faults, v_vault, v_boot, v_sec, v_link, v_plant, v_power, v_tap, v_noc, v_serve, v_kv, (s.hub.write z z'), v_ctl, v_raises, s.free, v_out, s.pending⟩ :=
  h.trans ⟨rfl, rfl, rfl, Nat.le_refl _, id, Mem.wf_write _ _ _, id, id⟩ b

theorem keeps_mk_hub_write2 {z y' : Nat} {z' x' : List Byte} {v_arrs v_larrs v_outJobs v_fbPlaces v_staged v_regions v_calStore v_loader v_faults v_vault v_boot v_sec v_link v_plant v_power v_tap v_noc v_serve v_kv v_ctl v_raises v_out}
    (b : s.SameBut x.w ⟨s.variant, s.regs, s.time, s.hbm, s.facets, v_arrs, v_larrs, v_outJobs, v_fbPlaces, v_staged, v_regions, v_calStore, v_loader, v_faults, v_vault, v_boot, v_sec, v_link, v_plant, v_power, v_tap, v_noc, v_serve, v_kv, ((s.hub.write z z').write y' x'), v_ctl, v_raises, s.free, v_out, s.pending⟩) :
    x.Keeps ⟨s.variant, s.regs, s.time, s.hbm, s.facets, v_arrs, v_larrs, v_outJobs, v_fbPlaces, v_staged, v_regions, v_calStore, v_loader, v_faults, v_vault, v_boot, v_sec, v_link, v_plant, v_power, v_tap, v_noc, v_serve, v_kv, ((s.hub.write z z').write y' x'), v_ctl, v_raises, s.free, v_out, s.pending⟩ :=
  h.trans ⟨rfl, rfl, rfl, Nat.le_refl _, id, fun k => Mem.wf_write _ _ _ (Mem.wf_write _ _ _ k), id, id⟩ b

theorem keeps_mk_hub_writeByte {z y' : Nat} {z' : List Byte} {x' : Byte} {v_arrs v_larrs v_outJobs v_fbPlaces v_staged v_regions v_calStore v_loader v_faults v_vault v_boot v_sec v_link v_plant v_power v_tap v_noc v_serve v_kv v_ctl v_raises v_out}
    (b : s.SameBut x.w ⟨s.variant, s.regs, s.time, s.hbm, s.facets, v_arrs, v_larrs, v_outJobs, v_fbPlaces, v_staged, v_regions, v_calStore, v_loader, v_faults, v_vault, v_boot, v_sec, v_link, v_plant, v_power, v_tap, v_noc, v_serve, v_kv, ((s.hub.write z z').setByte y' x'), v_ctl, v_raises, s.free, v_out, s.pending⟩) :
    x.Keeps ⟨s.variant, s.regs, s.time, s.hbm, s.facets, v_arrs, v_larrs, v_outJobs, v_fbPlaces, v_staged, v_regions, v_calStore, v_loader, v_faults, v_vault, v_boot, v_sec, v_link, v_plant, v_power, v_tap, v_noc, v_serve, v_kv, ((s.hub.write z z').setByte y' x'), v_ctl, v_raises, s.free, v_out, s.pending⟩ :=
  h.trans ⟨rfl, rfl, rfl, Nat.le_refl _, id, fun k => Mem.wf_setByte _ _ _ (Mem.wf_write _ _ _ k), id, id⟩ b

theorem keeps_foldl {α : Type} (l : List α) (g : State → α → State)
    (hg : ∀ s, x.Keeps s → ∀ a, x.Keeps (g s a)) : x.Keeps (l.foldl g s) := by
  induction l generalizing s with
  | nil => exact h
  | cons a l ih => exact ih (hg s h a)

theorem keeps_setReg [x.Has .regs] (r : Reg) (v : Nat) : x.Keeps (s.setReg r v) :=
  h.trans ⟨rfl, rfl, rfl, Nat.le_refl _, id, id, fun w => Tab.sorted_put _ _ _ _ w, id⟩ (by apply State.SameBut.mk <;> first | exact fun n => Base.Has.no n | exact fun _ => rfl)

theorem keeps_setFacet [x.Has .facets] (pf : Nat) (f : Facet) : x.Keeps (s.setFacet pf f) :=
  h.trans ⟨rfl, rfl, rfl, Nat.le_refl _, id, id, id, fun w => Tab.sorted_put _ _ _ _ w⟩ (by apply State.SameBut.mk <;> first | exact fun n => Base.Has.no n | exact fun _ => rfl)

end

theorem keeps_foldl_fst {α β : Type} {x : Base} (l : List α) (g : State × β → α → State × β) (p : State × β) (h : x.Keeps p.1)
    (hg : ∀ p : State × β, x.Keeps p.1 → ∀ a, x.Keeps (g p a).1) : x.Keeps (l.foldl g p).1 := by
  induction l generalizing p with
  | nil => exact h
  | cons a l ih => exact ih _ (hg p h a)

theorem keeps_ite {x : Base} {a b : State} {c : Prop} [Decidable c] (ha : x.Keeps a) (hb : x.Keeps b) : x.Keeps (if c then a else b) := by
  split <;> assumption

theorem keeps_ite_fst {α : Type} {x : Base} {a b : State × α} {c : Prop} [Decidable c] (ha : x.Keeps a.1) (hb : x.Keeps b.1) :
    x.Keeps (if c then a else b).1 := by
  split <;> assumption

/-- A state that may be answered keeps what it keeps. -/
def KeepsOpt (x : Base) (o : Option State) : Prop := ∀ t, o = some t → x.Keeps t

theorem keepsOpt_some {x : Base} {t : State} (h : x.Keeps t) : KeepsOpt x (some t) := by
  intro u e; cases e; exact h

theorem keepsOpt_none (x : Base) : KeepsOpt x none := by
  intro u e; cases e

theorem keepsOpt_ite {x : Base} {a b : Option State} {c : Prop} [Decidable c] (ha : KeepsOpt x a) (hb : KeepsOpt x b) :
    KeepsOpt x (if c then a else b) := by
  split <;> assumption

end Sys2Proof.Machine
end

