-- ==== Sys2Proof/Laws/KeepsArrays.lean ====
section
/-! SUPPORT. What the operations of Ops FaultOps ArrayOps Prism LinkOps Bundle Vector ArraySlot Arrays SidePath keep (State.Keeps). -/

set_option linter.unusedSimpArgs false

namespace Sys2Proof.Machine

theorem keeps_wr {x0 : Base} [x0.Has .regs] (s : State) (r : Reg) (f : Fld) (v : Nat) (hk : x0.Keeps s) :
    x0.Keeps (State.wr s r f v) := by
  unfold State.wr
  with_reducible repeat' (first | exact hk | assumption | apply keeps_setReg | apply keeps_setReg)

theorem keeps_bump {x0 : Base} [x0.Has .regs] (s : State) (r : Reg) (f : Fld) (n : Nat) (hk : x0.Keeps s) :
    x0.Keeps (State.bump s r f n) := by
  unfold State.bump
  with_reducible repeat' (first | exact hk | assumption | apply keeps_wr)

theorem keeps_raise {x0 : Base} [x0.Has .raises] (s : State) (r : Raise) (hk : x0.Keeps s) :
    x0.Keeps (State.raise s r) := by
  unfold State.raise
  with_reducible repeat' (first
    | exact hk | assumption
    | simp (disch := (apply State.SameBut.mk <;> first | exact Base.Has.no | exact fun _ => rfl)) only [keeps_mk]
    | (apply State.SameBut.mk <;> first | exact Base.Has.no | exact fun _ => rfl))

theorem keeps_emit {x0 : Base} [x0.Has .out] (s : State) (o : Out) (hk : x0.Keeps s) :
    x0.Keeps (State.emit s o) := by
  unfold State.emit
  with_reducible repeat' (first
    | exact hk | assumption
    | simp (disch := (apply State.SameBut.mk <;> first | exact Base.Has.no | exact fun _ => rfl)) only [keeps_mk]
    | (apply State.SameBut.mk <;> first | exact Base.Has.no | exact fun _ => rfl))

theorem keeps_asyncCore {x0 : Base} [x0.Has .facets] (s : State) (pf : Nat) (g : FCore → FCore) (hk : x0.Keeps s) :
    x0.Keeps (State.asyncCore s pf g) := by
  unfold State.asyncCore
  with_reducible repeat' (first
    | exact hk | assumption | apply keeps_setFacet | apply keeps_setFacet | (intro _)
    | simp (disch := (apply State.SameBut.mk <;> first | exact Base.Has.no | exact fun _ => rfl)) only [keeps_mk]
    | (apply State.SameBut.mk <;> first | exact Base.Has.no | exact fun _ => rfl))

theorem Mem.wf_storeSectors (m : Mem) (sz a : Nat) (bs : List Byte) (poison : Bool) (h : m.wf = true) :
    (m.storeSectors sz a bs poison).wf = true := by
  unfold Mem.storeSectors
  have hw := Mem.wf_write bs m a h
  generalize m.write a bs = w at hw
  dsimp only
  generalize List.range _ = l
  induction l generalizing w with
  | nil => exact hw
  | cons i l ih =>
    refine ih _ ?_
    dsimp only
    split
    · exact Mem.wf_setPoison _ _ _ hw
    · split
      · exact Mem.wf_setPoison _ _ _ hw
      · exact hw

theorem keeps_hbmWrite {x0 : Base} [x0.Has .hbm] (s : State) (a : Nat) (bs : List Byte) (poison : Bool) (hk : x0.Keeps s) :
    x0.Keeps (s.hbmWrite a bs poison) :=
  hk.trans ⟨rfl, rfl, rfl, Nat.le_refl _, fun w => Mem.wf_storeSectors _ _ _ _ _ w, id, id, id⟩
    (by apply State.SameBut.mk <;> first | exact Base.Has.no | exact fun _ => rfl)
theorem keeps_cper {x0 : Base} [x0.Has .regs] [x0.Has .hbm] [x0.Has .faults] [x0.Has .raises] (s : State) (r : Report) (hk : x0.Keeps s) :
    x0.Keeps (State.cper s r) := by
  unfold State.cper
  with_reducible repeat' (first
    | exact hk | assumption | apply keeps_wr | apply keeps_hbmWrite | apply keeps_raise | apply keeps_bump
    | apply keeps_ite | split | (intro _)
    | simp (disch := (apply State.SameBut.mk <;> first | exact Base.Has.no | exact fun _ => rfl)) only [keeps_mk]
    | (apply State.SameBut.mk <;> first | exact Base.Has.no | exact fun _ => rfl))

theorem keeps_rerun {x0 : Base} [x0.Has .regs] (s : State) (hk : x0.Keeps s) :
    x0.Keeps (State.rerun s) := by
  unfold State.rerun
  with_reducible repeat' (first
    | exact hk | assumption | apply keeps_wr | apply keeps_foldl_fst | apply keeps_foldl | apply keeps_ite | split
    | (intro _))

theorem keeps_appendMap {x0 : Base} [x0.Has .regs] [x0.Has .faults] (s : State) (desc : Nat) (hk : x0.Keeps s) :
    x0.Keeps (State.appendMap s desc) := by
  unfold State.appendMap
  with_reducible repeat' (first
    | exact hk | assumption | apply keeps_wr | apply keeps_rerun | apply keeps_ite | split
    | simp (disch := (apply State.SameBut.mk <;> first | exact Base.Has.no | exact fun _ => rfl)) only [keeps_mk]
    | (apply State.SameBut.mk <;> first | exact Base.Has.no | exact fun _ => rfl))

theorem keeps_fenceReport {x0 : Base} [x0.Has .regs] [x0.Has .hbm] [x0.Has .faults] [x0.Has .raises] (s : State) (desc cls cause lf : Nat) (payload : List Byte) (hk : x0.Keeps s) :
    x0.Keeps (State.fenceReport s desc cls cause lf payload) := by
  unfold State.fenceReport
  with_reducible repeat' (first
    | exact hk | assumption | apply keeps_raise | apply keeps_cper | apply keeps_bump | (intro _)
    | simp (disch := (apply State.SameBut.mk <;> first | exact Base.Has.no | exact fun _ => rfl)) only [keeps_mk]
    | (apply State.SameBut.mk <;> first | exact Base.Has.no | exact fun _ => rfl))

theorem keeps_recordFence {x0 : Base} [x0.Has .regs] [x0.Has .hbm] [x0.Has .faults] [x0.Has .raises] (s : State) (desc cls cause : Nat) (payload : List Byte := []) (hk : x0.Keeps s) :
    x0.Keeps (State.recordFence s desc cls cause payload) := by
  unfold State.recordFence
  with_reducible repeat' (first | exact hk | assumption | apply keeps_appendMap | apply keeps_fenceReport)

theorem keeps_raiseRec {x0 : Base} [x0.Has .regs] [x0.Has .hbm] [x0.Has .faults] [x0.Has .raises] (s : State) (r : Raise) (hk : x0.Keeps s) :
    x0.Keeps (State.raiseRec s r) := by
  unfold State.raiseRec
  with_reducible repeat' (first
    | exact hk | assumption | apply keeps_raise | apply keeps_cper | apply keeps_ite | split | (intro _)
    | simp (disch := (apply State.SameBut.mk <;> first | exact Base.Has.no | exact fun _ => rfl)) only [keeps_mk])

theorem keeps_poisonSeen {x0 : Base} [x0.Has .raises] (s : State) (kind num addr : Nat) (hk : x0.Keeps s) :
    x0.Keeps (State.poisonSeen s kind num addr) := by
  unfold State.poisonSeen
  with_reducible repeat' (first | exact hk | assumption | apply keeps_raise)

theorem keeps_injDone {x0 : Base} [x0.Has .regs] [x0.Has .raises] (s : State) (hk : x0.Keeps s) :
    x0.Keeps (State.injDone s) := by
  unfold State.injDone
  with_reducible repeat' (first
    | exact hk | assumption | apply keeps_wr | apply keeps_raise | (intro _)
    | simp (disch := (apply State.SameBut.mk <;> first | exact Base.Has.no | exact fun _ => rfl)) only [keeps_mk])

theorem keeps_setRegion {x0 : Base} [x0.Has .regions] (s : State) (g : Nat) (x : Region) (hk : x0.Keeps s) :
    x0.Keeps (State.setRegion s g x) := by
  unfold State.setRegion
  with_reducible repeat' (first
    | exact hk | assumption
    | simp (disch := (apply State.SameBut.mk <;> first | exact Base.Has.no | exact fun _ => rfl)) only [keeps_mk]
    | (apply State.SameBut.mk <;> first | exact Base.Has.no | exact fun _ => rfl))

theorem keeps_loupeSend {x0 : Base} [x0.Has .regs] [x0.Has .out] (s : State) (kind : Nat) (body : List Byte) (hk : x0.Keeps s) :
    x0.Keeps (State.loupeSend s kind body) := by
  unfold State.loupeSend
  with_reducible repeat' (first
    | exact hk | assumption | apply keeps_emit | apply keeps_bump | apply keeps_ite | split | (intro _)
    | simp (disch := (apply State.SameBut.mk <;> first | exact Base.Has.no | exact fun _ => rfl)) only [keeps_mk])

theorem keeps_setParr {x0 : Base} [x0.Has .arrs] (s : State) (pf a : Nat) (x : PArr) (hk : x0.Keeps s) :
    x0.Keeps (State.setParr s pf a x) := by
  unfold State.setParr
  with_reducible repeat' (first
    | exact hk | assumption
    | simp (disch := (apply State.SameBut.mk <;> first | exact Base.Has.no | exact fun _ => rfl)) only [keeps_mk]
    | (apply State.SameBut.mk <;> first | exact Base.Has.no | exact fun _ => rfl))

theorem keeps_setLarr {x0 : Base} [x0.Has .larrs] (s : State) (pf n : Nat) (x : LArr) (hk : x0.Keeps s) :
    x0.Keeps (State.setLarr s pf n x) := by
  unfold State.setLarr
  with_reducible repeat' (first
    | exact hk | assumption
    | simp (disch := (apply State.SameBut.mk <;> first | exact Base.Has.no | exact fun _ => rfl)) only [keeps_mk]
    | (apply State.SameBut.mk <;> first | exact Base.Has.no | exact fun _ => rfl))

theorem keeps_setArrState {x0 : Base} [x0.Has .regs] (s : State) (pf a st : Nat) (hk : x0.Keeps s) :
    x0.Keeps (State.setArrState s pf a st) := by
  unfold State.setArrState
  with_reducible repeat' (first | exact hk | assumption | apply keeps_wr)

theorem keeps_countFree {x0 : Base} [x0.Has .regs] (s : State) (pf a : Nat) (hk : x0.Keeps s) :
    x0.Keeps (State.countFree s pf a) := by
  unfold State.countFree
  with_reducible repeat' (first | exact hk | assumption | apply keeps_wr)

theorem keeps_setConv {x0 : Base} [x0.Has .regs] (s : State) (pf a n role serves : Nat) (hk : x0.Keeps s) :
    x0.Keeps (State.setConv s pf a n role serves) := by
  unfold State.setConv
  with_reducible repeat' (first | exact hk | assumption | apply keeps_wr)

theorem keeps_requestTakeover {x0 : Base} [x0.Has .regs] [x0.Has .raises] (s : State) (pf a : Nat) (hk : x0.Keeps s) :
    x0.Keeps (State.requestTakeover s pf a) := by
  unfold State.requestTakeover
  with_reducible repeat' (first
    | exact hk | assumption | apply keeps_wr | apply keeps_raise | apply keeps_ite | split | (intro _)
    | simp (disch := (apply State.SameBut.mk <;> first | exact Base.Has.no | exact fun _ => rfl)) only [keeps_mk])

theorem keeps_dropMapWrite {x0 : Base} [x0.Has .regs] [x0.Has .arrs] (s : State) (pf a pos : Nat) (hk : x0.Keeps s) :
    x0.Keeps (State.dropMapWrite s pf a pos) := by
  unfold State.dropMapWrite
  with_reducible repeat' (first
    | exact hk | assumption | apply keeps_wr | apply keeps_setParr | (intro _)
    | simp (disch := (apply State.SameBut.mk <;> first | exact Base.Has.no | exact fun _ => rfl)) only [keeps_mk]
    | (apply State.SameBut.mk <;> first | exact Base.Has.no | exact fun _ => rfl))

theorem keeps_setTrims {x0 : Base} [x0.Has .regs] (s : State) (pf a n lo hi : Nat) (t : Int) (hk : x0.Keeps s) :
    x0.Keeps (State.setTrims s pf a n lo hi t) := by
  unfold State.setTrims
  with_reducible repeat' (first
    | exact hk | assumption | apply keeps_wr | (intro _)
    | simp (disch := (apply State.SameBut.mk <;> first | exact Base.Has.no | exact fun _ => rfl)) only [keeps_mk])

theorem keeps_ownTrims {x0 : Base} [x0.Has .regs] (s : State) (pf a n : Nat) (t : Int) (hk : x0.Keeps s) :
    x0.Keeps (State.ownTrims s pf a n t) := by
  unfold State.ownTrims
  with_reducible repeat' (first | exact hk | assumption | apply keeps_setTrims)

theorem keeps_endShadow {x0 : Base} [x0.Has .regs] [x0.Has .arrs] (s : State) (pf a : Nat) (w : Shadow) (hk : x0.Keeps s) :
    x0.Keeps (State.endShadow s pf a w) := by
  unfold State.endShadow
  with_reducible repeat' (first
    | exact hk | assumption | apply keeps_wr | apply keeps_setConv | apply keeps_setParr | apply keeps_ite | split
    | (intro _)
    | simp (disch := (apply State.SameBut.mk <;> first | exact Base.Has.no | exact fun _ => rfl)) only [keeps_mk]
    | (apply State.SameBut.mk <;> first | exact Base.Has.no | exact fun _ => rfl))

theorem keeps_calResult {x0 : Base} [x0.Has .regs] [x0.Has .arrs] (s : State) (pf a n last : Nat) (hk : x0.Keeps s) :
    x0.Keeps (State.calResult s pf a n last) := by
  unfold State.calResult
  with_reducible repeat' (first
    | exact hk | assumption | apply keeps_wr | apply keeps_setParr | (intro _)
    | simp (disch := (apply State.SameBut.mk <;> first | exact Base.Has.no | exact fun _ => rfl)) only [keeps_mk]
    | (apply State.SameBut.mk <;> first | exact Base.Has.no | exact fun _ => rfl))

theorem keeps_dropShadow {x0 : Base} [x0.Has .regs] [x0.Has .arrs] (s : State) (pf a : Nat) (w : Shadow) (hk : x0.Keeps s) :
    x0.Keeps (State.dropShadow s pf a w) := by
  unfold State.dropShadow
  with_reducible repeat' (first
    | exact hk | assumption | apply keeps_ownTrims | apply keeps_endShadow | apply keeps_calResult)

theorem keeps_dropShadows {x0 : Base} [x0.Has .regs] [x0.Has .arrs] (s : State) (pf a : Nat) (hk : x0.Keeps s) :
    x0.Keeps (State.dropShadows s pf a) := by
  unfold State.dropShadows
  with_reducible repeat' (first
    | exact hk | assumption | apply keeps_dropShadow | apply keeps_calResult | apply keeps_setParr | apply keeps_foldl_fst
    | apply keeps_foldl | apply keeps_ite | split | (intro _)
    | simp (disch := (apply State.SameBut.mk <;> first | exact Base.Has.no | exact fun _ => rfl)) only [keeps_mk]
    | (apply State.SameBut.mk <;> first | exact Base.Has.no | exact fun _ => rfl))

theorem keeps_fenceConv {x0 : Base} [x0.Has .regs] [x0.Has .hbm] [x0.Has .arrs] [x0.Has .faults] [x0.Has .raises] (s : State) (pf a n cause : Nat) (hk : x0.Keeps s) : x0.Keeps (s.fenceConv pf a n cause) := by
  delta State.fenceConv
  refine keeps_ite hk ?_
  extract_lets +onlyGivenNames s1 pos s2 s3 s4 s5 s6
  have h1 : x0.Keeps s1 := keeps_foldl hk _ _ (fun t ht w => keeps_dropShadow _ _ _ _ ht)
  have h6 : x0.Keeps s6 := keeps_recordFence _ _ _ _ _ (keeps_raise _ _ (keeps_bump _ _ _ _ (keeps_wr _ _ _ _ (keeps_setConv _ _ _ _ _ _ h1))))
  clear_value s6
  refine keeps_countFree _ _ _ ?_
  refine keeps_ite h6 ?_
  extract_lets +onlyGivenNames s8
  have h8 : x0.Keeps s8 := by
    have hk := h6
    with_reducible repeat' (first | exact hk | assumption | apply keeps_dropShadow | apply keeps_setReg | apply keeps_setFacet | apply keeps_foldl_fst | apply keeps_foldl | apply keeps_ite | split | (intro _) | simp (disch := (apply State.SameBut.mk <;> first | exact Base.Has.no | exact fun _ => rfl)) only [keeps_mk] | apply keeps_mk_free | apply keeps_mk_hbm_setPoison | apply keeps_mk_hub_setPoison | apply keeps_mk_hub_write2 | apply keeps_mk_hub_writeByte | apply keeps_mk_hub_write | (apply State.SameBut.mk <;> first | exact Base.Has.no | exact fun _ => rfl))
  clear_value s8
  cases s8.freeMirror pf a with
  | some m => exact keeps_dropMapWrite _ _ _ _ (keeps_wr _ _ _ _ (keeps_setConv _ _ _ _ _ _ h8))
  | none => exact keeps_requestTakeover _ _ _ (keeps_setParr _ _ _ _ (keeps_dropMapWrite _ _ _ _ (keeps_wr _ _ _ _ h8)))
theorem keeps_stagedLost {x0 : Base} [x0.Has .regs] (s : State) (pf epoch : Nat) (hk : x0.Keeps s) :
    x0.Keeps (State.stagedLost s pf epoch) := by
  unfold State.stagedLost
  with_reducible repeat' (first
    | exact hk | assumption | apply keeps_wr | apply keeps_ite | split | (intro _)
    | simp (disch := (apply State.SameBut.mk <;> first | exact Base.Has.no | exact fun _ => rfl)) only [keeps_mk])

theorem keeps_fenceStaged {x0 : Base} [x0.Has .regs] [x0.Has .staged] (s : State) (pf a : Nat) (hk : x0.Keeps s) :
    x0.Keeps (State.fenceStaged s pf a) := by
  unfold State.fenceStaged
  with_reducible repeat' (first
    | exact hk | assumption | apply keeps_wr | apply keeps_stagedLost | apply keeps_ite | split | (intro _)
    | simp (disch := (apply State.SameBut.mk <;> first | exact Base.Has.no | exact fun _ => rfl)) only [keeps_mk]
    | (apply State.SameBut.mk <;> first | exact Base.Has.no | exact fun _ => rfl))

theorem keeps_fenceArray {x0 : Base} [x0.Has .regs] [x0.Has .hbm] [x0.Has .staged] [x0.Has .faults] [x0.Has .raises] (s : State) (pf a cause : Nat) (hk : x0.Keeps s) :
    x0.Keeps (State.fenceArray s pf a cause) := by
  unfold State.fenceArray
  with_reducible repeat' (first
    | exact hk | assumption | apply keeps_setArrState | apply keeps_fenceStaged | apply keeps_raise
    | apply keeps_recordFence | apply keeps_ite | split | (intro _)
    | simp (disch := (apply State.SameBut.mk <;> first | exact Base.Has.no | exact fun _ => rfl)) only [keeps_mk])

theorem keeps_releaseArray {x0 : Base} [x0.Has .regs] [x0.Has .hbm] [x0.Has .staged] [x0.Has .faults] [x0.Has .raises] (s : State) (pf a oldTo : Nat) (hk : x0.Keeps s) :
    x0.Keeps (State.releaseArray s pf a oldTo) := by
  unfold State.releaseArray
  with_reducible repeat' (first
    | exact hk | assumption | apply keeps_setArrState | apply keeps_raise | apply keeps_fenceArray | apply keeps_ite
    | split | (intro _)
    | simp (disch := (apply State.SameBut.mk <;> first | exact Base.Has.no | exact fun _ => rfl)) only [keeps_mk])

theorem keeps_bindArray {x0 : Base} [x0.Has .regs] [x0.Has .hbm] [x0.Has .arrs] [x0.Has .larrs] [x0.Has .staged]
    [x0.Has .faults] [x0.Has .raises]
    (s : State) (pf n p oldTo : Nat) (hk : x0.Keeps s) :
    x0.Keeps (State.bindArray s pf n p oldTo) := by
  unfold State.bindArray
  with_reducible repeat' (first
    | exact hk | assumption | apply keeps_setArrState | apply keeps_wr | apply keeps_setLarr | apply keeps_dropShadows
    | apply keeps_setParr | apply keeps_releaseArray | apply keeps_ite | split | (intro _)
    | simp (disch := (apply State.SameBut.mk <;> first | exact Base.Has.no | exact fun _ => rfl)) only [keeps_mk]
    | (apply State.SameBut.mk <;> first | exact Base.Has.no | exact fun _ => rfl))

theorem keeps_bindStaged {x0 : Base} [x0.Has .regs] [x0.Has .hbm] [x0.Has .arrs] [x0.Has .larrs] [x0.Has .staged]
    [x0.Has .faults] [x0.Has .noc] [x0.Has .raises]
    (s : State) (pf epoch : Nat) (hk : x0.Keeps s) :
    x0.Keeps (State.bindStaged s pf epoch) := by
  unfold State.bindStaged
  with_reducible repeat' (first
    | exact hk | assumption | apply keeps_wr | apply keeps_setLarr | apply keeps_bindArray | apply keeps_foldl_fst
    | apply keeps_foldl | apply keeps_ite | split | (intro _)
    | simp (disch := (apply State.SameBut.mk <;> first | exact Base.Has.no | exact fun _ => rfl)) only [keeps_mk]
    | apply keeps_mk_hbm_setPoison | (apply State.SameBut.mk <;> first | exact Base.Has.no | exact fun _ => rfl))

theorem keeps_issueArrays {x0 : Base} [x0.Has .regs] [x0.Has .arrs] [x0.Has .outJobs] [x0.Has .raises] (s : State) (pf base count : Nat) (i : Issue) (hn : Nat) (listBad : Bool) (hk : x0.Keeps s) :
    x0.Keeps (State.issueArrays s pf base count i hn listBad) := by
  unfold State.issueArrays
  with_reducible repeat' (first
    | exact hk | assumption | apply keeps_wr | apply keeps_raise | apply keeps_setParr | apply keeps_bump
    | apply keeps_foldl_fst | apply keeps_foldl | apply keeps_ite | split | (intro _)
    | simp (disch := (apply State.SameBut.mk <;> first | exact Base.Has.no | exact fun _ => rfl)) only [keeps_mk]
    | (apply State.SameBut.mk <;> first | exact Base.Has.no | exact fun _ => rfl))

theorem keeps_prismCount {x0 : Base} [x0.Has .regs] [x0.Has .raises] (s : State) (pf : Nat) (raw : Bool) (o : BlkOut) (slot reader : Nat) (hk : x0.Keeps s) :
    x0.Keeps (State.prismCount s pf raw o slot reader) := by
  unfold State.prismCount
  with_reducible repeat' (first
    | exact hk | assumption | apply keeps_wr | apply keeps_raise | apply keeps_bump | apply keeps_ite | split | (intro _)
    | simp (disch := (apply State.SameBut.mk <;> first | exact Base.Has.no | exact fun _ => rfl)) only [keeps_mk])

theorem keeps_setLport {x0 : Base} [x0.Has .link] (s : State) (p : Nat) (x : LPort) (hk : x0.Keeps s) :
    x0.Keeps (State.setLport s p x) := by
  unfold State.setLport
  with_reducible repeat' (first
    | exact hk | assumption
    | simp (disch := (apply State.SameBut.mk <;> first | exact Base.Has.no | exact fun _ => rfl)) only [keeps_mk]
    | (apply State.SameBut.mk <;> first | exact Base.Has.no | exact fun _ => rfl))

theorem keeps_loupeFlit {x0 : Base} [x0.Has .regs] [x0.Has .out] (s : State) (p dir : Nat) (b : List Byte) (hk : x0.Keeps s) :
    x0.Keeps (State.loupeFlit s p dir b) := by
  unfold State.loupeFlit
  with_reducible repeat' (first | exact hk | assumption | apply keeps_loupeSend | apply keeps_ite | split)

theorem keeps_putFlit {x0 : Base} [x0.Has .regs] [x0.Has .link] [x0.Has .out] (s : State) (p : Nat) (f : Flit) (seq : Nat) (hk : x0.Keeps s) :
    x0.Keeps (State.putFlit s p f seq) := by
  unfold State.putFlit
  with_reducible repeat' (first
    | exact hk | assumption | apply keeps_setLport | apply keeps_emit | apply keeps_loupeFlit | (intro _)
    | simp (disch := (apply State.SameBut.mk <;> first | exact Base.Has.no | exact fun _ => rfl)) only [keeps_mk]
    | (apply State.SameBut.mk <;> first | exact Base.Has.no | exact fun _ => rfl))

theorem keeps_pump {x0 : Base} [x0.Has .regs] [x0.Has .link] [x0.Has .out] (p n : Nat) : ∀ s : State, x0.Keeps s → x0.Keeps (s.pump p n) := by
  induction n with
  | zero => intro s hk; exact hk
  | succ n ih =>
    intro s hk
    unfold State.pump
    with_reducible repeat' (first | exact hk | assumption | apply ih | apply keeps_setLport | apply keeps_putFlit | apply keeps_wr | apply keeps_ite | split | simp (disch := (apply State.SameBut.mk <;> first | exact Base.Has.no | exact fun _ => rfl)) only [keeps_mk])
theorem keeps_queueMsg {x0 : Base} [x0.Has .regs] [x0.Has .link] [x0.Has .out] (s : State) (p : Nat) (m : LMsg) (own : Nat × Nat × Nat) (hk : x0.Keeps s) :
    x0.Keeps (State.queueMsg s p m own) := by
  unfold State.queueMsg
  with_reducible repeat' (first
    | exact hk | assumption | apply keeps_pump | apply keeps_setLport | (intro _)
    | simp (disch := (apply State.SameBut.mk <;> first | exact Base.Has.no | exact fun _ => rfl)) only [keeps_mk]
    | (apply State.SameBut.mk <;> first | exact Base.Has.no | exact fun _ => rfl))

theorem keeps_failOwn {x0 : Base} [x0.Has .regs] [x0.Has .loader] [x0.Has .noc] (s : State) (own : Nat × Nat × Nat) (pkg : Nat) (hk : x0.Keeps s) :
    x0.Keeps (State.failOwn s own pkg) := by
  unfold State.failOwn
  with_reducible repeat' (first
    | exact hk | assumption | apply keeps_wr | apply keeps_ite | split | (intro _)
    | simp (disch := (apply State.SameBut.mk <;> first | exact Base.Has.no | exact fun _ => rfl)) only [keeps_mk]
    | (apply State.SameBut.mk <;> first | exact Base.Has.no | exact fun _ => rfl))

theorem keeps_sendMsg {x0 : Base} [x0.Has .regs] [x0.Has .loader] [x0.Has .link] [x0.Has .noc] [x0.Has .out] (s : State) (m : LMsg) (own : Nat × Nat × Nat) (hk : x0.Keeps s) :
    x0.Keeps (State.sendMsg s m own) := by
  unfold State.sendMsg
  with_reducible repeat' (first
    | exact hk | assumption | apply keeps_failOwn | apply keeps_queueMsg | split
    | simp (disch := (apply State.SameBut.mk <;> first | exact Base.Has.no | exact fun _ => rfl)) only [keeps_mk]
    | (apply State.SameBut.mk <;> first | exact Base.Has.no | exact fun _ => rfl))

theorem keeps_sendMulti {x0 : Base} [x0.Has .regs] [x0.Has .loader] [x0.Has .link] [x0.Has .noc] [x0.Has .out] (s : State) (m : LMsg) (own : Nat × Nat × Nat) (hk : x0.Keeps s) :
    x0.Keeps (State.sendMulti s m own) := by
  unfold State.sendMulti
  with_reducible repeat' (first
    | exact hk | assumption | apply keeps_failOwn | apply keeps_queueMsg | apply keeps_foldl_fst | apply keeps_foldl
    | apply keeps_ite | split | (intro _)
    | simp (disch := (apply State.SameBut.mk <;> first | exact Base.Has.no | exact fun _ => rfl)) only [keeps_mk]
    | (apply State.SameBut.mk <;> first | exact Base.Has.no | exact fun _ => rfl))

theorem keeps_sendRemote {x0 : Base} [x0.Has .regs] [x0.Has .facets] [x0.Has .loader] [x0.Has .link] [x0.Has .noc]
    [x0.Has .out]
    (s : State) (pf : Nat) (m : SyncMsg) (hk : x0.Keeps s) :
    x0.Keeps (State.sendRemote s pf m) := by
  unfold State.sendRemote
  with_reducible repeat' (first
    | exact hk | assumption | apply keeps_asyncCore | apply keeps_sendMsg | (intro _)
    | simp (disch := (apply State.SameBut.mk <;> first | exact Base.Has.no | exact fun _ => rfl)) only [keeps_mk])

theorem keeps_dropPort {x0 : Base} [x0.Has .regs] [x0.Has .loader] [x0.Has .link] [x0.Has .noc] (s : State) (p : Nat) (hk : x0.Keeps s) :
    x0.Keeps (State.dropPort s p) := by
  unfold State.dropPort
  with_reducible repeat' (first
    | exact hk | assumption | apply keeps_setLport | apply keeps_failOwn | apply keeps_foldl_fst | apply keeps_foldl
    | split | (intro _)
    | simp (disch := (apply State.SameBut.mk <;> first | exact Base.Has.no | exact fun _ => rfl)) only [keeps_mk]
    | (apply State.SameBut.mk <;> first | exact Base.Has.no | exact fun _ => rfl))

theorem keeps_portDown {x0 : Base} [x0.Has .regs] [x0.Has .loader] [x0.Has .link] [x0.Has .noc] [x0.Has .raises] (s : State) (p cause : Nat) (hk : x0.Keeps s) :
    x0.Keeps (State.portDown s p cause) := by
  unfold State.portDown
  with_reducible repeat' (first
    | exact hk | assumption | apply keeps_raise | apply keeps_wr | apply keeps_dropPort | (intro _)
    | simp (disch := (apply State.SameBut.mk <;> first | exact Base.Has.no | exact fun _ => rfl)) only [keeps_mk])

theorem keeps_setFacState {x0 : Base} [x0.Has .regs] (s : State) (pf st : Nat) (hk : x0.Keeps s) :
    x0.Keeps (State.setFacState s pf st) := by
  unfold State.setFacState
  with_reducible repeat' (first | exact hk | assumption | apply keeps_wr)

theorem keeps_takeException {x0 : Base} [x0.Has .regs] [x0.Has .facets] [x0.Has .raises] (s : State) (pf slot code : Nat) (hk : x0.Keeps s) :
    x0.Keeps (takeException s pf slot code) := by
  unfold takeException
  with_reducible repeat' (first
    | exact hk | assumption | apply keeps_wr | apply keeps_raise | apply keeps_bump | apply keeps_setFacet
    | apply keeps_setFacet | apply keeps_ite | split | (intro _)
    | simp (disch := (apply State.SameBut.mk <;> first | exact Base.Has.no | exact fun _ => rfl)) only [keeps_mk]
    | (apply State.SameBut.mk <;> first | exact Base.Has.no | exact fun _ => rfl))

theorem keeps_chargeStall {x0 : Base} [x0.Has .regs] [x0.Has .facets] (s : State) (pf cause : Nat) (hk : x0.Keeps s) :
    x0.Keeps (chargeStall s pf cause) := by
  unfold chargeStall
  with_reducible repeat' (first
    | exact hk | assumption | apply keeps_bump | apply keeps_setFacet | apply keeps_setFacet | apply keeps_ite | split
    | (intro _)
    | simp (disch := (apply State.SameBut.mk <;> first | exact Base.Has.no | exact fun _ => rfl)) only [keeps_mk]
    | (apply State.SameBut.mk <;> first | exact Base.Has.no | exact fun _ => rfl))

theorem keeps_mirrorLogged {x0 : Base} [x0.Has .regions] (s : State) (pf step : Nat) (hk : x0.Keeps s) :
    x0.Keeps (State.mirrorLogged s pf step) := by
  unfold State.mirrorLogged
  with_reducible repeat' (first
    | exact hk | assumption | apply keeps_setRegion | apply keeps_ite | split
    | simp (disch := (apply State.SameBut.mk <;> first | exact Base.Has.no | exact fun _ => rfl)) only [keeps_mk]
    | (apply State.SameBut.mk <;> first | exact Base.Has.no | exact fun _ => rfl))

theorem keeps_applyEff {x0 : Base} [x0.Has .regs] [x0.Has .hbm] [x0.Has .facets] [x0.Has .arrs] [x0.Has .larrs]
    [x0.Has .outJobs] [x0.Has .staged] [x0.Has .regions] [x0.Has .loader] [x0.Has .faults]
    [x0.Has .link] [x0.Has .noc] [x0.Has .raises] [x0.Has .out]
    (pf : Nat) (s : State) (e : Eff) (hk : x0.Keeps s) : x0.Keeps (applyEff pf s e) := by
  unfold applyEff
  with_reducible repeat' (first | exact hk | assumption | apply keeps_bump | apply keeps_wr | apply keeps_raiseRec | apply keeps_issueArrays | apply keeps_sendRemote | apply keeps_injDone | apply keeps_mirrorLogged | apply keeps_bindStaged | apply keeps_setFacState | apply keeps_setFacet | apply keeps_ite | split | simp (disch := (apply State.SameBut.mk <;> first | exact Base.Has.no | exact fun _ => rfl)) only [keeps_mk])
theorem keeps_leaveR {x0 : Base} [x0.Has .regs] [x0.Has .hbm] [x0.Has .facets] [x0.Has .arrs] [x0.Has .larrs]
    [x0.Has .outJobs] [x0.Has .staged] [x0.Has .regions] [x0.Has .loader] [x0.Has .faults]
    [x0.Has .link] [x0.Has .noc] [x0.Has .raises] [x0.Has .out]
    (s : State) (pf : Nat) (b : Bundle) (hk : x0.Keeps s) :
    x0.Keeps (leaveR s pf b) := by
  unfold leaveR
  with_reducible repeat' (first
    | exact hk | assumption | apply keeps_wr | apply keeps_setFacState | apply keeps_applyEff | apply keeps_setFacet
    | apply keeps_setFacet | apply keeps_foldl_fst | apply keeps_foldl | apply keeps_ite | split | (intro _)
    | simp (disch := (apply State.SameBut.mk <;> first | exact Base.Has.no | exact fun _ => rfl)) only [keeps_mk]
    | (apply State.SameBut.mk <;> first | exact Base.Has.no | exact fun _ => rfl))

theorem keeps_stallInR {x0 : Base} [x0.Has .regs] [x0.Has .facets] (s : State) (pf cause : Nat) (hk : x0.Keeps s) :
    x0.Keeps (stallInR s pf cause) := by
  unfold stallInR
  with_reducible repeat' (first
    | exact hk | assumption | apply keeps_wr | apply keeps_chargeStall | apply keeps_setFacState | apply keeps_setFacet
    | apply keeps_setFacet | apply keeps_ite | split | (intro _)
    | simp (disch := (apply State.SameBut.mk <;> first | exact Base.Has.no | exact fun _ => rfl)) only [keeps_mk]
    | (apply State.SameBut.mk <;> first | exact Base.Has.no | exact fun _ => rfl))

theorem keeps_finishBundle {x0 : Base} [x0.Has .regs] [x0.Has .hbm] [x0.Has .facets] [x0.Has .arrs] [x0.Has .larrs]
    [x0.Has .outJobs] [x0.Has .staged] [x0.Has .regions] [x0.Has .loader] [x0.Has .faults]
    [x0.Has .link] [x0.Has .noc] [x0.Has .raises] [x0.Has .out]
    (s : State) (pf : Nat) (b : Bundle) (hk : x0.Keeps s) :
    x0.Keeps (finishBundle s pf b) := by
  unfold finishBundle
  with_reducible repeat' (first
    | exact hk | assumption | apply keeps_leaveR | apply keeps_stallInR | apply keeps_takeException | apply keeps_foldl_fst
    | apply keeps_foldl | apply keeps_ite | split | (intro _)
    | simp (disch := (apply State.SameBut.mk <;> first | exact Base.Has.no | exact fun _ => rfl)) only [keeps_mk]
    | (apply State.SameBut.mk <;> first | exact Base.Has.no | exact fun _ => rfl))

theorem keeps_slotStep {x0 : Base} [x0.Has .regs] [x0.Has .hbm] [x0.Has .facets] [x0.Has .arrs] [x0.Has .larrs]
    [x0.Has .outJobs] [x0.Has .staged] [x0.Has .regions] [x0.Has .loader] [x0.Has .faults]
    [x0.Has .link] [x0.Has .noc] [x0.Has .raises] [x0.Has .out]
    (h : Hdr) (cls : List Nat) (dests : List (Nat × Nat)) (illegal : Bool) (run : State → FCore → FCore → SlotRes) (s : State) (hk : x0.Keeps s) :
    x0.Keeps (slotStep h cls dests illegal run s) := by
  unfold slotStep
  with_reducible repeat' (first
    | exact hk | assumption | apply keeps_finishBundle | apply keeps_setFacet | apply keeps_setFacet | apply keeps_ite
    | split | (intro _)
    | simp (disch := (apply State.SameBut.mk <;> first | exact Base.Has.no | exact fun _ => rfl)) only [keeps_mk]
    | (apply State.SameBut.mk <;> first | exact Base.Has.no | exact fun _ => rfl))

theorem keeps_coreSlot {x0 : Base} [x0.Has .regs] [x0.Has .hbm] [x0.Has .facets] [x0.Has .arrs] [x0.Has .larrs]
    [x0.Has .outJobs] [x0.Has .staged] [x0.Has .regions] [x0.Has .loader] [x0.Has .faults]
    [x0.Has .link] [x0.Has .noc] [x0.Has .raises] [x0.Has .out]
    (h : Hdr) (cls : List Nat) (dests : List (Nat × Nat)) (illegal : Bool) (run : FCore → FCore → SlotRes) (s : State) (hk : x0.Keeps s) :
    x0.Keeps (coreSlot h cls dests illegal run s) := by
  unfold coreSlot
  with_reducible repeat' (first | exact hk | assumption | apply keeps_slotStep)

theorem keeps_vaSlot {x0 : Base} [x0.Has .regs] [x0.Has .hbm] [x0.Has .facets] [x0.Has .arrs] [x0.Has .larrs]
    [x0.Has .outJobs] [x0.Has .staged] [x0.Has .regions] [x0.Has .loader] [x0.Has .faults]
    [x0.Has .link] [x0.Has .noc] [x0.Has .raises] [x0.Has .out]
    (h : Hdr) (vd : Nat) (srcs : List Nat) (typ : Nat) (fpOnly : Bool) (fp : List Nat → Nat) (int : List Int → Int) (s : State) (hk : x0.Keeps s) :
    x0.Keeps (vaSlot h vd srcs typ fpOnly fp int s) := by
  unfold vaSlot
  with_reducible repeat' (first | exact hk | assumption | apply keeps_coreSlot)

theorem keeps_execVld {x0 : Base} [x0.Has .regs] [x0.Has .hbm] [x0.Has .facets] [x0.Has .arrs] [x0.Has .larrs]
    [x0.Has .outJobs] [x0.Has .staged] [x0.Has .regions] [x0.Has .loader] [x0.Has .faults]
    [x0.Has .link] [x0.Has .noc] [x0.Has .raises] [x0.Has .out]
    (h : Hdr) (v ra imm : Nat) (s : State) (hk : x0.Keeps s) :
    KeepsRes x0 (execVld h v ra imm s) := by
  unfold execVld
  with_reducible repeat' (first
    | exact hk | assumption | apply keepsRes_next | apply keepsRes_ite | apply keeps_coreSlot | apply keeps_ite | split
    | (intro _)
    | simp (disch := (apply State.SameBut.mk <;> first | exact Base.Has.no | exact fun _ => rfl)) only [keeps_mk])

theorem keeps_execVst {x0 : Base} [x0.Has .regs] [x0.Has .hbm] [x0.Has .facets] [x0.Has .arrs] [x0.Has .larrs]
    [x0.Has .outJobs] [x0.Has .staged] [x0.Has .regions] [x0.Has .loader] [x0.Has .faults]
    [x0.Has .link] [x0.Has .noc] [x0.Has .raises] [x0.Has .out]
    (h : Hdr) (v ra imm : Nat) (s : State) (hk : x0.Keeps s) :
    KeepsRes x0 (execVst h v ra imm s) := by
  unfold execVst
  with_reducible repeat' (first
    | exact hk | assumption | apply keepsRes_next | apply keeps_coreSlot | (intro _)
    | simp (disch := (apply State.SameBut.mk <;> first | exact Base.Has.no | exact fun _ => rfl)) only [keeps_mk])

theorem keeps_execVadd {x0 : Base} [x0.Has .regs] [x0.Has .hbm] [x0.Has .facets] [x0.Has .arrs] [x0.Has .larrs]
    [x0.Has .outJobs] [x0.Has .staged] [x0.Has .regions] [x0.Has .loader] [x0.Has .faults]
    [x0.Has .link] [x0.Has .noc] [x0.Has .raises] [x0.Has .out]
    (h : Hdr) (vd va vb typ : Nat) (s : State) (hk : x0.Keeps s) :
    KeepsRes x0 (execVadd h vd va vb typ s) := by
  unfold execVadd
  with_reducible repeat' (first | exact hk | assumption | apply keepsRes_next | apply keeps_vaSlot)

theorem keeps_execVsub {x0 : Base} [x0.Has .regs] [x0.Has .hbm] [x0.Has .facets] [x0.Has .arrs] [x0.Has .larrs]
    [x0.Has .outJobs] [x0.Has .staged] [x0.Has .regions] [x0.Has .loader] [x0.Has .faults]
    [x0.Has .link] [x0.Has .noc] [x0.Has .raises] [x0.Has .out]
    (h : Hdr) (vd va vb typ : Nat) (s : State) (hk : x0.Keeps s) :
    KeepsRes x0 (execVsub h vd va vb typ s) := by
  unfold execVsub
  with_reducible repeat' (first | exact hk | assumption | apply keepsRes_next | apply keeps_vaSlot)

theorem keeps_execVmul {x0 : Base} [x0.Has .regs] [x0.Has .hbm] [x0.Has .facets] [x0.Has .arrs] [x0.Has .larrs]
    [x0.Has .outJobs] [x0.Has .staged] [x0.Has .regions] [x0.Has .loader] [x0.Has .faults]
    [x0.Has .link] [x0.Has .noc] [x0.Has .raises] [x0.Has .out]
    (h : Hdr) (vd va vb typ : Nat) (s : State) (hk : x0.Keeps s) :
    KeepsRes x0 (execVmul h vd va vb typ s) := by
  unfold execVmul
  with_reducible repeat' (first | exact hk | assumption | apply keepsRes_next | apply keeps_vaSlot)

theorem keeps_execVfma {x0 : Base} [x0.Has .regs] [x0.Has .hbm] [x0.Has .facets] [x0.Has .arrs] [x0.Has .larrs]
    [x0.Has .outJobs] [x0.Has .staged] [x0.Has .regions] [x0.Has .loader] [x0.Has .faults]
    [x0.Has .link] [x0.Has .noc] [x0.Has .raises] [x0.Has .out]
    (h : Hdr) (vd va vb vc typ : Nat) (s : State) (hk : x0.Keeps s) :
    KeepsRes x0 (execVfma h vd va vb vc typ s) := by
  unfold execVfma
  with_reducible repeat' (first | exact hk | assumption | apply keepsRes_next | apply keeps_vaSlot)

theorem keeps_execVmax {x0 : Base} [x0.Has .regs] [x0.Has .hbm] [x0.Has .facets] [x0.Has .arrs] [x0.Has .larrs]
    [x0.Has .outJobs] [x0.Has .staged] [x0.Has .regions] [x0.Has .loader] [x0.Has .faults]
    [x0.Has .link] [x0.Has .noc] [x0.Has .raises] [x0.Has .out]
    (h : Hdr) (vd va vb typ : Nat) (s : State) (hk : x0.Keeps s) :
    KeepsRes x0 (execVmax h vd va vb typ s) := by
  unfold execVmax
  with_reducible repeat' (first | exact hk | assumption | apply keepsRes_next | apply keeps_vaSlot)

theorem keeps_execVmin {x0 : Base} [x0.Has .regs] [x0.Has .hbm] [x0.Has .facets] [x0.Has .arrs] [x0.Has .larrs]
    [x0.Has .outJobs] [x0.Has .staged] [x0.Has .regions] [x0.Has .loader] [x0.Has .faults]
    [x0.Has .link] [x0.Has .noc] [x0.Has .raises] [x0.Has .out]
    (h : Hdr) (vd va vb typ : Nat) (s : State) (hk : x0.Keeps s) :
    KeepsRes x0 (execVmin h vd va vb typ s) := by
  unfold execVmin
  with_reducible repeat' (first | exact hk | assumption | apply keepsRes_next | apply keeps_vaSlot)

theorem keeps_execVabs {x0 : Base} [x0.Has .regs] [x0.Has .hbm] [x0.Has .facets] [x0.Has .arrs] [x0.Has .larrs]
    [x0.Has .outJobs] [x0.Has .staged] [x0.Has .regions] [x0.Has .loader] [x0.Has .faults]
    [x0.Has .link] [x0.Has .noc] [x0.Has .raises] [x0.Has .out]
    (h : Hdr) (vd va typ : Nat) (s : State) (hk : x0.Keeps s) :
    KeepsRes x0 (execVabs h vd va typ s) := by
  unfold execVabs
  with_reducible repeat' (first | exact hk | assumption | apply keepsRes_next | apply keeps_vaSlot)

theorem keeps_execVneg {x0 : Base} [x0.Has .regs] [x0.Has .hbm] [x0.Has .facets] [x0.Has .arrs] [x0.Has .larrs]
    [x0.Has .outJobs] [x0.Has .staged] [x0.Has .regions] [x0.Has .loader] [x0.Has .faults]
    [x0.Has .link] [x0.Has .noc] [x0.Has .raises] [x0.Has .out]
    (h : Hdr) (vd va typ : Nat) (s : State) (hk : x0.Keeps s) :
    KeepsRes x0 (execVneg h vd va typ s) := by
  unfold execVneg
  with_reducible repeat' (first | exact hk | assumption | apply keepsRes_next | apply keeps_vaSlot)

theorem keeps_execVbcs {x0 : Base} [x0.Has .regs] [x0.Has .hbm] [x0.Has .facets] [x0.Has .arrs] [x0.Has .larrs]
    [x0.Has .outJobs] [x0.Has .staged] [x0.Has .regions] [x0.Has .loader] [x0.Has .faults]
    [x0.Has .link] [x0.Has .noc] [x0.Has .raises] [x0.Has .out]
    (h : Hdr) (vd ra typ : Nat) (s : State) (hk : x0.Keeps s) :
    KeepsRes x0 (execVbcs h vd ra typ s) := by
  unfold execVbcs
  with_reducible repeat' (first | exact hk | assumption | apply keepsRes_next | apply keeps_coreSlot)

theorem keeps_execVsel {x0 : Base} [x0.Has .regs] [x0.Has .hbm] [x0.Has .facets] [x0.Has .arrs] [x0.Has .larrs]
    [x0.Has .outJobs] [x0.Has .staged] [x0.Has .regions] [x0.Has .loader] [x0.Has .faults]
    [x0.Has .link] [x0.Has .noc] [x0.Has .raises] [x0.Has .out]
    (h : Hdr) (vd va vb vc typ : Nat) (s : State) (hk : x0.Keeps s) :
    KeepsRes x0 (execVsel h vd va vb vc typ s) := by
  unfold execVsel
  with_reducible repeat' (first
    | exact hk | assumption | apply keepsRes_next | apply keepsRes_ite | apply keeps_coreSlot | apply keeps_ite | split
    | (intro _)
    | simp (disch := (apply State.SameBut.mk <;> first | exact Base.Has.no | exact fun _ => rfl)) only [keeps_mk])

theorem keeps_execVcmp {x0 : Base} [x0.Has .regs] [x0.Has .hbm] [x0.Has .facets] [x0.Has .arrs] [x0.Has .larrs]
    [x0.Has .outJobs] [x0.Has .staged] [x0.Has .regions] [x0.Has .loader] [x0.Has .faults]
    [x0.Has .link] [x0.Has .noc] [x0.Has .raises] [x0.Has .out]
    (h : Hdr) (vd va vb typ cond : Nat) (s : State) (hk : x0.Keeps s) :
    KeepsRes x0 (execVcmp h vd va vb typ cond s) := by
  unfold execVcmp
  with_reducible repeat' (first
    | exact hk | assumption | apply keepsRes_next | apply keepsRes_ite | apply keeps_coreSlot | apply keeps_ite | split
    | (intro _)
    | simp (disch := (apply State.SameBut.mk <;> first | exact Base.Has.no | exact fun _ => rfl)) only [keeps_mk])

theorem keeps_execVexp2 {x0 : Base} [x0.Has .regs] [x0.Has .hbm] [x0.Has .facets] [x0.Has .arrs] [x0.Has .larrs]
    [x0.Has .outJobs] [x0.Has .staged] [x0.Has .regions] [x0.Has .loader] [x0.Has .faults]
    [x0.Has .link] [x0.Has .noc] [x0.Has .raises] [x0.Has .out]
    (h : Hdr) (vd va typ : Nat) (s : State) (hk : x0.Keeps s) :
    KeepsRes x0 (execVexp2 h vd va typ s) := by
  unfold execVexp2
  with_reducible repeat' (first | exact hk | assumption | apply keepsRes_next | apply keeps_vaSlot)

theorem keeps_execVrcp {x0 : Base} [x0.Has .regs] [x0.Has .hbm] [x0.Has .facets] [x0.Has .arrs] [x0.Has .larrs]
    [x0.Has .outJobs] [x0.Has .staged] [x0.Has .regions] [x0.Has .loader] [x0.Has .faults]
    [x0.Has .link] [x0.Has .noc] [x0.Has .raises] [x0.Has .out]
    (h : Hdr) (vd va typ : Nat) (s : State) (hk : x0.Keeps s) :
    KeepsRes x0 (execVrcp h vd va typ s) := by
  unfold execVrcp
  with_reducible repeat' (first | exact hk | assumption | apply keepsRes_next | apply keeps_vaSlot)

theorem keeps_execVrsqrt {x0 : Base} [x0.Has .regs] [x0.Has .hbm] [x0.Has .facets] [x0.Has .arrs] [x0.Has .larrs]
    [x0.Has .outJobs] [x0.Has .staged] [x0.Has .regions] [x0.Has .loader] [x0.Has .faults]
    [x0.Has .link] [x0.Has .noc] [x0.Has .raises] [x0.Has .out]
    (h : Hdr) (vd va typ : Nat) (s : State) (hk : x0.Keeps s) :
    KeepsRes x0 (execVrsqrt h vd va typ s) := by
  unfold execVrsqrt
  with_reducible repeat' (first | exact hk | assumption | apply keepsRes_next | apply keeps_vaSlot)

theorem keeps_execVact {x0 : Base} [x0.Has .regs] [x0.Has .hbm] [x0.Has .facets] [x0.Has .arrs] [x0.Has .larrs]
    [x0.Has .outJobs] [x0.Has .staged] [x0.Has .regions] [x0.Has .loader] [x0.Has .faults]
    [x0.Has .link] [x0.Has .noc] [x0.Has .raises] [x0.Has .out]
    (h : Hdr) (vd va typ table : Nat) (s : State) (hk : x0.Keeps s) :
    KeepsRes x0 (execVact h vd va typ table s) := by
  unfold execVact
  with_reducible repeat' (first | exact hk | assumption | apply keepsRes_next | apply keeps_coreSlot)

theorem keeps_execVred {x0 : Base} [x0.Has .regs] [x0.Has .hbm] [x0.Has .facets] [x0.Has .arrs] [x0.Has .larrs]
    [x0.Has .outJobs] [x0.Has .staged] [x0.Has .regions] [x0.Has .loader] [x0.Has .faults]
    [x0.Has .link] [x0.Has .noc] [x0.Has .raises] [x0.Has .out]
    (h : Hdr) (vd va typ op seg : Nat) (s : State) (hk : x0.Keeps s) :
    KeepsRes x0 (execVred h vd va typ op seg s) := by
  unfold execVred
  with_reducible repeat' (first
    | exact hk | assumption | apply keepsRes_next | apply keeps_coreSlot | (intro _)
    | simp (disch := (apply State.SameBut.mk <;> first | exact Base.Has.no | exact fun _ => rfl)) only [keeps_mk])

theorem keeps_execVcvt {x0 : Base} [x0.Has .regs] [x0.Has .hbm] [x0.Has .facets] [x0.Has .arrs] [x0.Has .larrs]
    [x0.Has .outJobs] [x0.Has .staged] [x0.Has .regions] [x0.Has .loader] [x0.Has .faults]
    [x0.Has .link] [x0.Has .noc] [x0.Has .raises] [x0.Has .out]
    (h : Hdr) (vd va sf df half : Nat) (s : State) (hk : x0.Keeps s) :
    KeepsRes x0 (execVcvt h vd va sf df half s) := by
  unfold execVcvt
  with_reducible repeat' (first
    | exact hk | assumption | apply keepsRes_next | apply keepsRes_ite | apply keeps_coreSlot | apply keeps_ite | split
    | (intro _)
    | simp (disch := (apply State.SameBut.mk <;> first | exact Base.Has.no | exact fun _ => rfl)) only [keeps_mk]
    | (apply State.SameBut.mk <;> first | exact Base.Has.no | exact fun _ => rfl))

theorem keeps_execVquant {x0 : Base} [x0.Has .regs] [x0.Has .hbm] [x0.Has .facets] [x0.Has .arrs] [x0.Has .larrs]
    [x0.Has .outJobs] [x0.Has .staged] [x0.Has .regions] [x0.Has .loader] [x0.Has .faults]
    [x0.Has .link] [x0.Has .noc] [x0.Has .raises] [x0.Has .out]
    (h : Hdr) (vd va vx sd df : Nat) (blk : Bool) (kc : Nat) (s : State) (hk : x0.Keeps s) :
    KeepsRes x0 (execVquant h vd va vx sd df blk kc s) := by
  unfold execVquant
  with_reducible repeat' (first
    | exact hk | assumption | apply keepsRes_next | apply keepsRes_ite | apply keeps_coreSlot | apply keeps_ite | split
    | (intro _)
    | simp (disch := (apply State.SameBut.mk <;> first | exact Base.Has.no | exact fun _ => rfl)) only [keeps_mk])

theorem keeps_execVmovs {x0 : Base} [x0.Has .regs] [x0.Has .hbm] [x0.Has .facets] [x0.Has .arrs] [x0.Has .larrs]
    [x0.Has .outJobs] [x0.Has .staged] [x0.Has .regions] [x0.Has .loader] [x0.Has .faults]
    [x0.Has .link] [x0.Has .noc] [x0.Has .raises] [x0.Has .out]
    (h : Hdr) (rd va lane : Nat) (sx : Bool) (s : State) (hk : x0.Keeps s) :
    KeepsRes x0 (execVmovs h rd va lane sx s) := by
  unfold execVmovs
  with_reducible repeat' (first
    | exact hk | assumption | apply keepsRes_next | apply keepsRes_ite | apply keeps_coreSlot | apply keeps_ite | split
    | (intro _)
    | simp (disch := (apply State.SameBut.mk <;> first | exact Base.Has.no | exact fun _ => rfl)) only [keeps_mk])

theorem keeps_execVwatch {x0 : Base} [x0.Has .regs] [x0.Has .hbm] [x0.Has .facets] [x0.Has .arrs] [x0.Has .larrs]
    [x0.Has .outJobs] [x0.Has .staged] [x0.Has .regions] [x0.Has .loader] [x0.Has .faults]
    [x0.Has .link] [x0.Has .noc] [x0.Has .raises] [x0.Has .out]
    (h : Hdr) (va layer : Nat) (spec grad : Bool) (s : State) (hk : x0.Keeps s) :
    KeepsRes x0 (execVwatch h va layer spec grad s) := by
  unfold execVwatch
  with_reducible repeat' (first
    | exact hk | assumption | apply keepsRes_next | apply keepsRes_ite | apply keeps_bump | apply keeps_coreSlot
    | apply keeps_ite | split | (intro _)
    | simp (disch := (apply State.SameBut.mk <;> first | exact Base.Has.no | exact fun _ => rfl)) only [keeps_mk]
    | (apply State.SameBut.mk <;> first | exact Base.Has.no | exact fun _ => rfl))

theorem keeps_execHset {x0 : Base} [x0.Has .regs] [x0.Has .hbm] [x0.Has .facets] [x0.Has .arrs] [x0.Has .larrs]
    [x0.Has .outJobs] [x0.Has .staged] [x0.Has .regions] [x0.Has .loader] [x0.Has .faults]
    [x0.Has .link] [x0.Has .noc] [x0.Has .raises] [x0.Has .out]
    (h : Hdr) (hd ra : Nat) (s : State) (hk : x0.Keeps s) :
    KeepsRes x0 (execHset h hd ra s) := by
  unfold execHset
  with_reducible repeat' (first | exact hk | assumption | apply keepsRes_next | apply keeps_coreSlot)

theorem keeps_execAiss {x0 : Base} [x0.Has .regs] [x0.Has .hbm] [x0.Has .facets] [x0.Has .arrs] [x0.Has .larrs]
    [x0.Has .outJobs] [x0.Has .staged] [x0.Has .regions] [x0.Has .loader] [x0.Has .faults]
    [x0.Has .link] [x0.Has .noc] [x0.Has .raises] [x0.Has .out]
    (h : Hdr) (hn vs ss bank : Nat) (acc spec : Bool) (kc vo : Nat) (s : State) (hk : x0.Keeps s) :
    KeepsRes x0 (execAiss h hn vs ss bank acc spec kc vo s) := by
  unfold execAiss
  with_reducible repeat' (first
    | exact hk | assumption | apply keepsRes_next | apply keepsRes_ite | apply keeps_slotStep | apply keeps_ite | split
    | (intro _)
    | simp (disch := (apply State.SameBut.mk <;> first | exact Base.Has.no | exact fun _ => rfl)) only [keeps_mk]
    | (apply State.SameBut.mk <;> first | exact Base.Has.no | exact fun _ => rfl))

theorem keeps_execAdrnv {x0 : Base} [x0.Has .regs] [x0.Has .hbm] [x0.Has .facets] [x0.Has .arrs] [x0.Has .larrs]
    [x0.Has .outJobs] [x0.Has .staged] [x0.Has .regions] [x0.Has .loader] [x0.Has .faults]
    [x0.Has .link] [x0.Has .noc] [x0.Has .raises] [x0.Has .out]
    (h : Hdr) (vd hn tile bank : Nat) (dq : Bool) (sd : Nat) (s : State) (hk : x0.Keeps s) :
    KeepsRes x0 (execAdrnv h vd hn tile bank dq sd s) := by
  unfold execAdrnv
  with_reducible repeat' (first
    | exact hk | assumption | apply keepsRes_next | apply keepsRes_ite | apply keeps_coreSlot | apply keeps_ite | split
    | (intro _)
    | simp (disch := (apply State.SameBut.mk <;> first | exact Base.Has.no | exact fun _ => rfl)) only [keeps_mk]
    | (apply State.SameBut.mk <;> first | exact Base.Has.no | exact fun _ => rfl))

theorem keeps_execAdrnm {x0 : Base} [x0.Has .regs] [x0.Has .hbm] [x0.Has .facets] [x0.Has .arrs] [x0.Has .larrs]
    [x0.Has .outJobs] [x0.Has .staged] [x0.Has .regions] [x0.Has .loader] [x0.Has .faults]
    [x0.Has .link] [x0.Has .noc] [x0.Has .raises] [x0.Has .out]
    (h : Hdr) (hn bank : Nat) (dq : Bool) (ra : Nat) (s : State) (hk : x0.Keeps s) :
    KeepsRes x0 (execAdrnm h hn bank dq ra s) := by
  unfold execAdrnm
  with_reducible repeat' (first
    | exact hk | assumption | apply keepsRes_next | apply keepsRes_ite | apply keeps_coreSlot | apply keeps_ite | split
    | (intro _)
    | simp (disch := (apply State.SameBut.mk <;> first | exact Base.Has.no | exact fun _ => rfl)) only [keeps_mk]
    | (apply State.SameBut.mk <;> first | exact Base.Has.no | exact fun _ => rfl))

theorem keeps_mapReject {x0 : Base} [x0.Has .regs] [x0.Has .raises] (s : State) (pf offset : Nat) (hk : x0.Keeps s) :
    x0.Keeps (State.mapReject s pf offset) := by
  unfold State.mapReject
  with_reducible repeat' (first | exact hk | assumption | apply keeps_raise | apply keeps_wr)

theorem keeps_launchDrains {x0 : Base} [x0.Has .facets] (s : State) (pf : Nat) (hk : x0.Keeps s) :
    x0.Keeps (State.launchDrains s pf) := by
  unfold State.launchDrains
  with_reducible repeat' (first
    | exact hk | assumption | apply keeps_asyncCore | apply keeps_ite | split
    | simp (disch := (apply State.SameBut.mk <;> first | exact Base.Has.no | exact fun _ => rfl)) only [keeps_mk]
    | (apply State.SameBut.mk <;> first | exact Base.Has.no | exact fun _ => rfl))

theorem keeps_execProductStart {x0 : Base} [x0.Has .arrs] (pf arr : Nat) (s : State) (hk : x0.Keeps s) :
    KeepsRes x0 (execProductStart pf arr s) := by
  unfold execProductStart
  with_reducible repeat' (first
    | exact hk | assumption | apply keepsRes_next | apply keepsRes_ite | apply keeps_setParr | apply keeps_ite | split
    | (intro _)
    | simp (disch := (apply State.SameBut.mk <;> first | exact Base.Has.no | exact fun _ => rfl)) only [keeps_mk]
    | (apply State.SameBut.mk <;> first | exact Base.Has.no | exact fun _ => rfl))

theorem keeps_countOver {x0 : Base} [x0.Has .regs] (s : State) (pf a : Nat) (cs : List Nat) (hk : x0.Keeps s) :
    x0.Keeps (State.countOver s pf a cs) := by
  unfold State.countOver
  with_reducible repeat' (first
    | exact hk | assumption | apply keeps_bump | apply keeps_foldl_fst | apply keeps_foldl | (intro _))

theorem keeps_promoteGroups {x0 : Base} [x0.Has .regs] [x0.Has .larrs] (s : State) (pf : Nat) (i : Issue) (b : Nat) (sums : Tab Int) (gs : List Nat) (hk : x0.Keeps s) :
    x0.Keeps (State.promoteGroups s pf i b sums gs) := by
  unfold State.promoteGroups
  with_reducible repeat' (first
    | exact hk | assumption | apply keeps_setLarr | apply keeps_bump | apply keeps_foldl_fst | apply keeps_foldl
    | (intro _)
    | simp (disch := (apply State.SameBut.mk <;> first | exact Base.Has.no | exact fun _ => rfl)) only [keeps_mk])

theorem keeps_joinPlace {x0 : Base} [x0.Has .fbPlaces] (s : State) (pf a n : Nat) (hk : x0.Keeps s) :
    x0.Keeps (State.joinPlace s pf a n) := by
  unfold State.joinPlace
  with_reducible repeat' (first
    | exact hk | assumption | apply keeps_ite | split | (intro _)
    | simp (disch := (apply State.SameBut.mk <;> first | exact Base.Has.no | exact fun _ => rfl)) only [keeps_mk]
    | (apply State.SameBut.mk <;> first | exact Base.Has.no | exact fun _ => rfl))

theorem keeps_leavePlace {x0 : Base} [x0.Has .fbPlaces] (s : State) (pf a : Nat) (hk : x0.Keeps s) :
    x0.Keeps (State.leavePlace s pf a) := by
  unfold State.leavePlace
  with_reducible repeat' (first
    | exact hk | assumption
    | simp (disch := (apply State.SameBut.mk <;> first | exact Base.Has.no | exact fun _ => rfl)) only [keeps_mk]
    | (apply State.SameBut.mk <;> first | exact Base.Has.no | exact fun _ => rfl))

theorem keeps_settleNext {x0 : Base} [x0.Has .regs] [x0.Has .arrs] [x0.Has .fbPlaces] (s : State) (pf a : Nat) (p : Product) (hk : x0.Keeps s) :
    x0.Keeps (State.settleNext s pf a p) := by
  unfold State.settleNext
  with_reducible repeat' (first
    | exact hk | assumption | apply keeps_setConv | apply keeps_joinPlace | apply keeps_setParr | apply keeps_countFree
    | apply keeps_bump | apply keeps_ite | split | (intro _)
    | simp (disch := (apply State.SameBut.mk <;> first | exact Base.Has.no | exact fun _ => rfl)) only [keeps_mk]
    | (apply State.SameBut.mk <;> first | exact Base.Has.no | exact fun _ => rfl))

theorem keeps_admit {x0 : Base} [x0.Has .arrs] (s : State) (pf a win : Nat) (gs : List Nat) (margins : List Margin) (disagree : List Nat) (hk : x0.Keeps s) :
    x0.Keeps (State.countPlane s pf a win gs margins disagree) := by
  unfold State.countPlane
  with_reducible repeat' (first
    | exact hk | assumption | apply keeps_setParr | apply keeps_foldl_fst | apply keeps_foldl | apply keeps_ite | split
    | (intro _)
    | simp (disch := (apply State.SameBut.mk <;> first | exact Base.Has.no | exact fun _ => rfl)) only [keeps_mk]
    | (apply State.SameBut.mk <;> first | exact Base.Has.no | exact fun _ => rfl))

theorem keeps_planeExempt {x0 : Base} [x0.Has .regs] [x0.Has .arrs] [x0.Has .larrs] [x0.Has .fbPlaces] (s : State) (pf a : Nat) (p : Product) (sums : Tab Int) (hk : x0.Keeps s) :
    x0.Keeps (planeExempt s pf a p sums) := by
  unfold planeExempt
  with_reducible repeat' (first
    | exact hk | assumption | apply keeps_promoteGroups | apply keeps_settleNext
    | simp (disch := (apply State.SameBut.mk <;> first | exact Base.Has.no | exact fun _ => rfl)) only [keeps_mk]
    | (apply State.SameBut.mk <;> first | exact Base.Has.no | exact fun _ => rfl))

theorem keeps_planeOver {x0 : Base} [x0.Has .regs] [x0.Has .hbm] [x0.Has .arrs] [x0.Has .fbPlaces] [x0.Has .faults]
    [x0.Has .raises]
    (s : State) (pf a : Nat) (p : Product) (cs : List Nat) (dry : Bool) (hk : x0.Keeps s) :
    x0.Keeps (planeOver s pf a p cs dry) := by
  unfold planeOver
  with_reducible repeat' (first
    | exact hk | assumption | apply keeps_fenceConv | apply keeps_raise | apply keeps_setParr | apply keeps_bump
    | apply keeps_settleNext | apply keeps_foldl_fst | apply keeps_foldl | apply keeps_ite | split | (intro _)
    | simp (disch := (apply State.SameBut.mk <;> first | exact Base.Has.no | exact fun _ => rfl)) only [keeps_mk]
    | (apply State.SameBut.mk <;> first | exact Base.Has.no | exact fun _ => rfl))

theorem keeps_planeCheck {x0 : Base} [x0.Has .regs] [x0.Has .arrs] [x0.Has .larrs] [x0.Has .fbPlaces] [x0.Has .raises] (s : State) (pf a : Nat) (p : Product) (sums : Tab Int) (margins : List Margin) (disagree : List Nat) (inj : Bool) (hk : x0.Keeps s) :
    x0.Keeps (planeCheck s pf a p sums margins disagree inj) := by
  unfold planeCheck
  with_reducible repeat' (first
    | exact hk | assumption | apply keeps_admit | apply keeps_injDone | apply keeps_promoteGroups | apply keeps_bump
    | apply keeps_settleNext | apply keeps_ite | split | (intro _)
    | simp (disch := (apply State.SameBut.mk <;> first | exact Base.Has.no | exact fun _ => rfl)) only [keeps_mk]
    | (apply State.SameBut.mk <;> first | exact Base.Has.no | exact fun _ => rfl))

theorem keeps_execPlaneComplete {x0 : Base} [x0.Has .regs] [x0.Has .hbm] [x0.Has .arrs] [x0.Has .larrs] [x0.Has .fbPlaces]
    [x0.Has .faults] [x0.Has .raises]
    (pf arr : Nat) (errs : List ConvErr) (margins : List Margin) (disagree : List Nat) (s : State)
    (hk : x0.Keeps s) : KeepsRes x0 (execPlaneComplete pf arr errs margins disagree s) := by
  delta execPlaneComplete
  extract_lets +onlyGivenNames x
  cases x.run with
  | none => exact keepsRes_next hk
  | some p =>
    refine keepsRes_ite (keepsRes_next hk) ?_
    extract_lets +onlyGivenNames s1 lx s2 p
    have h1 : x0.Keeps s1 := keeps_bump _ _ _ _ hk
    have h2 : x0.Keeps s2 := keeps_ite h1 (keeps_setLarr _ _ _ _ h1)
    clear_value s2
    refine keepsRes_ite (keepsRes_next (keeps_settleNext _ _ _ _ h2)) ?_
    extract_lets +onlyGivenNames injOver e2 sums beyond cs s3 s4 dry s5
    have h4 : x0.Keeps s4 := keeps_countOver _ _ _ _ (keeps_setParr _ _ _ _ h2)
    have h5 : x0.Keeps s5 := keeps_ite (keeps_injDone _ h4) h4
    clear_value s5
    exact keepsRes_ite (keepsRes_next (keeps_planeExempt _ _ _ _ _ h5)) (keepsRes_ite (keepsRes_next (keeps_settleNext _ _ _ _ h5))
      (keepsRes_ite (keepsRes_next (keeps_planeOver _ _ _ _ _ _ h5)) (keepsRes_next (keeps_planeCheck _ _ _ _ _ _ _ _ h5))))
theorem keeps_execReplayComplete {x0 : Base} [x0.Has .regs] [x0.Has .hbm] [x0.Has .arrs] [x0.Has .larrs] [x0.Has .fbPlaces]
    [x0.Has .faults] [x0.Has .raises]
    (pf arr : Nat) (errs : List ConvErr) (s : State) (hk : x0.Keeps s) :
    KeepsRes x0 (execReplayComplete pf arr errs s) := by
  unfold execReplayComplete
  with_reducible repeat' (first
    | exact hk | assumption | apply keepsRes_next | apply keepsRes_ite | apply keeps_setConv | apply keeps_joinPlace
    | apply keeps_setParr | apply keeps_settleNext | apply keeps_countOver | apply keeps_bump | apply keeps_fenceConv
    | apply keeps_promoteGroups | apply keeps_countFree | apply keeps_injDone | apply keeps_foldl_fst | apply keeps_foldl
    | apply keeps_ite | split | (intro _)
    | simp (disch := (apply State.SameBut.mk <;> first | exact Base.Has.no | exact fun _ => rfl)) only [keeps_mk]
    | (apply State.SameBut.mk <;> first | exact Base.Has.no | exact fun _ => rfl))

theorem keeps_execExactFallbackStart {x0 : Base} [x0.Has .arrs] [x0.Has .fbPlaces] (pf arr : Nat) (s : State) (hk : x0.Keeps s) :
    KeepsRes x0 (execExactFallbackStart pf arr s) := by
  unfold execExactFallbackStart
  with_reducible repeat' (first
    | exact hk | assumption | apply keepsRes_next | apply keepsRes_ite | apply keeps_leavePlace | apply keeps_joinPlace
    | apply keeps_setParr | apply keeps_ite | split | (intro _)
    | simp (disch := (apply State.SameBut.mk <;> first | exact Base.Has.no | exact fun _ => rfl)) only [keeps_mk]
    | (apply State.SameBut.mk <;> first | exact Base.Has.no | exact fun _ => rfl))

theorem keeps_showWindow {x0 : Base} [x0.Has .regs] (s : State) (pf a : Nat) (hk : x0.Keeps s) :
    x0.Keeps (State.showWindow s pf a) := by
  unfold State.showWindow
  with_reducible repeat' (first
    | exact hk | assumption | apply keeps_wr | (intro _)
    | simp (disch := (apply State.SameBut.mk <;> first | exact Base.Has.no | exact fun _ => rfl)) only [keeps_mk])

theorem keeps_countFallback {x0 : Base} [x0.Has .regs] [x0.Has .hbm] [x0.Has .arrs] [x0.Has .faults] [x0.Has .raises] (s : State) (pf a : Nat) (p : Product) (g : Nat) (counted : Bool) (hk : x0.Keeps s) :
    x0.Keeps (State.countFallback s pf a p g counted) := by
  unfold State.countFallback
  with_reducible repeat' (first
    | exact hk | assumption | apply keeps_wr | apply keeps_showWindow | apply keeps_requestTakeover | apply keeps_raise
    | apply keeps_cper | apply keeps_setParr | apply keeps_bump | apply keeps_ite | split | (intro _)
    | simp (disch := (apply State.SameBut.mk <;> first | exact Base.Has.no | exact fun _ => rfl)) only [keeps_mk]
    | (apply State.SameBut.mk <;> first | exact Base.Has.no | exact fun _ => rfl))

theorem keeps_goldFail {x0 : Base} [x0.Has .regs] [x0.Has .hbm] [x0.Has .faults] [x0.Has .raises] (s : State) (pf n g : Nat) (hk : x0.Keeps s) :
    x0.Keeps (State.goldFail s pf n g) := by
  unfold State.goldFail
  with_reducible repeat' (first
    | exact hk | assumption | apply keeps_raise | apply keeps_cper | apply keeps_bump | (intro _)
    | simp (disch := (apply State.SameBut.mk <;> first | exact Base.Has.no | exact fun _ => rfl)) only [keeps_mk])

theorem keeps_execExactFallbackDone {x0 : Base} [x0.Has .regs] [x0.Has .hbm] [x0.Has .arrs] [x0.Has .larrs] [x0.Has .fbPlaces]
    [x0.Has .faults] [x0.Has .raises]
    (pf arr : Nat) (s : State) (hk : x0.Keeps s) :
    KeepsRes x0 (execExactFallbackDone pf arr s) := by
  unfold execExactFallbackDone
  with_reducible repeat' (first
    | exact hk | assumption | apply keepsRes_next | apply keepsRes_ite | apply keeps_raise | apply keeps_countFallback
    | apply keeps_leavePlace | apply keeps_settleNext | apply keeps_bump | apply keeps_setLarr | apply keeps_promoteGroups
    | apply keeps_cper | apply keeps_goldFail | apply keeps_injDone | apply keeps_ite | split | (intro _)
    | simp (disch := (apply State.SameBut.mk <;> first | exact Base.Has.no | exact fun _ => rfl)) only [keeps_mk]
    | apply keeps_mk_hbm_setPoison | (apply State.SameBut.mk <;> first | exact Base.Has.no | exact fun _ => rfl))

theorem keeps_execProductComplete {x0 : Base} [x0.Has .regs] [x0.Has .facets] [x0.Has .arrs] [x0.Has .larrs] (pf arr : Nat) (s : State) (hk : x0.Keeps s) :
    KeepsRes x0 (execProductComplete pf arr s) := by
  unfold execProductComplete
  with_reducible repeat' (first
    | exact hk | assumption | apply keepsRes_next | apply keepsRes_ite | apply keeps_launchDrains | apply keeps_wr
    | apply keeps_showWindow | apply keeps_setLarr | apply keeps_setParr | apply keeps_foldl_fst | apply keeps_foldl
    | apply keeps_ite | split | (intro _)
    | simp (disch := (apply State.SameBut.mk <;> first | exact Base.Has.no | exact fun _ => rfl)) only [keeps_mk]
    | (apply State.SameBut.mk <;> first | exact Base.Has.no | exact fun _ => rfl))

theorem keeps_execDrainRequestLatch {x0 : Base} [x0.Has .facets] (pf idx : Nat) (s : State) (hk : x0.Keeps s) :
    KeepsRes x0 (execDrainRequestLatch pf idx s) := by
  unfold execDrainRequestLatch
  with_reducible repeat' (first
    | exact hk | assumption | apply keepsRes_next | apply keepsRes_ite | apply keeps_launchDrains | apply keeps_asyncCore
    | apply keeps_ite | split | (intro _)
    | simp (disch := (apply State.SameBut.mk <;> first | exact Base.Has.no | exact fun _ => rfl)) only [keeps_mk]
    | (apply State.SameBut.mk <;> first | exact Base.Has.no | exact fun _ => rfl))

theorem keeps_execDrainVectorReturn {x0 : Base} [x0.Has .regs] [x0.Has .facets] (pf idx : Nat) (s : State) (hk : x0.Keeps s) :
    KeepsRes x0 (execDrainVectorReturn pf idx s) := by
  unfold execDrainVectorReturn
  with_reducible repeat' (first
    | exact hk | assumption | apply keepsRes_next | apply keepsRes_ite | apply keeps_bump | apply keeps_asyncCore
    | apply keeps_foldl_fst | apply keeps_foldl | apply keeps_ite | split | (intro _)
    | simp (disch := (apply State.SameBut.mk <;> first | exact Base.Has.no | exact fun _ => rfl)) only [keeps_mk]
    | (apply State.SameBut.mk <;> first | exact Base.Has.no | exact fun _ => rfl))

theorem keeps_execArrMapWrite {x0 : Base} [x0.Has .regs] [x0.Has .larrs] [x0.Has .raises] (pf n value : Nat) (s : State) (hk : x0.Keeps s) :
    KeepsRes x0 (execArrMapWrite pf n value s) := by
  unfold execArrMapWrite
  with_reducible repeat' (first
    | exact hk | assumption | apply keepsRes_next | apply keepsRes_ite | apply keeps_wr | apply keeps_setLarr
    | apply keeps_mapReject | apply keeps_ite | split | (intro _)
    | simp (disch := (apply State.SameBut.mk <;> first | exact Base.Has.no | exact fun _ => rfl)) only [keeps_mk]
    | (apply State.SameBut.mk <;> first | exact Base.Has.no | exact fun _ => rfl))

theorem keeps_execBindingApply {x0 : Base} [x0.Has .regs] [x0.Has .hbm] [x0.Has .arrs] [x0.Has .larrs] [x0.Has .staged]
    [x0.Has .faults] [x0.Has .raises]
    (pf n : Nat) (s : State) (hk : x0.Keeps s) :
    KeepsRes x0 (execBindingApply pf n s) := by
  unfold execBindingApply
  with_reducible repeat' (first
    | exact hk | assumption | apply keepsRes_next | apply keepsRes_ite | apply keeps_wr | apply keeps_setLarr
    | apply keeps_mapReject | apply keeps_bindArray | apply keeps_ite | split | (intro _)
    | simp (disch := (apply State.SameBut.mk <;> first | exact Base.Has.no | exact fun _ => rfl)) only [keeps_mk]
    | (apply State.SameBut.mk <;> first | exact Base.Has.no | exact fun _ => rfl))

theorem keeps_execApCeilingWrite {x0 : Base} [x0.Has .regs] (pf value : Nat) (s : State) (hk : x0.Keeps s) :
    KeepsRes x0 (execApCeilingWrite pf value s) := by
  unfold execApCeilingWrite
  with_reducible repeat' (first
    | exact hk | assumption | apply keepsRes_next | apply keepsRes_ite | apply keeps_wr | apply keeps_ite | split
    | (intro _)
    | simp (disch := (apply State.SameBut.mk <;> first | exact Base.Has.no | exact fun _ => rfl)) only [keeps_mk])

theorem keeps_execArrWinSelWrite {x0 : Base} [x0.Has .regs] [x0.Has .raises] (pf value : Nat) (s : State) (hk : x0.Keeps s) :
    KeepsRes x0 (execArrWinSelWrite pf value s) := by
  unfold execArrWinSelWrite
  with_reducible repeat' (first
    | exact hk | assumption | apply keepsRes_next | apply keepsRes_ite | apply keeps_wr | apply keeps_mapReject
    | apply keeps_ite | split)

theorem keeps_execConvMapWrite {x0 : Base} [x0.Has .regs] [x0.Has .arrs] [x0.Has .raises] (pf n value : Nat) (s : State) (hk : x0.Keeps s) :
    KeepsRes x0 (execConvMapWrite pf n value s) := by
  unfold execConvMapWrite
  with_reducible repeat' (first
    | exact hk | assumption | apply keepsRes_next | apply keepsRes_ite | apply keeps_wr | apply keeps_mapReject
    | apply keeps_setParr | apply keeps_ite | split | (intro _)
    | simp (disch := (apply State.SameBut.mk <;> first | exact Base.Has.no | exact fun _ => rfl)) only [keeps_mk]
    | (apply State.SameBut.mk <;> first | exact Base.Has.no | exact fun _ => rfl))

theorem keeps_applyMap {x0 : Base} [x0.Has .regs] (s : State) (pf a n c : Nat) (hk : x0.Keeps s) :
    x0.Keeps (State.applyMap s pf a n c) := by
  unfold State.applyMap
  with_reducible repeat' (first
    | exact hk | assumption | apply keeps_wr | apply keeps_setConv | apply keeps_ite | split | (intro _)
    | simp (disch := (apply State.SameBut.mk <;> first | exact Base.Has.no | exact fun _ => rfl)) only [keeps_mk])

theorem keeps_execConvMapApply {x0 : Base} [x0.Has .regs] [x0.Has .arrs] (pf arr : Nat) (s : State) (hk : x0.Keeps s) :
    KeepsRes x0 (execConvMapApply pf arr s) := by
  unfold execConvMapApply
  with_reducible repeat' (first
    | exact hk | assumption | apply keepsRes_next | apply keepsRes_ite | apply keeps_setParr | apply keeps_countFree
    | apply keeps_applyMap | apply keeps_foldl_fst | apply keeps_foldl | apply keeps_ite | split | (intro _)
    | simp (disch := (apply State.SameBut.mk <;> first | exact Base.Has.no | exact fun _ => rfl)) only [keeps_mk]
    | (apply State.SameBut.mk <;> first | exact Base.Has.no | exact fun _ => rfl))

theorem keeps_queueFence {x0 : Base} [x0.Has .arrs] (s : State) (pf a n : Nat) (hk : x0.Keeps s) :
    x0.Keeps (State.queueFence s pf a n) := by
  unfold State.queueFence
  with_reducible repeat' (first
    | exact hk | assumption | apply keeps_setParr | apply keeps_ite | split | (intro _)
    | simp (disch := (apply State.SameBut.mk <;> first | exact Base.Has.no | exact fun _ => rfl)) only [keeps_mk]
    | (apply State.SameBut.mk <;> first | exact Base.Has.no | exact fun _ => rfl))

theorem keeps_execConvFenceWrite {x0 : Base} [x0.Has .regs] [x0.Has .arrs] [x0.Has .raises] (pf n : Nat) (s : State) (hk : x0.Keeps s) :
    KeepsRes x0 (execConvFenceWrite pf n s) := by
  unfold execConvFenceWrite
  with_reducible repeat' (first
    | exact hk | assumption | apply keepsRes_next | apply keepsRes_ite | apply keeps_mapReject | apply keeps_queueFence
    | apply keeps_ite | split | (intro _)
    | simp (disch := (apply State.SameBut.mk <;> first | exact Base.Has.no | exact fun _ => rfl)) only [keeps_mk])

theorem keeps_execConverterFenceApply {x0 : Base} [x0.Has .regs] [x0.Has .hbm] [x0.Has .arrs] [x0.Has .faults] [x0.Has .raises] (pf arr : Nat) (s : State) (hk : x0.Keeps s) :
    KeepsRes x0 (execConverterFenceApply pf arr s) := by
  unfold execConverterFenceApply
  with_reducible repeat' (first
    | exact hk | assumption | apply keepsRes_next | apply keepsRes_ite | apply keeps_fenceConv | apply keeps_setParr
    | apply keeps_foldl_fst | apply keeps_foldl | apply keeps_ite | split | (intro _)
    | simp (disch := (apply State.SameBut.mk <;> first | exact Base.Has.no | exact fun _ => rfl)) only [keeps_mk]
    | (apply State.SameBut.mk <;> first | exact Base.Has.no | exact fun _ => rfl))

theorem keeps_clearOutliers {x0 : Base} [x0.Has .larrs] (s : State) (pf : Nat) (j : OutJob) (hk : x0.Keeps s) :
    x0.Keeps (State.clearOutliers s pf j) := by
  unfold State.clearOutliers
  with_reducible repeat' (first
    | exact hk | assumption | apply keeps_setLarr | apply keeps_foldl_fst | apply keeps_foldl | apply keeps_ite | split
    | (intro _)
    | simp (disch := (apply State.SameBut.mk <;> first | exact Base.Has.no | exact fun _ => rfl)) only [keeps_mk]
    | (apply State.SameBut.mk <;> first | exact Base.Has.no | exact fun _ => rfl))

theorem keeps_addRow {x0 : Base} [x0.Has .larrs] (s : State) (pf : Nat) (j : OutJob) (x : Nat) (rows : Nat → Option (Tab Int)) (hk : x0.Keeps s) :
    x0.Keeps (State.addRow s pf j x rows) := by
  unfold State.addRow
  with_reducible repeat' (first
    | exact hk | assumption | apply keeps_setLarr | apply keeps_foldl_fst | apply keeps_foldl | apply keeps_ite | split
    | (intro _)
    | simp (disch := (apply State.SameBut.mk <;> first | exact Base.Has.no | exact fun _ => rfl)) only [keeps_mk])

theorem keeps_nextOutRow {x0 : Base} [x0.Has .facets] [x0.Has .outJobs] (s : State) (pf : Nat) (j : OutJob) (rest : List OutJob) (hk : x0.Keeps s) :
    x0.Keeps (State.nextOutRow s pf j rest) := by
  unfold State.nextOutRow
  with_reducible repeat' (first
    | exact hk | assumption | apply keeps_launchDrains | apply keeps_ite | split | (intro _)
    | simp (disch := (apply State.SameBut.mk <;> first | exact Base.Has.no | exact fun _ => rfl)) only [keeps_mk]
    | (apply State.SameBut.mk <;> first | exact Base.Has.no | exact fun _ => rfl))

theorem keeps_execOutlierRowRead {x0 : Base} [x0.Has .regs] [x0.Has .facets] [x0.Has .larrs] [x0.Has .outJobs] (pf : Nat) (bad1 bad2 : List Nat) (s : State) (hk : x0.Keeps s) :
    KeepsRes x0 (execOutlierRowRead pf bad1 bad2 s) := by
  unfold execOutlierRowRead
  with_reducible repeat' (first
    | exact hk | assumption | apply keepsRes_next | apply keepsRes_ite | apply keeps_nextOutRow | apply keeps_addRow
    | apply keeps_bump | apply keeps_clearOutliers | apply keeps_ite | split | (intro _)
    | simp (disch := (apply State.SameBut.mk <;> first | exact Base.Has.no | exact fun _ => rfl)) only [keeps_mk]
    | (apply State.SameBut.mk <;> first | exact Base.Has.no | exact fun _ => rfl))

theorem keeps_execOutlierGoldRow {x0 : Base} [x0.Has .regs] [x0.Has .hbm] [x0.Has .facets] [x0.Has .larrs] [x0.Has .outJobs]
    [x0.Has .faults] [x0.Has .raises]
    (pf : Nat) (s : State) (hk : x0.Keeps s) :
    KeepsRes x0 (execOutlierGoldRow pf s) := by
  unfold execOutlierGoldRow
  with_reducible repeat' (first
    | exact hk | assumption | apply keepsRes_next | apply keepsRes_ite | apply keeps_setLarr | apply keeps_goldFail
    | apply keeps_nextOutRow | apply keeps_addRow | apply keeps_bump | apply keeps_foldl_fst | apply keeps_foldl
    | apply keeps_ite | split | (intro _)
    | simp (disch := (apply State.SameBut.mk <;> first | exact Base.Has.no | exact fun _ => rfl)) only [keeps_mk]
    | apply keeps_mk_hbm_setPoison | (apply State.SameBut.mk <;> first | exact Base.Has.no | exact fun _ => rfl))

theorem keeps_execChkWinSelWrite {x0 : Base} [x0.Has .regs] (pf value : Nat) (s : State) (hk : x0.Keeps s) :
    KeepsRes x0 (execChkWinSelWrite pf value s) := by
  unfold execChkWinSelWrite
  with_reducible repeat' (first
    | exact hk | assumption | apply keepsRes_next | apply keepsRes_ite | apply keeps_wr | apply keeps_ite | split)

theorem keeps_execCheckWindowWrite {x0 : Base} [x0.Has .larrs] (pf word value : Nat) (s : State) (hk : x0.Keeps s) :
    KeepsRes x0 (execCheckWindowWrite pf word value s) := by
  unfold execCheckWindowWrite
  with_reducible repeat' (first
    | exact hk | assumption | apply keepsRes_next | apply keepsRes_ite | apply keeps_setLarr | apply keeps_ite | split
    | (intro _)
    | simp (disch := (apply State.SameBut.mk <;> first | exact Base.Has.no | exact fun _ => rfl)) only [keeps_mk]
    | (apply State.SameBut.mk <;> first | exact Base.Has.no | exact fun _ => rfl))

end Sys2Proof.Machine
end

