-- ==== Sys2Proof/Laws/KeepsFacets.lean ====
section
/-! SUPPORT. What the operations of KvOps Takeover TensorOps Scalar Tensor Movement Sync FacetCtl keep (State.Keeps). -/

set_option linter.unusedSimpArgs false

namespace Sys2Proof.Machine

theorem keeps_setPage {x0 : Base} [x0.Has .hbm] (s : State) (sv x : Nat) (d : PageDesc) (hk : x0.Keeps s) :
    x0.Keeps (State.setPage s sv x d) := by
  unfold State.setPage
  with_reducible repeat' (first | exact hk | assumption | apply keeps_hbmWrite)

theorem keeps_setFree {x0 : Base} [x0.Has .regs] [x0.Has .kv] (s : State) (sv : Nat) (l : List Nat) (hk : x0.Keeps s) :
    x0.Keeps (State.setFree s sv l) := by
  unfold State.setFree
  with_reducible repeat' (first
    | exact hk | assumption | apply keeps_wr
    | simp (disch := (apply State.SameBut.mk <;> first | exact Base.Has.no | exact fun _ => rfl)) only [keeps_mk]
    | apply keeps_mk_free | (apply State.SameBut.mk <;> first | exact Base.Has.no | exact fun _ => rfl))

theorem keeps_drawPage {x0 : Base} [x0.Has .regs] [x0.Has .hbm] [x0.Has .kv] (s : State) (sv st flags epoch : Nat) (hk : x0.Keeps s) (p : State × Nat)
    (e : s.drawPage sv st flags epoch = some p) : x0.Keeps p.1 := by
  unfold State.drawPage at e
  split at e
  · cases e
  · cases e
    with_reducible repeat' (first | exact hk | assumption | apply keeps_setPage | apply keeps_setFree | apply keeps_setReg | apply keeps_setFacet | apply keeps_foldl_fst | apply keeps_foldl | apply keeps_ite | split | (intro _) | simp (disch := (apply State.SameBut.mk <;> first | exact Base.Has.no | exact fun _ => rfl)) only [keeps_mk] | apply keeps_mk_free | apply keeps_mk_hbm_setPoison | apply keeps_mk_hub_setPoison | apply keeps_mk_hub_write2 | apply keeps_mk_hub_writeByte | apply keeps_mk_hub_write | (apply State.SameBut.mk <;> first | exact Base.Has.no | exact fun _ => rfl))
theorem keeps_freePage {x0 : Base} [x0.Has .regs] [x0.Has .hbm] [x0.Has .kv] (s : State) (sv x : Nat) (hk : x0.Keeps s) :
    x0.Keeps (State.freePage s sv x) := by
  unfold State.freePage
  with_reducible repeat' (first
    | exact hk | assumption | apply keeps_setFree | apply keeps_setPage | (intro _)
    | simp (disch := (apply State.SameBut.mk <;> first | exact Base.Has.no | exact fun _ => rfl)) only [keeps_mk])

theorem keeps_dropRef {x0 : Base} [x0.Has .regs] [x0.Has .hbm] [x0.Has .kv] (s : State) (sv x : Nat) (hk : x0.Keeps s) :
    x0.Keeps (State.dropRef s sv x) := by
  unfold State.dropRef
  with_reducible repeat' (first
    | exact hk | assumption | apply keeps_setPage | apply keeps_freePage | apply keeps_ite | split | (intro _)
    | simp (disch := (apply State.SameBut.mk <;> first | exact Base.Has.no | exact fun _ => rfl)) only [keeps_mk]
    | (apply State.SameBut.mk <;> first | exact Base.Has.no | exact fun _ => rfl))

theorem keeps_sectorRead {x0 : Base} [x0.Has .regs] [x0.Has .hbm] [x0.Has .faults] [x0.Has .raises] (s : State) (kind num a : Nat) (hk : x0.Keeps s) : x0.Keeps (s.sectorRead kind num a).1 := by
  unfold State.sectorRead
  have plain : ∀ t : State, x0.Keeps t → x0.Keeps (
      if t.hbmLost a then (t, List.replicate 64 0, true)
      else if t.faults.hbmUe.contains (a / 64) then
        let t := { t with hbm := t.hbm.setPoison (a / 64) true, faults := { t.faults with hbmUe := t.faults.hbmUe.filter (fun k => decide (k ≠ a / 64)) } }
        let t := t.cper ⟨clsContained, 0x0F, false, false, false, false, unitDesc 0x0B (a / 2 ^ 37) (a % 2 ^ 37 / 2 ^ 33) 0, 0, 0xFFFF, 0xFFFF,
          0x1C6, toBytes 8 a ++ toBytes 8 0⟩
        (t, t.hbm.read a 64, true)
      else if t.faults.hbmCe.contains (a / 64) then
        let t := { t with faults := { t.faults with hbmCe := t.faults.hbmCe.filter (fun k => decide (k ≠ a / 64)) } }
        (t.bump .FLT_STAT F.FLT_STAT.hbm_ce 1, t.hbm.read a 64, t.hbm.isPoison (a / 64))
      else (t, t.hbm.read a 64, t.hbm.isPoison (a / 64)) : State × List Byte × Bool).1 := by
    intro t hk
    with_reducible repeat' (first | exact hk | assumption | apply keeps_cper | apply keeps_bump | apply keeps_setReg | apply keeps_setFacet | apply keeps_foldl_fst | apply keeps_foldl | apply keeps_ite | split | (intro _) | simp (disch := (apply State.SameBut.mk <;> first | exact Base.Has.no | exact fun _ => rfl)) only [keeps_mk] | apply keeps_mk_free | apply keeps_mk_hbm_setPoison | apply keeps_mk_hub_setPoison | apply keeps_mk_hub_write2 | apply keeps_mk_hub_writeByte | apply keeps_mk_hub_write | (apply State.SameBut.mk <;> first | exact Base.Has.no | exact fun _ => rfl))
  dsimp only
  have mid : ∀ r : State × List Byte × Bool, x0.Keeps r.1 →
      x0.Keeps (if r.2.2 then (r.1.poisonSeen kind num a, r.2) else r).1 := by
    intro r hr
    split
    · exact keeps_poisonSeen _ _ _ _ hr
    · exact hr
  refine mid _ ?_
  split
  · split
    · exact plain s hk
    · exact keeps_bump _ _ _ _ hk
  · split
    · split
      · split
        · exact keeps_poisonSeen _ _ _ _ hk
        · exact hk
      · exact plain s hk
    · exact plain s hk
theorem keeps_sectorsRead {x0 : Base} [x0.Has .regs] [x0.Has .hbm] [x0.Has .faults] [x0.Has .raises] (kind num n : Nat) : ∀ (s : State) (a : Nat), x0.Keeps s →
    x0.Keeps (s.sectorsRead kind num a n).1 := by
  induction n with
  | zero => intro s a hk; exact hk
  | succ n ih => intro s a hk; exact ih _ _ (keeps_sectorRead _ _ _ _ hk)
theorem keeps_sectorWrite {x0 : Base} [x0.Has .regs] [x0.Has .hbm] (s : State) (a : Nat) (bs : List Byte) (poison : Bool) (hk : x0.Keeps s) :
    x0.Keeps (State.sectorWrite s a bs poison).1 := by
  unfold State.sectorWrite
  with_reducible repeat' (first
    | exact hk | assumption | apply keeps_hbmWrite | apply keeps_bump | apply keeps_ite | split | (intro _)
    | simp (disch := (apply State.SameBut.mk <;> first | exact Base.Has.no | exact fun _ => rfl)) only [keeps_mk]
    | (apply State.SameBut.mk <;> first | exact Base.Has.no | exact fun _ => rfl))

theorem keeps_sectorsWrite {x0 : Base} [x0.Has .regs] [x0.Has .hbm] (l : List (List Byte × Bool)) : ∀ (s : State) (a : Nat), x0.Keeps s →
    x0.Keeps (s.sectorsWrite a l).1 := by
  induction l with
  | nil => intro s a hk; exact hk
  | cons b t ih => intro s a hk; exact ih _ _ (keeps_sectorWrite _ _ _ _ hk)
theorem keeps_failSteps {x0 : Base} [x0.Has .noc] [x0.Has .serve] (s : State) (pf : Nat) (hk : x0.Keeps s) :
    x0.Keeps (State.failSteps s pf) := by
  unfold State.failSteps
  with_reducible repeat' (first
    | exact hk | assumption | (intro _)
    | simp (disch := (apply State.SameBut.mk <;> first | exact Base.Has.no | exact fun _ => rfl)) only [keeps_mk]
    | (apply State.SameBut.mk <;> first | exact Base.Has.no | exact fun _ => rfl))

theorem keeps_dropStaged {x0 : Base} [x0.Has .regs] [x0.Has .staged] (s : State) (pf : Nat) (hk : x0.Keeps s) :
    x0.Keeps (State.dropStaged s pf) := by
  unfold State.dropStaged
  with_reducible repeat' (first
    | exact hk | assumption | apply keeps_setArrState | apply keeps_wr | apply keeps_stagedLost | apply keeps_foldl_fst
    | apply keeps_foldl | apply keeps_ite | split | (intro _)
    | simp (disch := (apply State.SameBut.mk <;> first | exact Base.Has.no | exact fun _ => rfl)) only [keeps_mk]
    | (apply State.SameBut.mk <;> first | exact Base.Has.no | exact fun _ => rfl))

theorem keeps_dropRun {x0 : Base} [x0.Has .regions] (s : State) (g : Nat) (hk : x0.Keeps s) :
    x0.Keeps (State.dropRun s g) := by
  unfold State.dropRun
  with_reducible repeat' (first
    | exact hk | assumption | apply keeps_setRegion
    | simp (disch := (apply State.SameBut.mk <;> first | exact Base.Has.no | exact fun _ => rfl)) only [keeps_mk]
    | (apply State.SameBut.mk <;> first | exact Base.Has.no | exact fun _ => rfl))

theorem keeps_voidRun {x0 : Base} [x0.Has .regs] [x0.Has .regions] (s : State) (g : Nat) (hk : x0.Keeps s) :
    x0.Keeps (State.voidRun s g) := by
  unfold State.voidRun
  with_reducible repeat' (first
    | exact hk | assumption | apply keeps_bump | apply keeps_dropRun | apply keeps_ite | split)

theorem keeps_fenceFacet {x0 : Base} [x0.Has .regs] [x0.Has .hbm] [x0.Has .facets] [x0.Has .staged] [x0.Has .regions]
    [x0.Has .faults] [x0.Has .noc] [x0.Has .serve] [x0.Has .raises]
    (s : State) (pf cause : Nat) (payload : List Byte) (hk : x0.Keeps s) :
    x0.Keeps (State.fenceFacet s pf cause payload) := by
  unfold State.fenceFacet
  with_reducible repeat' (first
    | exact hk | assumption | apply keeps_failSteps | apply keeps_fenceReport | apply keeps_wr | apply keeps_dropRun
    | apply keeps_raise | apply keeps_dropStaged | apply keeps_voidRun | apply keeps_setFacet | apply keeps_setFacet
    | apply keeps_ite | split | (intro _)
    | simp (disch := (apply State.SameBut.mk <;> first | exact Base.Has.no | exact fun _ => rfl)) only [keeps_mk]
    | (apply State.SameBut.mk <;> first | exact Base.Has.no | exact fun _ => rfl))

theorem keeps_fenceShadow {x0 : Base} [x0.Has .regs] [x0.Has .hbm] [x0.Has .facets] [x0.Has .faults] [x0.Has .raises] (s : State) (pf cause : Nat) (hk : x0.Keeps s) :
    x0.Keeps (State.fenceShadow s pf cause) := by
  unfold State.fenceShadow
  with_reducible repeat' (first
    | exact hk | assumption | apply keeps_wr | apply keeps_recordFence | apply keeps_setFacet | apply keeps_setFacet
    | apply keeps_ite | split | (intro _)
    | simp (disch := (apply State.SameBut.mk <;> first | exact Base.Has.no | exact fun _ => rfl)) only [keeps_mk]
    | (apply State.SameBut.mk <;> first | exact Base.Has.no | exact fun _ => rfl))

theorem keeps_closeSession {x0 : Base} [x0.Has .regs] [x0.Has .facets] (s : State) (pf : Nat) (hk : x0.Keeps s) :
    x0.Keeps (State.closeSession s pf) := by
  unfold State.closeSession
  with_reducible repeat' (first
    | exact hk | assumption | apply keeps_asyncCore | apply keeps_bump | apply keeps_ite | split | (intro _)
    | simp (disch := (apply State.SameBut.mk <;> first | exact Base.Has.no | exact fun _ => rfl)) only [keeps_mk]
    | (apply State.SameBut.mk <;> first | exact Base.Has.no | exact fun _ => rfl))

theorem keeps_srSlot {x0 : Base} [x0.Has .regs] [x0.Has .hbm] [x0.Has .facets] [x0.Has .arrs] [x0.Has .larrs]
    [x0.Has .outJobs] [x0.Has .staged] [x0.Has .regions] [x0.Has .loader] [x0.Has .faults]
    [x0.Has .link] [x0.Has .noc] [x0.Has .raises] [x0.Has .out]
    (h : Hdr) (rd ra rb : Nat) (ctl : Bool) (op : Word64 → Word64 → Word64) (s : State) (hk : x0.Keeps s) :
    x0.Keeps (srSlot h rd ra rb ctl op s) := by
  unfold srSlot
  with_reducible repeat' (first | exact hk | assumption | apply keeps_coreSlot)

theorem keeps_siSlot {x0 : Base} [x0.Has .regs] [x0.Has .hbm] [x0.Has .facets] [x0.Has .arrs] [x0.Has .larrs]
    [x0.Has .outJobs] [x0.Has .staged] [x0.Has .regions] [x0.Has .loader] [x0.Has .faults]
    [x0.Has .link] [x0.Has .noc] [x0.Has .raises] [x0.Has .out]
    (h : Hdr) (rd ra imm : Nat) (illegal : Bool) (op : Word64 → Word64 → Word64) (s : State) (hk : x0.Keeps s) :
    x0.Keeps (siSlot h rd ra imm illegal op s) := by
  unfold siSlot
  with_reducible repeat' (first | exact hk | assumption | apply keeps_coreSlot)

theorem keeps_predSlot {x0 : Base} [x0.Has .regs] [x0.Has .hbm] [x0.Has .facets] [x0.Has .arrs] [x0.Has .larrs]
    [x0.Has .outJobs] [x0.Has .staged] [x0.Has .regions] [x0.Has .loader] [x0.Has .faults]
    [x0.Has .link] [x0.Has .noc] [x0.Has .raises] [x0.Has .out]
    (h : Hdr) (pd : Nat) (illegal : Bool) (waits : FCore → List (Option Nat)) (bad : FCore → Bool) (val : FCore → PReg) (s : State) (hk : x0.Keeps s) :
    x0.Keeps (predSlot h pd illegal waits bad val s) := by
  unfold predSlot
  with_reducible repeat' (first | exact hk | assumption | apply keeps_coreSlot)

theorem keeps_execNop {x0 : Base} [x0.Has .regs] [x0.Has .hbm] [x0.Has .facets] [x0.Has .arrs] [x0.Has .larrs]
    [x0.Has .outJobs] [x0.Has .staged] [x0.Has .regions] [x0.Has .loader] [x0.Has .faults]
    [x0.Has .link] [x0.Has .noc] [x0.Has .raises] [x0.Has .out]
    (h : Hdr) (s : State) (hk : x0.Keeps s) :
    KeepsRes x0 (execNop h s) := by
  unfold execNop
  with_reducible repeat' (first | exact hk | assumption | apply keepsRes_next | apply keeps_coreSlot)

theorem keeps_execBr {x0 : Base} [x0.Has .regs] [x0.Has .hbm] [x0.Has .facets] [x0.Has .arrs] [x0.Has .larrs]
    [x0.Has .outJobs] [x0.Has .staged] [x0.Has .regions] [x0.Has .loader] [x0.Has .faults]
    [x0.Has .link] [x0.Has .noc] [x0.Has .raises] [x0.Has .out]
    (h : Hdr) (target : Nat) (s : State) (hk : x0.Keeps s) :
    KeepsRes x0 (execBr h target s) := by
  unfold execBr
  with_reducible repeat' (first
    | exact hk | assumption | apply keepsRes_next | apply keeps_coreSlot
    | simp (disch := (apply State.SameBut.mk <;> first | exact Base.Has.no | exact fun _ => rfl)) only [keeps_mk]
    | (apply State.SameBut.mk <;> first | exact Base.Has.no | exact fun _ => rfl))

theorem keeps_execLoop {x0 : Base} [x0.Has .regs] [x0.Has .hbm] [x0.Has .facets] [x0.Has .arrs] [x0.Has .larrs]
    [x0.Has .outJobs] [x0.Has .staged] [x0.Has .regions] [x0.Has .loader] [x0.Has .faults]
    [x0.Has .link] [x0.Has .noc] [x0.Has .raises] [x0.Has .out]
    (h : Hdr) (cnt last : Nat) (s : State) (hk : x0.Keeps s) :
    KeepsRes x0 (execLoop h cnt last s) := by
  unfold execLoop
  with_reducible repeat' (first
    | exact hk | assumption | apply keepsRes_next | apply keepsRes_ite | apply keeps_coreSlot | apply keeps_ite | split
    | (intro _)
    | simp (disch := (apply State.SameBut.mk <;> first | exact Base.Has.no | exact fun _ => rfl)) only [keeps_mk]
    | (apply State.SameBut.mk <;> first | exact Base.Has.no | exact fun _ => rfl))

theorem keeps_execHalt {x0 : Base} [x0.Has .regs] [x0.Has .hbm] [x0.Has .facets] [x0.Has .arrs] [x0.Has .larrs]
    [x0.Has .outJobs] [x0.Has .staged] [x0.Has .regions] [x0.Has .loader] [x0.Has .faults]
    [x0.Has .link] [x0.Has .noc] [x0.Has .raises] [x0.Has .out]
    (h : Hdr) (s : State) (hk : x0.Keeps s) :
    KeepsRes x0 (execHalt h s) := by
  unfold execHalt
  with_reducible repeat' (first
    | exact hk | assumption | apply keepsRes_next | apply keeps_coreSlot
    | simp (disch := (apply State.SameBut.mk <;> first | exact Base.Has.no | exact fun _ => rfl)) only [keeps_mk]
    | (apply State.SameBut.mk <;> first | exact Base.Has.no | exact fun _ => rfl))

theorem keeps_execAdd {x0 : Base} [x0.Has .regs] [x0.Has .hbm] [x0.Has .facets] [x0.Has .arrs] [x0.Has .larrs]
    [x0.Has .outJobs] [x0.Has .staged] [x0.Has .regions] [x0.Has .loader] [x0.Has .faults]
    [x0.Has .link] [x0.Has .noc] [x0.Has .raises] [x0.Has .out]
    (h : Hdr) (rd ra rb : Nat) (s : State) (hk : x0.Keeps s) :
    KeepsRes x0 (execAdd h rd ra rb s) := by
  unfold execAdd
  with_reducible repeat' (first | exact hk | assumption | apply keepsRes_next | apply keeps_srSlot)

theorem keeps_execSub {x0 : Base} [x0.Has .regs] [x0.Has .hbm] [x0.Has .facets] [x0.Has .arrs] [x0.Has .larrs]
    [x0.Has .outJobs] [x0.Has .staged] [x0.Has .regions] [x0.Has .loader] [x0.Has .faults]
    [x0.Has .link] [x0.Has .noc] [x0.Has .raises] [x0.Has .out]
    (h : Hdr) (rd ra rb : Nat) (s : State) (hk : x0.Keeps s) :
    KeepsRes x0 (execSub h rd ra rb s) := by
  unfold execSub
  with_reducible repeat' (first | exact hk | assumption | apply keepsRes_next | apply keeps_srSlot)

theorem keeps_execAnd {x0 : Base} [x0.Has .regs] [x0.Has .hbm] [x0.Has .facets] [x0.Has .arrs] [x0.Has .larrs]
    [x0.Has .outJobs] [x0.Has .staged] [x0.Has .regions] [x0.Has .loader] [x0.Has .faults]
    [x0.Has .link] [x0.Has .noc] [x0.Has .raises] [x0.Has .out]
    (h : Hdr) (rd ra rb : Nat) (s : State) (hk : x0.Keeps s) :
    KeepsRes x0 (execAnd h rd ra rb s) := by
  unfold execAnd
  with_reducible repeat' (first | exact hk | assumption | apply keepsRes_next | apply keeps_srSlot)

theorem keeps_execOr {x0 : Base} [x0.Has .regs] [x0.Has .hbm] [x0.Has .facets] [x0.Has .arrs] [x0.Has .larrs]
    [x0.Has .outJobs] [x0.Has .staged] [x0.Has .regions] [x0.Has .loader] [x0.Has .faults]
    [x0.Has .link] [x0.Has .noc] [x0.Has .raises] [x0.Has .out]
    (h : Hdr) (rd ra rb : Nat) (s : State) (hk : x0.Keeps s) :
    KeepsRes x0 (execOr h rd ra rb s) := by
  unfold execOr
  with_reducible repeat' (first | exact hk | assumption | apply keepsRes_next | apply keeps_srSlot)

theorem keeps_execXor {x0 : Base} [x0.Has .regs] [x0.Has .hbm] [x0.Has .facets] [x0.Has .arrs] [x0.Has .larrs]
    [x0.Has .outJobs] [x0.Has .staged] [x0.Has .regions] [x0.Has .loader] [x0.Has .faults]
    [x0.Has .link] [x0.Has .noc] [x0.Has .raises] [x0.Has .out]
    (h : Hdr) (rd ra rb : Nat) (s : State) (hk : x0.Keeps s) :
    KeepsRes x0 (execXor h rd ra rb s) := by
  unfold execXor
  with_reducible repeat' (first | exact hk | assumption | apply keepsRes_next | apply keeps_srSlot)

theorem keeps_execShl {x0 : Base} [x0.Has .regs] [x0.Has .hbm] [x0.Has .facets] [x0.Has .arrs] [x0.Has .larrs]
    [x0.Has .outJobs] [x0.Has .staged] [x0.Has .regions] [x0.Has .loader] [x0.Has .faults]
    [x0.Has .link] [x0.Has .noc] [x0.Has .raises] [x0.Has .out]
    (h : Hdr) (rd ra rb : Nat) (s : State) (hk : x0.Keeps s) :
    KeepsRes x0 (execShl h rd ra rb s) := by
  unfold execShl
  with_reducible repeat' (first | exact hk | assumption | apply keepsRes_next | apply keeps_srSlot)

theorem keeps_execShr {x0 : Base} [x0.Has .regs] [x0.Has .hbm] [x0.Has .facets] [x0.Has .arrs] [x0.Has .larrs]
    [x0.Has .outJobs] [x0.Has .staged] [x0.Has .regions] [x0.Has .loader] [x0.Has .faults]
    [x0.Has .link] [x0.Has .noc] [x0.Has .raises] [x0.Has .out]
    (h : Hdr) (rd ra rb : Nat) (s : State) (hk : x0.Keeps s) :
    KeepsRes x0 (execShr h rd ra rb s) := by
  unfold execShr
  with_reducible repeat' (first | exact hk | assumption | apply keepsRes_next | apply keeps_srSlot)

theorem keeps_execSra {x0 : Base} [x0.Has .regs] [x0.Has .hbm] [x0.Has .facets] [x0.Has .arrs] [x0.Has .larrs]
    [x0.Has .outJobs] [x0.Has .staged] [x0.Has .regions] [x0.Has .loader] [x0.Has .faults]
    [x0.Has .link] [x0.Has .noc] [x0.Has .raises] [x0.Has .out]
    (h : Hdr) (rd ra rb : Nat) (s : State) (hk : x0.Keeps s) :
    KeepsRes x0 (execSra h rd ra rb s) := by
  unfold execSra
  with_reducible repeat' (first | exact hk | assumption | apply keepsRes_next | apply keeps_srSlot)

theorem keeps_execMul {x0 : Base} [x0.Has .regs] [x0.Has .hbm] [x0.Has .facets] [x0.Has .arrs] [x0.Has .larrs]
    [x0.Has .outJobs] [x0.Has .staged] [x0.Has .regions] [x0.Has .loader] [x0.Has .faults]
    [x0.Has .link] [x0.Has .noc] [x0.Has .raises] [x0.Has .out]
    (h : Hdr) (rd ra rb : Nat) (s : State) (hk : x0.Keeps s) :
    KeepsRes x0 (execMul h rd ra rb s) := by
  unfold execMul
  with_reducible repeat' (first | exact hk | assumption | apply keepsRes_next | apply keeps_srSlot)

theorem keeps_execMulhu {x0 : Base} [x0.Has .regs] [x0.Has .hbm] [x0.Has .facets] [x0.Has .arrs] [x0.Has .larrs]
    [x0.Has .outJobs] [x0.Has .staged] [x0.Has .regions] [x0.Has .loader] [x0.Has .faults]
    [x0.Has .link] [x0.Has .noc] [x0.Has .raises] [x0.Has .out]
    (h : Hdr) (rd ra rb : Nat) (s : State) (hk : x0.Keeps s) :
    KeepsRes x0 (execMulhu h rd ra rb s) := by
  unfold execMulhu
  with_reducible repeat' (first | exact hk | assumption | apply keepsRes_next | apply keeps_srSlot)

theorem keeps_execDiv {x0 : Base} [x0.Has .regs] [x0.Has .hbm] [x0.Has .facets] [x0.Has .arrs] [x0.Has .larrs]
    [x0.Has .outJobs] [x0.Has .staged] [x0.Has .regions] [x0.Has .loader] [x0.Has .faults]
    [x0.Has .link] [x0.Has .noc] [x0.Has .raises] [x0.Has .out]
    (h : Hdr) (rd ra rb : Nat) (s : State) (hk : x0.Keeps s) :
    KeepsRes x0 (execDiv h rd ra rb s) := by
  unfold execDiv
  with_reducible repeat' (first | exact hk | assumption | apply keepsRes_next | apply keeps_srSlot)

theorem keeps_execDivu {x0 : Base} [x0.Has .regs] [x0.Has .hbm] [x0.Has .facets] [x0.Has .arrs] [x0.Has .larrs]
    [x0.Has .outJobs] [x0.Has .staged] [x0.Has .regions] [x0.Has .loader] [x0.Has .faults]
    [x0.Has .link] [x0.Has .noc] [x0.Has .raises] [x0.Has .out]
    (h : Hdr) (rd ra rb : Nat) (s : State) (hk : x0.Keeps s) :
    KeepsRes x0 (execDivu h rd ra rb s) := by
  unfold execDivu
  with_reducible repeat' (first | exact hk | assumption | apply keepsRes_next | apply keeps_srSlot)

theorem keeps_execRem {x0 : Base} [x0.Has .regs] [x0.Has .hbm] [x0.Has .facets] [x0.Has .arrs] [x0.Has .larrs]
    [x0.Has .outJobs] [x0.Has .staged] [x0.Has .regions] [x0.Has .loader] [x0.Has .faults]
    [x0.Has .link] [x0.Has .noc] [x0.Has .raises] [x0.Has .out]
    (h : Hdr) (rd ra rb : Nat) (s : State) (hk : x0.Keeps s) :
    KeepsRes x0 (execRem h rd ra rb s) := by
  unfold execRem
  with_reducible repeat' (first | exact hk | assumption | apply keepsRes_next | apply keeps_srSlot)

theorem keeps_execRemu {x0 : Base} [x0.Has .regs] [x0.Has .hbm] [x0.Has .facets] [x0.Has .arrs] [x0.Has .larrs]
    [x0.Has .outJobs] [x0.Has .staged] [x0.Has .regions] [x0.Has .loader] [x0.Has .faults]
    [x0.Has .link] [x0.Has .noc] [x0.Has .raises] [x0.Has .out]
    (h : Hdr) (rd ra rb : Nat) (s : State) (hk : x0.Keeps s) :
    KeepsRes x0 (execRemu h rd ra rb s) := by
  unfold execRemu
  with_reducible repeat' (first | exact hk | assumption | apply keepsRes_next | apply keeps_srSlot)

theorem keeps_execMin {x0 : Base} [x0.Has .regs] [x0.Has .hbm] [x0.Has .facets] [x0.Has .arrs] [x0.Has .larrs]
    [x0.Has .outJobs] [x0.Has .staged] [x0.Has .regions] [x0.Has .loader] [x0.Has .faults]
    [x0.Has .link] [x0.Has .noc] [x0.Has .raises] [x0.Has .out]
    (h : Hdr) (rd ra rb : Nat) (s : State) (hk : x0.Keeps s) :
    KeepsRes x0 (execMin h rd ra rb s) := by
  unfold execMin
  with_reducible repeat' (first | exact hk | assumption | apply keepsRes_next | apply keeps_srSlot)

theorem keeps_execMax {x0 : Base} [x0.Has .regs] [x0.Has .hbm] [x0.Has .facets] [x0.Has .arrs] [x0.Has .larrs]
    [x0.Has .outJobs] [x0.Has .staged] [x0.Has .regions] [x0.Has .loader] [x0.Has .faults]
    [x0.Has .link] [x0.Has .noc] [x0.Has .raises] [x0.Has .out]
    (h : Hdr) (rd ra rb : Nat) (s : State) (hk : x0.Keeps s) :
    KeepsRes x0 (execMax h rd ra rb s) := by
  unfold execMax
  with_reducible repeat' (first | exact hk | assumption | apply keepsRes_next | apply keeps_srSlot)

theorem keeps_execMinu {x0 : Base} [x0.Has .regs] [x0.Has .hbm] [x0.Has .facets] [x0.Has .arrs] [x0.Has .larrs]
    [x0.Has .outJobs] [x0.Has .staged] [x0.Has .regions] [x0.Has .loader] [x0.Has .faults]
    [x0.Has .link] [x0.Has .noc] [x0.Has .raises] [x0.Has .out]
    (h : Hdr) (rd ra rb : Nat) (s : State) (hk : x0.Keeps s) :
    KeepsRes x0 (execMinu h rd ra rb s) := by
  unfold execMinu
  with_reducible repeat' (first | exact hk | assumption | apply keepsRes_next | apply keeps_srSlot)

theorem keeps_execMaxu {x0 : Base} [x0.Has .regs] [x0.Has .hbm] [x0.Has .facets] [x0.Has .arrs] [x0.Has .larrs]
    [x0.Has .outJobs] [x0.Has .staged] [x0.Has .regions] [x0.Has .loader] [x0.Has .faults]
    [x0.Has .link] [x0.Has .noc] [x0.Has .raises] [x0.Has .out]
    (h : Hdr) (rd ra rb : Nat) (s : State) (hk : x0.Keeps s) :
    KeepsRes x0 (execMaxu h rd ra rb s) := by
  unfold execMaxu
  with_reducible repeat' (first | exact hk | assumption | apply keepsRes_next | apply keeps_srSlot)

theorem keeps_execAddi {x0 : Base} [x0.Has .regs] [x0.Has .hbm] [x0.Has .facets] [x0.Has .arrs] [x0.Has .larrs]
    [x0.Has .outJobs] [x0.Has .staged] [x0.Has .regions] [x0.Has .loader] [x0.Has .faults]
    [x0.Has .link] [x0.Has .noc] [x0.Has .raises] [x0.Has .out]
    (h : Hdr) (rd ra imm : Nat) (s : State) (hk : x0.Keeps s) :
    KeepsRes x0 (execAddi h rd ra imm s) := by
  unfold execAddi
  with_reducible repeat' (first | exact hk | assumption | apply keepsRes_next | apply keeps_siSlot)

theorem keeps_execAndi {x0 : Base} [x0.Has .regs] [x0.Has .hbm] [x0.Has .facets] [x0.Has .arrs] [x0.Has .larrs]
    [x0.Has .outJobs] [x0.Has .staged] [x0.Has .regions] [x0.Has .loader] [x0.Has .faults]
    [x0.Has .link] [x0.Has .noc] [x0.Has .raises] [x0.Has .out]
    (h : Hdr) (rd ra imm : Nat) (s : State) (hk : x0.Keeps s) :
    KeepsRes x0 (execAndi h rd ra imm s) := by
  unfold execAndi
  with_reducible repeat' (first | exact hk | assumption | apply keepsRes_next | apply keeps_siSlot)

theorem keeps_execOri {x0 : Base} [x0.Has .regs] [x0.Has .hbm] [x0.Has .facets] [x0.Has .arrs] [x0.Has .larrs]
    [x0.Has .outJobs] [x0.Has .staged] [x0.Has .regions] [x0.Has .loader] [x0.Has .faults]
    [x0.Has .link] [x0.Has .noc] [x0.Has .raises] [x0.Has .out]
    (h : Hdr) (rd ra imm : Nat) (s : State) (hk : x0.Keeps s) :
    KeepsRes x0 (execOri h rd ra imm s) := by
  unfold execOri
  with_reducible repeat' (first | exact hk | assumption | apply keepsRes_next | apply keeps_siSlot)

theorem keeps_execXori {x0 : Base} [x0.Has .regs] [x0.Has .hbm] [x0.Has .facets] [x0.Has .arrs] [x0.Has .larrs]
    [x0.Has .outJobs] [x0.Has .staged] [x0.Has .regions] [x0.Has .loader] [x0.Has .faults]
    [x0.Has .link] [x0.Has .noc] [x0.Has .raises] [x0.Has .out]
    (h : Hdr) (rd ra imm : Nat) (s : State) (hk : x0.Keeps s) :
    KeepsRes x0 (execXori h rd ra imm s) := by
  unfold execXori
  with_reducible repeat' (first | exact hk | assumption | apply keepsRes_next | apply keeps_siSlot)

theorem keeps_execShli {x0 : Base} [x0.Has .regs] [x0.Has .hbm] [x0.Has .facets] [x0.Has .arrs] [x0.Has .larrs]
    [x0.Has .outJobs] [x0.Has .staged] [x0.Has .regions] [x0.Has .loader] [x0.Has .faults]
    [x0.Has .link] [x0.Has .noc] [x0.Has .raises] [x0.Has .out]
    (h : Hdr) (rd ra imm : Nat) (s : State) (hk : x0.Keeps s) :
    KeepsRes x0 (execShli h rd ra imm s) := by
  unfold execShli
  with_reducible repeat' (first | exact hk | assumption | apply keepsRes_next | apply keeps_siSlot)

theorem keeps_execShri {x0 : Base} [x0.Has .regs] [x0.Has .hbm] [x0.Has .facets] [x0.Has .arrs] [x0.Has .larrs]
    [x0.Has .outJobs] [x0.Has .staged] [x0.Has .regions] [x0.Has .loader] [x0.Has .faults]
    [x0.Has .link] [x0.Has .noc] [x0.Has .raises] [x0.Has .out]
    (h : Hdr) (rd ra imm : Nat) (s : State) (hk : x0.Keeps s) :
    KeepsRes x0 (execShri h rd ra imm s) := by
  unfold execShri
  with_reducible repeat' (first | exact hk | assumption | apply keepsRes_next | apply keeps_siSlot)

theorem keeps_execSrai {x0 : Base} [x0.Has .regs] [x0.Has .hbm] [x0.Has .facets] [x0.Has .arrs] [x0.Has .larrs]
    [x0.Has .outJobs] [x0.Has .staged] [x0.Has .regions] [x0.Has .loader] [x0.Has .faults]
    [x0.Has .link] [x0.Has .noc] [x0.Has .raises] [x0.Has .out]
    (h : Hdr) (rd ra imm : Nat) (s : State) (hk : x0.Keeps s) :
    KeepsRes x0 (execSrai h rd ra imm s) := by
  unfold execSrai
  with_reducible repeat' (first | exact hk | assumption | apply keepsRes_next | apply keeps_siSlot)

theorem keeps_execMuli {x0 : Base} [x0.Has .regs] [x0.Has .hbm] [x0.Has .facets] [x0.Has .arrs] [x0.Has .larrs]
    [x0.Has .outJobs] [x0.Has .staged] [x0.Has .regions] [x0.Has .loader] [x0.Has .faults]
    [x0.Has .link] [x0.Has .noc] [x0.Has .raises] [x0.Has .out]
    (h : Hdr) (rd ra imm : Nat) (s : State) (hk : x0.Keeps s) :
    KeepsRes x0 (execMuli h rd ra imm s) := by
  unfold execMuli
  with_reducible repeat' (first | exact hk | assumption | apply keepsRes_next | apply keeps_siSlot)

theorem keeps_execLi {x0 : Base} [x0.Has .regs] [x0.Has .hbm] [x0.Has .facets] [x0.Has .arrs] [x0.Has .larrs]
    [x0.Has .outJobs] [x0.Has .staged] [x0.Has .regions] [x0.Has .loader] [x0.Has .faults]
    [x0.Has .link] [x0.Has .noc] [x0.Has .raises] [x0.Has .out]
    (h : Hdr) (rd imm : Nat) (s : State) (hk : x0.Keeps s) :
    KeepsRes x0 (execLi h rd imm s) := by
  unfold execLi
  with_reducible repeat' (first | exact hk | assumption | apply keepsRes_next | apply keeps_coreSlot)

theorem keeps_execLis {x0 : Base} [x0.Has .regs] [x0.Has .hbm] [x0.Has .facets] [x0.Has .arrs] [x0.Has .larrs]
    [x0.Has .outJobs] [x0.Has .staged] [x0.Has .regions] [x0.Has .loader] [x0.Has .faults]
    [x0.Has .link] [x0.Has .noc] [x0.Has .raises] [x0.Has .out]
    (h : Hdr) (rd imm : Nat) (s : State) (hk : x0.Keeps s) :
    KeepsRes x0 (execLis h rd imm s) := by
  unfold execLis
  with_reducible repeat' (first | exact hk | assumption | apply keepsRes_next | apply keeps_coreSlot)

theorem keeps_execLih {x0 : Base} [x0.Has .regs] [x0.Has .hbm] [x0.Has .facets] [x0.Has .arrs] [x0.Has .larrs]
    [x0.Has .outJobs] [x0.Has .staged] [x0.Has .regions] [x0.Has .loader] [x0.Has .faults]
    [x0.Has .link] [x0.Has .noc] [x0.Has .raises] [x0.Has .out]
    (h : Hdr) (rd imm : Nat) (s : State) (hk : x0.Keeps s) :
    KeepsRes x0 (execLih h rd imm s) := by
  unfold execLih
  with_reducible repeat' (first | exact hk | assumption | apply keepsRes_next | apply keeps_coreSlot)

theorem keeps_execCmp {x0 : Base} [x0.Has .regs] [x0.Has .hbm] [x0.Has .facets] [x0.Has .arrs] [x0.Has .larrs]
    [x0.Has .outJobs] [x0.Has .staged] [x0.Has .regions] [x0.Has .loader] [x0.Has .faults]
    [x0.Has .link] [x0.Has .noc] [x0.Has .raises] [x0.Has .out]
    (h : Hdr) (pd ra rb cond : Nat) (s : State) (hk : x0.Keeps s) :
    KeepsRes x0 (execCmp h pd ra rb cond s) := by
  unfold execCmp
  with_reducible repeat' (first | exact hk | assumption | apply keepsRes_next | apply keeps_predSlot)

theorem keeps_execCmpi {x0 : Base} [x0.Has .regs] [x0.Has .hbm] [x0.Has .facets] [x0.Has .arrs] [x0.Has .larrs]
    [x0.Has .outJobs] [x0.Has .staged] [x0.Has .regions] [x0.Has .loader] [x0.Has .faults]
    [x0.Has .link] [x0.Has .noc] [x0.Has .raises] [x0.Has .out]
    (h : Hdr) (pd ra cond imm : Nat) (s : State) (hk : x0.Keeps s) :
    KeepsRes x0 (execCmpi h pd ra cond imm s) := by
  unfold execCmpi
  with_reducible repeat' (first | exact hk | assumption | apply keepsRes_next | apply keeps_predSlot)

theorem keeps_execPlog {x0 : Base} [x0.Has .regs] [x0.Has .hbm] [x0.Has .facets] [x0.Has .arrs] [x0.Has .larrs]
    [x0.Has .outJobs] [x0.Has .staged] [x0.Has .regions] [x0.Has .loader] [x0.Has .faults]
    [x0.Has .link] [x0.Has .noc] [x0.Has .raises] [x0.Has .out]
    (h : Hdr) (pd pa pb table : Nat) (s : State) (hk : x0.Keeps s) :
    KeepsRes x0 (execPlog h pd pa pb table s) := by
  unfold execPlog
  with_reducible repeat' (first | exact hk | assumption | apply keepsRes_next | apply keeps_predSlot)

theorem keeps_execLd {x0 : Base} [x0.Has .regs] [x0.Has .hbm] [x0.Has .facets] [x0.Has .arrs] [x0.Has .larrs]
    [x0.Has .outJobs] [x0.Has .staged] [x0.Has .regions] [x0.Has .loader] [x0.Has .faults]
    [x0.Has .link] [x0.Has .noc] [x0.Has .raises] [x0.Has .out]
    (h : Hdr) (rt ra size : Nat) (sx : Bool) (imm : Nat) (s : State) (hk : x0.Keeps s) :
    KeepsRes x0 (execLd h rt ra size sx imm s) := by
  unfold execLd
  with_reducible repeat' (first
    | exact hk | assumption | apply keepsRes_next | apply keepsRes_ite | apply keeps_coreSlot | apply keeps_ite | split
    | (intro _)
    | simp (disch := (apply State.SameBut.mk <;> first | exact Base.Has.no | exact fun _ => rfl)) only [keeps_mk])

theorem keeps_execSt {x0 : Base} [x0.Has .regs] [x0.Has .hbm] [x0.Has .facets] [x0.Has .arrs] [x0.Has .larrs]
    [x0.Has .outJobs] [x0.Has .staged] [x0.Has .regions] [x0.Has .loader] [x0.Has .faults]
    [x0.Has .link] [x0.Has .noc] [x0.Has .raises] [x0.Has .out]
    (h : Hdr) (rt ra size : Nat) (sx : Bool) (imm : Nat) (s : State) (hk : x0.Keeps s) :
    KeepsRes x0 (execSt h rt ra size sx imm s) := by
  unfold execSt
  with_reducible repeat' (first
    | exact hk | assumption | apply keepsRes_next | apply keepsRes_ite | apply keeps_coreSlot | apply keeps_ite | split
    | (intro _)
    | simp (disch := (apply State.SameBut.mk <;> first | exact Base.Has.no | exact fun _ => rfl)) only [keeps_mk])

theorem keeps_execRdc {x0 : Base} [x0.Has .regs] [x0.Has .hbm] [x0.Has .facets] [x0.Has .arrs] [x0.Has .larrs]
    [x0.Has .outJobs] [x0.Has .staged] [x0.Has .regions] [x0.Has .loader] [x0.Has .faults]
    [x0.Has .link] [x0.Has .noc] [x0.Has .raises] [x0.Has .out]
    (h : Hdr) (rd sel : Nat) (s : State) (hk : x0.Keeps s) :
    KeepsRes x0 (execRdc h rd sel s) := by
  unfold execRdc
  with_reducible repeat' (first
    | exact hk | assumption | apply keepsRes_next | apply keeps_coreSlot | split | (intro _)
    | simp (disch := (apply State.SameBut.mk <;> first | exact Base.Has.no | exact fun _ => rfl)) only [keeps_mk]
    | (apply State.SameBut.mk <;> first | exact Base.Has.no | exact fun _ => rfl))

theorem keeps_execTmm {x0 : Base} [x0.Has .regs] [x0.Has .hbm] [x0.Has .facets] [x0.Has .arrs] [x0.Has .larrs]
    [x0.Has .outJobs] [x0.Has .staged] [x0.Has .regions] [x0.Has .loader] [x0.Has .faults]
    [x0.Has .link] [x0.Has .noc] [x0.Has .raises] [x0.Has .out]
    (h : Hdr) (td fa fb : Nat) (acc16 clr : Bool) (sa sb sk m n : Nat) (mask : Bool) (rk : Nat) (s : State) (hk : x0.Keeps s) :
    KeepsRes x0 (execTmm h td fa fb acc16 clr sa sb sk m n mask rk s) := by
  unfold execTmm
  with_reducible repeat' (first
    | exact hk | assumption | apply keepsRes_next | apply keepsRes_ite | apply keeps_coreSlot | apply keeps_ite | split
    | (intro _)
    | simp (disch := (apply State.SameBut.mk <;> first | exact Base.Has.no | exact fun _ => rfl)) only [keeps_mk]
    | (apply State.SameBut.mk <;> first | exact Base.Has.no | exact fun _ => rfl))

theorem keeps_execTclr {x0 : Base} [x0.Has .regs] [x0.Has .hbm] [x0.Has .facets] [x0.Has .arrs] [x0.Has .larrs]
    [x0.Has .outJobs] [x0.Has .staged] [x0.Has .regions] [x0.Has .loader] [x0.Has .faults]
    [x0.Has .link] [x0.Has .noc] [x0.Has .raises] [x0.Has .out]
    (h : Hdr) (td : Nat) (s : State) (hk : x0.Keeps s) :
    KeepsRes x0 (execTclr h td s) := by
  unfold execTclr
  with_reducible repeat' (first
    | exact hk | assumption | apply keepsRes_next | apply keeps_coreSlot
    | simp (disch := (apply State.SameBut.mk <;> first | exact Base.Has.no | exact fun _ => rfl)) only [keeps_mk]
    | (apply State.SameBut.mk <;> first | exact Base.Has.no | exact fun _ => rfl))

theorem keeps_execTdrnv {x0 : Base} [x0.Has .regs] [x0.Has .hbm] [x0.Has .facets] [x0.Has .arrs] [x0.Has .larrs]
    [x0.Has .outJobs] [x0.Has .staged] [x0.Has .regions] [x0.Has .loader] [x0.Has .faults]
    [x0.Has .link] [x0.Has .noc] [x0.Has .raises] [x0.Has .out]
    (h : Hdr) (vd td df rows : Nat) (clr : Bool) (s : State) (hk : x0.Keeps s) :
    KeepsRes x0 (execTdrnv h vd td df rows clr s) := by
  unfold execTdrnv
  with_reducible repeat' (first
    | exact hk | assumption | apply keepsRes_next | apply keepsRes_ite | apply keeps_coreSlot | apply keeps_ite | split
    | (intro _)
    | simp (disch := (apply State.SameBut.mk <;> first | exact Base.Has.no | exact fun _ => rfl)) only [keeps_mk]
    | (apply State.SameBut.mk <;> first | exact Base.Has.no | exact fun _ => rfl))

theorem keeps_execTdrnm {x0 : Base} [x0.Has .regs] [x0.Has .hbm] [x0.Has .facets] [x0.Has .arrs] [x0.Has .larrs]
    [x0.Has .outJobs] [x0.Has .staged] [x0.Has .regions] [x0.Has .loader] [x0.Has .faults]
    [x0.Has .link] [x0.Has .noc] [x0.Has .raises] [x0.Has .out]
    (h : Hdr) (ra td df rows : Nat) (clr : Bool) (s : State) (hk : x0.Keeps s) :
    KeepsRes x0 (execTdrnm h ra td df rows clr s) := by
  unfold execTdrnm
  with_reducible repeat' (first
    | exact hk | assumption | apply keepsRes_next | apply keepsRes_ite | apply keeps_coreSlot | apply keeps_ite | split
    | (intro _)
    | simp (disch := (apply State.SameBut.mk <;> first | exact Base.Has.no | exact fun _ => rfl)) only [keeps_mk]
    | (apply State.SameBut.mk <;> first | exact Base.Has.no | exact fun _ => rfl))

theorem keeps_execTmsk {x0 : Base} [x0.Has .regs] [x0.Has .hbm] [x0.Has .facets] [x0.Has .arrs] [x0.Has .larrs]
    [x0.Has .outJobs] [x0.Has .staged] [x0.Has .regions] [x0.Has .loader] [x0.Has .faults]
    [x0.Has .link] [x0.Has .noc] [x0.Has .raises] [x0.Has .out]
    (h : Hdr) (vs : Nat) (s : State) (hk : x0.Keeps s) :
    KeepsRes x0 (execTmsk h vs s) := by
  unfold execTmsk
  with_reducible repeat' (first
    | exact hk | assumption | apply keepsRes_next | apply keeps_coreSlot | (intro _)
    | simp (disch := (apply State.SameBut.mk <;> first | exact Base.Has.no | exact fun _ => rfl)) only [keeps_mk])

theorem keeps_countStaged {x0 : Base} [x0.Has .regs] (s : State) (pf : Nat) (x : Staged) (hk : x0.Keeps s) :
    x0.Keeps (State.countStaged s pf x) := by
  unfold State.countStaged
  with_reducible repeat' (first
    | exact hk | assumption | apply keeps_bump | apply keeps_ite | split | (intro _)
    | simp (disch := (apply State.SameBut.mk <;> first | exact Base.Has.no | exact fun _ => rfl)) only [keeps_mk])

theorem keeps_beginTmm {x0 : Base} [x0.Has .regs] [x0.Has .hbm] [x0.Has .facets] [x0.Has .faults] [x0.Has .raises] (s : State) (pf : Nat) (o : TmmOp) (hk : x0.Keeps s) : x0.Keeps (beginTmm s pf o) := by
  delta beginTmm
  extract_lets +onlyGivenNames c0 ra rb r col chunk rate comp st stall empty go eff s1
  have h1 : x0.Keeps s1 := keeps_asyncCore _ _ _ hk
  clear_value s1 eff
  extract_lets +onlyGivenNames s2
  have h2 : x0.Keeps s2 := keeps_foldl h1 _ _ (fun t ht e => by
    cases e <;> first | exact keeps_bump _ _ _ _ ht | exact keeps_raiseRec _ _ ht | exact ht)
  clear_value s2
  cases (s2.facet pf).core.exec with
  | none => exact h2
  | some x =>
    have h3 := keeps_ite (c := ra = true) h2 (keeps_countStaged _ pf x.a h2)
    exact keeps_ite h2 (keeps_bump _ _ _ _ (keeps_ite h3 (keeps_countStaged _ _ _ h3)))
theorem keeps_execTensorOpBegin {x0 : Base} [x0.Has .regs] [x0.Has .hbm] [x0.Has .facets] [x0.Has .faults] [x0.Has .raises] (pf : Nat) (s : State) (hk : x0.Keeps s) :
    KeepsRes x0 (execTensorOpBegin pf s) := by
  unfold execTensorOpBegin
  with_reducible repeat' (first
    | exact hk | assumption | apply keepsRes_next | apply keepsRes_ite | apply keeps_closeSession | apply keeps_beginTmm
    | apply keeps_asyncCore | apply keeps_ite | split | (intro _)
    | simp (disch := (apply State.SameBut.mk <;> first | exact Base.Has.no | exact fun _ => rfl)) only [keeps_mk]
    | (apply State.SameBut.mk <;> first | exact Base.Has.no | exact fun _ => rfl))

theorem keeps_finishTmm {x0 : Base} [x0.Has .regs] [x0.Has .facets] (s : State) (pf : Nat) (x : TExec) (hk : x0.Keeps s) :
    x0.Keeps (finishTmm s pf x) := by
  unfold finishTmm
  with_reducible repeat' (first
    | exact hk | assumption | apply keeps_asyncCore | apply keeps_bump | apply keeps_setFacet | apply keeps_setFacet
    | apply keeps_foldl_fst | apply keeps_foldl | apply keeps_ite | split | (intro _)
    | simp (disch := (apply State.SameBut.mk <;> first | exact Base.Has.no | exact fun _ => rfl)) only [keeps_mk]
    | (apply State.SameBut.mk <;> first | exact Base.Has.no | exact fun _ => rfl))

theorem keeps_execTmmComplete {x0 : Base} [x0.Has .regs] [x0.Has .facets] [x0.Has .raises] (pf : Nat) (tileErr shadowErr : List (Nat × Nat)) (s : State) (hk : x0.Keeps s) :
    KeepsRes x0 (execTmmComplete pf tileErr shadowErr s) := by
  delta execTmmComplete
  extract_lets +onlyGivenNames f
  cases f.core.exec with
  | none => exact keepsRes_next hk
  | some x =>
    refine keepsRes_ite (keepsRes_next hk) ?_
    extract_lets +onlyGivenNames o inj6 inj7 te se y s1 res sats beyond s2 s3 masked put s4
    have h1 : x0.Keeps s1 := keeps_ite (keeps_injDone _ hk) hk
    have h3 : x0.Keeps s3 := keeps_bump _ _ _ _ (keeps_bump _ _ _ _ h1)
    have h4 : x0.Keeps s4 := keeps_asyncCore _ _ _ h3
    clear_value s4
    cases y.col with
    | none => exact keepsRes_next (keeps_finishTmm _ _ _ h4)
    | some j =>
      extract_lets +onlyGivenNames r s5 f1 s6
      have h5 : x0.Keeps s5 := keeps_wr _ _ _ _ h4
      have h6 : x0.Keeps s6 := keeps_ite (keeps_bump _ _ _ _ (keeps_setFacet h5 _ _)) (keeps_setFacet h5 _ _)
      clear_value s6
      exact keepsRes_ite (keepsRes_next (keeps_asyncCore _ _ _ h6)) (keepsRes_next (keeps_finishTmm _ _ _ h6))
theorem keeps_captureSig {x0 : Base} [x0.Has .regs] [x0.Has .facets] (s : State) (pf : Nat) (x : TExec) (j : Nat) (tile shadow replay : List (Nat × Bool)) (hk : x0.Keeps s) :
    x0.Keeps (State.captureSig s pf x j tile shadow replay) := by
  unfold State.captureSig
  with_reducible repeat' (first
    | exact hk | assumption | apply keeps_wr | apply keeps_setFacet | apply keeps_setFacet | (intro _)
    | simp (disch := (apply State.SameBut.mk <;> first | exact Base.Has.no | exact fun _ => rfl)) only [keeps_mk]
    | (apply State.SameBut.mk <;> first | exact Base.Has.no | exact fun _ => rfl))

theorem keeps_releaseSig {x0 : Base} [x0.Has .regs] [x0.Has .facets] (s : State) (pf : Nat) (hk : x0.Keeps s) :
    x0.Keeps (State.releaseSig s pf) := by
  unfold State.releaseSig
  with_reducible repeat' (first
    | exact hk | assumption | apply keeps_wr | apply keeps_setFacet | apply keeps_setFacet | (intro _)
    | simp (disch := (apply State.SameBut.mk <;> first | exact Base.Has.no | exact fun _ => rfl)) only [keeps_mk]
    | (apply State.SameBut.mk <;> first | exact Base.Has.no | exact fun _ => rfl))

theorem keeps_shadowRecord {x0 : Base} [x0.Has .regs] [x0.Has .hbm] [x0.Has .facets] [x0.Has .faults] [x0.Has .raises] (s : State) (pf cls det unit code : Nat) (confirmed captured inj : Bool) (hk : x0.Keeps s) :
    x0.Keeps (State.shadowRecord s pf cls det unit code confirmed captured inj) := by
  unfold State.shadowRecord
  with_reducible repeat' (first
    | exact hk | assumption | apply keeps_cper | apply keeps_releaseSig | apply keeps_ite | split | (intro _)
    | simp (disch := (apply State.SameBut.mk <;> first | exact Base.Has.no | exact fun _ => rfl)) only [keeps_mk])

theorem keeps_execShadowReplayDone {x0 : Base} [x0.Has .regs] [x0.Has .hbm] [x0.Has .facets] [x0.Has .staged] [x0.Has .regions]
    [x0.Has .faults] [x0.Has .noc] [x0.Has .serve] [x0.Has .raises]
    (pf : Nat) (err : List (Nat × Nat)) (s : State) (hk : x0.Keeps s) :
    KeepsRes x0 (execShadowReplayDone pf err s) := by
  unfold execShadowReplayDone
  with_reducible repeat' (first
    | exact hk | assumption | apply keepsRes_next | apply keepsRes_ite | apply keeps_raise | apply keeps_fenceFacet
    | apply keeps_shadowRecord | apply keeps_bump | apply keeps_wr | apply keeps_fenceShadow | apply keeps_captureSig
    | apply keeps_asyncCore | apply keeps_finishTmm | apply keeps_foldl_fst | apply keeps_foldl | apply keeps_ite | split
    | (intro _)
    | simp (disch := (apply State.SameBut.mk <;> first | exact Base.Has.no | exact fun _ => rfl)) only [keeps_mk]
    | (apply State.SameBut.mk <;> first | exact Base.Has.no | exact fun _ => rfl))

theorem keeps_execTileDrainComplete {x0 : Base} [x0.Has .regs] [x0.Has .facets] (pf idx : Nat) (s : State) (hk : x0.Keeps s) :
    KeepsRes x0 (execTileDrainComplete pf idx s) := by
  unfold execTileDrainComplete
  with_reducible repeat' (first
    | exact hk | assumption | apply keepsRes_next | apply keepsRes_ite | apply keeps_asyncCore | apply keeps_bump
    | apply keeps_ite | split | (intro _)
    | simp (disch := (apply State.SameBut.mk <;> first | exact Base.Has.no | exact fun _ => rfl)) only [keeps_mk]
    | (apply State.SameBut.mk <;> first | exact Base.Has.no | exact fun _ => rfl))

theorem keeps_execAcc16CtlWrite {x0 : Base} [x0.Has .regs] (pf value : Nat) (s : State) (hk : x0.Keeps s) :
    KeepsRes x0 (execAcc16CtlWrite pf value s) := by
  unfold execAcc16CtlWrite
  with_reducible repeat' (first
    | exact hk | assumption | apply keepsRes_next | apply keepsRes_ite | apply keeps_wr | apply keeps_ite | split
    | (intro _)
    | simp (disch := (apply State.SameBut.mk <;> first | exact Base.Has.no | exact fun _ => rfl)) only [keeps_mk])

theorem keeps_execTenShadowWrite {x0 : Base} [x0.Has .regs] (pf value : Nat) (s : State) (hk : x0.Keeps s) :
    KeepsRes x0 (execTenShadowWrite pf value s) := by
  unfold execTenShadowWrite
  with_reducible repeat' (first
    | exact hk | assumption | apply keepsRes_next | apply keepsRes_ite | apply keeps_wr | apply keeps_ite | split
    | (intro _)
    | simp (disch := (apply State.SameBut.mk <;> first | exact Base.Has.no | exact fun _ => rfl)) only [keeps_mk])

theorem keeps_execSigWindowRelease {x0 : Base} [x0.Has .regs] [x0.Has .facets] (pf : Nat) (s : State) (hk : x0.Keeps s) :
    KeepsRes x0 (execSigWindowRelease pf s) := by
  unfold execSigWindowRelease
  with_reducible repeat' (first | exact hk | assumption | apply keepsRes_next | apply keeps_releaseSig)

theorem keeps_applyEcc {x0 : Base} [x0.Has .regs] [x0.Has .hbm] [x0.Has .faults] [x0.Has .raises] (s : State) (eff : List Eff) (hk : x0.Keeps s) :
    x0.Keeps (applyEcc s eff) := by
  unfold applyEcc
  with_reducible repeat' (first
    | exact hk | assumption | apply keeps_raiseRec | apply keeps_raise | apply keeps_bump | apply keeps_foldl_fst
    | apply keeps_foldl | split | (intro _)
    | simp (disch := (apply State.SameBut.mk <;> first | exact Base.Has.no | exact fun _ => rfl)) only [keeps_mk]
    | (apply State.SameBut.mk <;> first | exact Base.Has.no | exact fun _ => rfl))

theorem keeps_eccPort {x0 : Base} [x0.Has .regs] [x0.Has .hbm] [x0.Has .facets] [x0.Has .faults] [x0.Has .raises] (s : State) (pf a n : Nat) (hk : x0.Keeps s) :
    x0.Keeps (State.eccPort s pf a n) := by
  unfold State.eccPort
  with_reducible repeat' (first
    | exact hk | assumption | apply keeps_asyncCore | apply keeps_applyEcc | (intro _)
    | simp (disch := (apply State.SameBut.mk <;> first | exact Base.Has.no | exact fun _ => rfl)) only [keeps_mk]
    | (apply State.SameBut.mk <;> first | exact Base.Has.no | exact fun _ => rfl))

theorem keeps_portRead {x0 : Base} [x0.Has .regs] [x0.Has .hbm] [x0.Has .facets] [x0.Has .faults] [x0.Has .raises] (s : State) (pf a n : Nat) (hk : x0.Keeps s) :
    x0.Keeps (State.portRead s pf a n).1 := by
  unfold State.portRead
  with_reducible repeat' (first
    | exact hk | assumption | apply keeps_eccPort | (intro _)
    | simp (disch := (apply State.SameBut.mk <;> first | exact Base.Has.no | exact fun _ => rfl)) only [keeps_mk])

theorem keeps_portWrite {x0 : Base} [x0.Has .facets] (s : State) (pf a : Nat) (bs : List (Byte × Bool)) (hk : x0.Keeps s) :
    x0.Keeps (State.portWrite s pf a bs) := by
  unfold State.portWrite
  with_reducible repeat' (first | exact hk | assumption | apply keeps_asyncCore)

theorem keeps_freeBytes {x0 : Base} [x0.Has .free] (s : State) (point n : Nat) (hk : x0.Keeps s) :
    x0.Keeps (State.freeBytes s point n).1 := by
  unfold State.freeBytes
  with_reducible repeat' (first
    | exact hk | assumption
    | simp (disch := (apply State.SameBut.mk <;> first | exact Base.Has.no | exact fun _ => rfl)) only [keeps_mk]
    | apply keeps_mk_free | (apply State.SameBut.mk <;> first | exact Base.Has.no | exact fun _ => rfl))

theorem keeps_windowEvent {x0 : Base} [x0.Has .raises] (s : State) (lf loc access : Nat) (hk : x0.Keeps s) :
    x0.Keeps (State.windowEvent s lf loc access) := by
  unfold State.windowEvent
  with_reducible repeat' (first | exact hk | assumption | apply keeps_raise)

theorem keeps_windowTouch {x0 : Base} [x0.Has .regs] [x0.Has .regions] (s : State) (pf : Nat) (hk : x0.Keeps s) :
    x0.Keeps (State.windowTouch s pf) := by
  unfold State.windowTouch
  with_reducible repeat' (first
    | exact hk | assumption | apply keeps_voidRun | apply keeps_ite | split
    | simp (disch := (apply State.SameBut.mk <;> first | exact Base.Has.no | exact fun _ => rfl)) only [keeps_mk]
    | (apply State.SameBut.mk <;> first | exact Base.Has.no | exact fun _ => rfl))

theorem keeps_rangeRead {x0 : Base} [x0.Has .regs] [x0.Has .hbm] [x0.Has .faults] [x0.Has .raises] (s : State) (kind num a n : Nat) (hk : x0.Keeps s) :
    x0.Keeps (State.rangeRead s kind num a n).1 := by
  unfold State.rangeRead
  with_reducible repeat' (first
    | exact hk | assumption | apply keeps_sectorsRead | (intro _)
    | simp (disch := (apply State.SameBut.mk <;> first | exact Base.Has.no | exact fun _ => rfl)) only [keeps_mk])

theorem keeps_execMcpy {x0 : Base} [x0.Has .regs] [x0.Has .hbm] [x0.Has .facets] [x0.Has .arrs] [x0.Has .larrs]
    [x0.Has .outJobs] [x0.Has .staged] [x0.Has .regions] [x0.Has .loader] [x0.Has .faults]
    [x0.Has .link] [x0.Has .noc] [x0.Has .raises] [x0.Has .out]
    (h : Hdr) (tag dir : Nat) (posted : Bool) (rl rr rn : Nat) (s : State) (hk : x0.Keeps s) :
    KeepsRes x0 (execMcpy h tag dir posted rl rr rn s) := by
  unfold execMcpy
  with_reducible repeat' (first
    | exact hk | assumption | apply keepsRes_next | apply keepsRes_ite | apply keeps_coreSlot | apply keeps_ite | split
    | (intro _)
    | simp (disch := (apply State.SameBut.mk <;> first | exact Base.Has.no | exact fun _ => rfl)) only [keeps_mk])

theorem keeps_execMpage {x0 : Base} [x0.Has .regs] [x0.Has .hbm] [x0.Has .facets] [x0.Has .arrs] [x0.Has .larrs]
    [x0.Has .outJobs] [x0.Has .staged] [x0.Has .regions] [x0.Has .loader] [x0.Has .faults]
    [x0.Has .link] [x0.Has .noc] [x0.Has .raises] [x0.Has .out]
    (h : Hdr) (tag dir : Nat) (posted : Bool) (rl vdesc : Nat) (s : State) (hk : x0.Keeps s) :
    KeepsRes x0 (execMpage h tag dir posted rl vdesc s) := by
  unfold execMpage
  with_reducible repeat' (first
    | exact hk | assumption | apply keepsRes_next | apply keepsRes_ite | apply keeps_coreSlot | apply keeps_ite | split
    | (intro _)
    | simp (disch := (apply State.SameBut.mk <;> first | exact Base.Has.no | exact fun _ => rfl)) only [keeps_mk])

theorem keeps_execMdec {x0 : Base} [x0.Has .regs] [x0.Has .hbm] [x0.Has .facets] [x0.Has .arrs] [x0.Has .larrs]
    [x0.Has .outJobs] [x0.Has .staged] [x0.Has .regions] [x0.Has .loader] [x0.Has .faults]
    [x0.Has .link] [x0.Has .noc] [x0.Has .raises] [x0.Has .out]
    (h : Hdr) (tag rs rd rn : Nat) (s : State) (hk : x0.Keeps s) :
    KeepsRes x0 (execMdec h tag rs rd rn s) := by
  unfold execMdec
  with_reducible repeat' (first
    | exact hk | assumption | apply keepsRes_next | apply keepsRes_ite | apply keeps_coreSlot | apply keeps_ite | split
    | (intro _)
    | simp (disch := (apply State.SameBut.mk <;> first | exact Base.Has.no | exact fun _ => rfl)) only [keeps_mk])

theorem keeps_execMwait {x0 : Base} [x0.Has .regs] [x0.Has .hbm] [x0.Has .facets] [x0.Has .arrs] [x0.Has .larrs]
    [x0.Has .outJobs] [x0.Has .staged] [x0.Has .regions] [x0.Has .loader] [x0.Has .faults]
    [x0.Has .link] [x0.Has .noc] [x0.Has .raises] [x0.Has .out]
    (h : Hdr) (mask : Nat) (s : State) (hk : x0.Keeps s) :
    KeepsRes x0 (execMwait h mask s) := by
  unfold execMwait
  with_reducible repeat' (first
    | exact hk | assumption | apply keepsRes_next | apply keepsRes_ite | apply keeps_coreSlot | apply keeps_ite | split)

theorem keeps_failStep {x0 : Base} [x0.Has .noc] (s : State) (pf : Nat) (step : Option Nat) (hk : x0.Keeps s) :
    x0.Keeps (State.failStep s pf step) := by
  unfold State.failStep
  with_reducible repeat' (first
    | exact hk | assumption | split
    | simp (disch := (apply State.SameBut.mk <;> first | exact Base.Has.no | exact fun _ => rfl)) only [keeps_mk]
    | (apply State.SameBut.mk <;> first | exact Base.Has.no | exact fun _ => rfl))

theorem keeps_moveWrite {x0 : Base} [x0.Has .regs] [x0.Has .hbm] [x0.Has .noc] (s : State) (pf : Nat) (step : Option Nat) (a : Nat) (bs : List (Byte × Bool)) (hk : x0.Keeps s) :
    x0.Keeps (State.moveWrite s pf step a bs) := by
  unfold State.moveWrite
  with_reducible repeat' (first
    | exact hk | assumption | apply keeps_failStep | apply keeps_sectorsWrite | apply keeps_ite | split | (intro _)
    | simp (disch := (apply State.SameBut.mk <;> first | exact Base.Has.no | exact fun _ => rfl)) only [keeps_mk])

theorem keeps_moveFail {x0 : Base} [x0.Has .facets] [x0.Has .free] (s : State) (pf tag : Nat) (dst : Option (Nat × Nat)) (hk : x0.Keeps s) :
    x0.Keeps (State.moveFail s pf tag dst) := by
  unfold State.moveFail
  with_reducible repeat' (first
    | exact hk | assumption | apply keeps_freeBytes | apply keeps_asyncCore | apply keeps_portWrite | split | (intro _)
    | simp (disch := (apply State.SameBut.mk <;> first | exact Base.Has.no | exact fun _ => rfl)) only [keeps_mk]
    | (apply State.SameBut.mk <;> first | exact Base.Has.no | exact fun _ => rfl))

theorem keeps_runCopy {x0 : Base} [x0.Has .regs] [x0.Has .hbm] [x0.Has .facets] [x0.Has .regions] [x0.Has .faults]
    [x0.Has .noc] [x0.Has .raises] [x0.Has .free]
    (s : State) (pf : Nat) (o : MOp) (dir rl rr rn : Nat) (hk : x0.Keeps s) :
    x0.Keeps (State.runCopy s pf o dir rl rr rn) := by
  unfold State.runCopy
  with_reducible repeat' (first
    | exact hk | assumption | apply keeps_sectorsRead | apply keeps_moveFail | apply keeps_moveWrite
    | apply keeps_portWrite | apply keeps_portRead | apply keeps_windowTouch | apply keeps_windowEvent | apply keeps_ite
    | split | (intro _)
    | simp (disch := (apply State.SameBut.mk <;> first | exact Base.Has.no | exact fun _ => rfl)) only [keeps_mk]
    | (apply State.SameBut.mk <;> first | exact Base.Has.no | exact fun _ => rfl))

theorem keeps_walk {x0 : Base} [x0.Has .regs] [x0.Has .hbm] [x0.Has .faults] [x0.Has .raises] (pf : Nat) (k : Walk) (n : Nat) : ∀ (s : State) (q : Nat), x0.Keeps s →
    x0.Keeps (s.walk pf k n q).1 := by
  induction n with
  | zero => intro s q hk; exact hk
  | succ n ih =>
    intro s q hk
    unfold State.walk
    with_reducible repeat' (first | exact hk | assumption | apply ih | apply keeps_rangeRead | apply keeps_setReg | apply keeps_setFacet | apply keeps_foldl_fst | apply keeps_foldl | apply keeps_ite | split | (intro _) | simp (disch := (apply State.SameBut.mk <;> first | exact Base.Has.no | exact fun _ => rfl)) only [keeps_mk] | apply keeps_mk_free | apply keeps_mk_hbm_setPoison | apply keeps_mk_hub_setPoison | apply keeps_mk_hub_write2 | apply keeps_mk_hub_writeByte | apply keeps_mk_hub_write | (apply State.SameBut.mk <;> first | exact Base.Has.no | exact fun _ => rfl))
theorem keeps_gather {x0 : Base} [x0.Has .regs] [x0.Has .hbm] [x0.Has .facets] [x0.Has .faults] [x0.Has .raises] (pf len : Nat) (l : List Nat) : ∀ (s : State) (rl : Nat), x0.Keeps s →
    x0.Keeps (s.gather pf rl len l) := by
  induction l with
  | nil => intro s rl hk; exact hk
  | cons a t ih =>
    intro s rl hk
    unfold State.gather
    with_reducible repeat' (first | exact hk | assumption | apply ih | apply keeps_portWrite | apply keeps_rangeRead | apply keeps_setReg | apply keeps_setFacet | apply keeps_foldl_fst | apply keeps_foldl | apply keeps_ite | split | (intro _) | simp (disch := (apply State.SameBut.mk <;> first | exact Base.Has.no | exact fun _ => rfl)) only [keeps_mk] | apply keeps_mk_free | apply keeps_mk_hbm_setPoison | apply keeps_mk_hub_setPoison | apply keeps_mk_hub_write2 | apply keeps_mk_hub_writeByte | apply keeps_mk_hub_write | (apply State.SameBut.mk <;> first | exact Base.Has.no | exact fun _ => rfl))
theorem keeps_scatter {x0 : Base} [x0.Has .regs] [x0.Has .hbm] [x0.Has .facets] [x0.Has .faults] [x0.Has .noc]
    [x0.Has .raises]
    (pf : Nat) (step : Option Nat) (len : Nat) (l : List Nat) : ∀ (s : State) (rl : Nat), x0.Keeps s →
    x0.Keeps (s.scatter pf step rl len l) := by
  induction l with
  | nil => intro s rl hk; exact hk
  | cons a t ih =>
    intro s rl hk
    unfold State.scatter
    with_reducible repeat' (first | exact hk | assumption | apply ih | apply keeps_moveWrite | apply keeps_portRead | apply keeps_setReg | apply keeps_setFacet | apply keeps_foldl_fst | apply keeps_foldl | apply keeps_ite | split | (intro _) | simp (disch := (apply State.SameBut.mk <;> first | exact Base.Has.no | exact fun _ => rfl)) only [keeps_mk] | apply keeps_mk_free | apply keeps_mk_hbm_setPoison | apply keeps_mk_hub_setPoison | apply keeps_mk_hub_write2 | apply keeps_mk_hub_writeByte | apply keeps_mk_hub_write | (apply State.SameBut.mk <;> first | exact Base.Has.no | exact fun _ => rfl))
theorem keeps_runPage {x0 : Base} [x0.Has .regs] [x0.Has .hbm] [x0.Has .facets] [x0.Has .faults] [x0.Has .noc]
    [x0.Has .raises] [x0.Has .free]
    (s : State) (pf : Nat) (o : MOp) (dir rl : Nat) (desc : List Byte) (hk : x0.Keeps s) :
    x0.Keeps (State.runPage s pf o dir rl desc) := by
  unfold State.runPage
  with_reducible repeat' (first
    | exact hk | assumption | apply keeps_moveFail | apply keeps_walk | apply keeps_scatter | apply keeps_gather
    | apply keeps_ite | split | (intro _)
    | simp (disch := (apply State.SameBut.mk <;> first | exact Base.Has.no | exact fun _ => rfl)) only [keeps_mk]
    | (apply State.SameBut.mk <;> first | exact Base.Has.no | exact fun _ => rfl))

theorem keeps_execMovementOpComplete {x0 : Base} [x0.Has .regs] [x0.Has .hbm] [x0.Has .facets] [x0.Has .regions] [x0.Has .faults]
    [x0.Has .noc] [x0.Has .serve] [x0.Has .raises] [x0.Has .free]
    (pf idx : Nat) (s : State) (hk : x0.Keeps s) :
    KeepsRes x0 (execMovementOpComplete pf idx s) := by
  unfold execMovementOpComplete
  with_reducible repeat' (first
    | exact hk | assumption | apply keepsRes_next | apply keepsRes_ite | apply keeps_runCopy | apply keeps_asyncCore
    | apply keeps_runPage | apply keeps_ite | split | (intro _)
    | simp (disch := (apply State.SameBut.mk <;> first | exact Base.Has.no | exact fun _ => rfl)) only [keeps_mk]
    | (apply State.SameBut.mk <;> first | exact Base.Has.no | exact fun _ => rfl))

theorem keeps_execPrismBlockDecode {x0 : Base} [x0.Has .regs] [x0.Has .hbm] [x0.Has .facets] [x0.Has .faults] [x0.Has .raises] (pf reader : Nat) (s : State) (hk : x0.Keeps s) :
    KeepsRes x0 (execPrismBlockDecode pf reader s) := by
  unfold execPrismBlockDecode
  with_reducible repeat' (first
    | exact hk | assumption | apply keepsRes_next | apply keepsRes_ite | apply keeps_eccPort | apply keeps_bump
    | apply keeps_prismCount | apply keeps_setFacet | apply keeps_injDone | apply keeps_asyncCore | apply keeps_portWrite
    | apply keeps_setFacet | apply keeps_ite | split | (intro _)
    | simp (disch := (apply State.SameBut.mk <;> first | exact Base.Has.no | exact fun _ => rfl)) only [keeps_mk]
    | (apply State.SameBut.mk <;> first | exact Base.Has.no | exact fun _ => rfl))

theorem keeps_execWindowRead {x0 : Base} [x0.Has .regs] [x0.Has .hbm] [x0.Has .facets] [x0.Has .faults] [x0.Has .raises]
    [x0.Has .out]
    (addr n : Nat) (s : State) (hk : x0.Keeps s) :
    KeepsRes x0 (execWindowRead addr n s) := by
  unfold execWindowRead
  with_reducible repeat' (first
    | exact hk | assumption | apply keepsRes_next | apply keepsRes_fault | apply keepsRes_ite | apply keeps_emit
    | apply keeps_portRead | apply keeps_windowEvent | apply keeps_ite | split | (intro _)
    | simp (disch := (apply State.SameBut.mk <;> first | exact Base.Has.no | exact fun _ => rfl)) only [keeps_mk]
    | (apply State.SameBut.mk <;> first | exact Base.Has.no | exact fun _ => rfl))

theorem keeps_execWindowWrite {x0 : Base} [x0.Has .regs] [x0.Has .hbm] [x0.Has .facets] [x0.Has .regions] [x0.Has .faults]
    [x0.Has .raises]
    (addr : Nat) (data : List Byte) (poison : Bool) (s : State) (hk : x0.Keeps s) :
    KeepsRes x0 (execWindowWrite addr data poison s) := by
  unfold execWindowWrite
  with_reducible repeat' (first
    | exact hk | assumption | apply keepsRes_next | apply keepsRes_fault | apply keepsRes_ite | apply keeps_eccPort
    | apply keeps_portWrite | apply keeps_windowTouch | apply keeps_windowEvent | apply keeps_ite | split | (intro _)
    | simp (disch := (apply State.SameBut.mk <;> first | exact Base.Has.no | exact fun _ => rfl)) only [keeps_mk]
    | (apply State.SameBut.mk <;> first | exact Base.Has.no | exact fun _ => rfl))

theorem keeps_execStep {x0 : Base} [x0.Has .regs] [x0.Has .hbm] [x0.Has .facets] [x0.Has .arrs] [x0.Has .larrs]
    [x0.Has .outJobs] [x0.Has .staged] [x0.Has .regions] [x0.Has .loader] [x0.Has .faults]
    [x0.Has .link] [x0.Has .noc] [x0.Has .raises] [x0.Has .out]
    (h : Hdr) (vd rd : Nat) (s : State) (hk : x0.Keeps s) :
    KeepsRes x0 (execStep h vd rd s) := by
  unfold execStep
  with_reducible repeat' (first
    | exact hk | assumption | apply keepsRes_next | apply keepsRes_ite | apply keeps_wr | apply keeps_slotStep
    | apply keeps_ite | split | (intro _)
    | simp (disch := (apply State.SameBut.mk <;> first | exact Base.Has.no | exact fun _ => rfl)) only [keeps_mk]
    | (apply State.SameBut.mk <;> first | exact Base.Has.no | exact fun _ => rfl))

theorem keeps_execScommit {x0 : Base} [x0.Has .regs] [x0.Has .hbm] [x0.Has .facets] [x0.Has .arrs] [x0.Has .larrs]
    [x0.Has .outJobs] [x0.Has .staged] [x0.Has .regions] [x0.Has .loader] [x0.Has .faults]
    [x0.Has .link] [x0.Has .noc] [x0.Has .raises] [x0.Has .out]
    (h : Hdr) (s : State) (hk : x0.Keeps s) :
    KeepsRes x0 (execScommit h s) := by
  unfold execScommit
  with_reducible repeat' (first
    | exact hk | assumption | apply keepsRes_next | apply keepsRes_ite | apply keeps_slotStep | apply keeps_bump
    | apply keeps_ite | split | (intro _)
    | simp (disch := (apply State.SameBut.mk <;> first | exact Base.Has.no | exact fun _ => rfl)) only [keeps_mk]
    | (apply State.SameBut.mk <;> first | exact Base.Has.no | exact fun _ => rfl))

theorem keeps_execSend {x0 : Base} [x0.Has .regs] [x0.Has .hbm] [x0.Has .facets] [x0.Has .arrs] [x0.Has .larrs]
    [x0.Has .outJobs] [x0.Has .staged] [x0.Has .regions] [x0.Has .loader] [x0.Has .faults]
    [x0.Has .link] [x0.Has .noc] [x0.Has .raises] [x0.Has .out]
    (h : Hdr) (rl ra rn chan : Nat) (s : State) (hk : x0.Keeps s) :
    KeepsRes x0 (execSend h rl ra rn chan s) := by
  unfold execSend
  with_reducible repeat' (first
    | exact hk | assumption | apply keepsRes_next | apply keepsRes_ite | apply keeps_slotStep | apply keeps_ite | split
    | (intro _)
    | simp (disch := (apply State.SameBut.mk <;> first | exact Base.Has.no | exact fun _ => rfl)) only [keeps_mk]
    | (apply State.SameBut.mk <;> first | exact Base.Has.no | exact fun _ => rfl))

theorem keeps_execRecv {x0 : Base} [x0.Has .regs] [x0.Has .hbm] [x0.Has .facets] [x0.Has .arrs] [x0.Has .larrs]
    [x0.Has .outJobs] [x0.Has .staged] [x0.Has .regions] [x0.Has .loader] [x0.Has .faults]
    [x0.Has .link] [x0.Has .noc] [x0.Has .raises] [x0.Has .out]
    (h : Hdr) (pd ra rn rs chan : Nat) (s : State) (hk : x0.Keeps s) :
    KeepsRes x0 (execRecv h pd ra rn rs chan s) := by
  unfold execRecv
  with_reducible repeat' (first
    | exact hk | assumption | apply keepsRes_next | apply keepsRes_ite | apply keeps_slotStep | apply keeps_ite | split
    | (intro _)
    | simp (disch := (apply State.SameBut.mk <;> first | exact Base.Has.no | exact fun _ => rfl)) only [keeps_mk]
    | (apply State.SameBut.mk <;> first | exact Base.Has.no | exact fun _ => rfl))

theorem keeps_execSout {x0 : Base} [x0.Has .regs] [x0.Has .hbm] [x0.Has .facets] [x0.Has .arrs] [x0.Has .larrs]
    [x0.Has .outJobs] [x0.Has .staged] [x0.Has .regions] [x0.Has .loader] [x0.Has .faults]
    [x0.Has .link] [x0.Has .noc] [x0.Has .raises] [x0.Has .out]
    (h : Hdr) (re ra rn ro : Nat) (s : State) (hk : x0.Keeps s) :
    KeepsRes x0 (execSout h re ra rn ro s) := by
  unfold execSout
  with_reducible repeat' (first
    | exact hk | assumption | apply keepsRes_next | apply keepsRes_ite | apply keeps_slotStep | apply keeps_ite | split
    | (intro _)
    | simp (disch := (apply State.SameBut.mk <;> first | exact Base.Has.no | exact fun _ => rfl)) only [keeps_mk]
    | (apply State.SameBut.mk <;> first | exact Base.Has.no | exact fun _ => rfl))

theorem keeps_barIssue {x0 : Base} [x0.Has .facets] (s : State) (h : Hdr) (id rn : Nat) (hk : x0.Keeps s) :
    x0.Keeps (State.barIssue s h id rn) := by
  unfold State.barIssue
  with_reducible repeat' (first
    | exact hk | assumption | apply keeps_setFacet | apply keeps_setFacet | apply keeps_ite | split | (intro _)
    | simp (disch := (apply State.SameBut.mk <;> first | exact Base.Has.no | exact fun _ => rfl)) only [keeps_mk]
    | (apply State.SameBut.mk <;> first | exact Base.Has.no | exact fun _ => rfl))

theorem keeps_execBar {x0 : Base} [x0.Has .regs] [x0.Has .hbm] [x0.Has .facets] [x0.Has .arrs] [x0.Has .larrs]
    [x0.Has .outJobs] [x0.Has .staged] [x0.Has .regions] [x0.Has .loader] [x0.Has .faults]
    [x0.Has .link] [x0.Has .noc] [x0.Has .raises] [x0.Has .out]
    (h : Hdr) (id rn : Nat) (s : State) (hk : x0.Keeps s) :
    KeepsRes x0 (execBar h id rn s) := by
  unfold execBar
  with_reducible repeat' (first
    | exact hk | assumption | apply keepsRes_next | apply keepsRes_ite | apply keeps_barIssue | apply keeps_slotStep
    | apply keeps_ite | split | (intro _)
    | simp (disch := (apply State.SameBut.mk <;> first | exact Base.Has.no | exact fun _ => rfl)) only [keeps_mk]
    | (apply State.SameBut.mk <;> first | exact Base.Has.no | exact fun _ => rfl))

theorem keeps_execBarrierRelease {x0 : Base} [x0.Has .facets] (service id step : Nat) (s : State) (hk : x0.Keeps s) :
    KeepsRes x0 (execBarrierRelease service id step s) := by
  unfold execBarrierRelease
  with_reducible repeat' (first
    | exact hk | assumption | apply keepsRes_next | apply keepsRes_ite | apply keeps_setFacet | apply keeps_setFacet
    | apply keeps_foldl_fst | apply keeps_foldl | apply keeps_ite | split | (intro _)
    | simp (disch := (apply State.SameBut.mk <;> first | exact Base.Has.no | exact fun _ => rfl)) only [keeps_mk]
    | (apply State.SameBut.mk <;> first | exact Base.Has.no | exact fun _ => rfl))

theorem keeps_execMessageArrive {x0 : Base} [x0.Has .facets] [x0.Has .noc] (pf src chan : Nat) (s : State) (hk : x0.Keeps s) :
    KeepsRes x0 (execMessageArrive pf src chan s) := by
  unfold execMessageArrive
  with_reducible repeat' (first
    | exact hk | assumption | apply keepsRes_next | apply keepsRes_ite | apply keeps_asyncCore | apply keeps_ite | split
    | (intro _)
    | simp (disch := (apply State.SameBut.mk <;> first | exact Base.Has.no | exact fun _ => rfl)) only [keeps_mk]
    | (apply State.SameBut.mk <;> first | exact Base.Has.no | exact fun _ => rfl))

theorem keeps_execSendCreditReturn {x0 : Base} [x0.Has .facets] (pf idx : Nat) (s : State) (hk : x0.Keeps s) :
    KeepsRes x0 (execSendCreditReturn pf idx s) := by
  unfold execSendCreditReturn
  with_reducible repeat' (first
    | exact hk | assumption | apply keepsRes_next | apply keeps_asyncCore | split
    | simp (disch := (apply State.SameBut.mk <;> first | exact Base.Has.no | exact fun _ => rfl)) only [keeps_mk]
    | (apply State.SameBut.mk <;> first | exact Base.Has.no | exact fun _ => rfl))

theorem keeps_execFacLoadGo {x0 : Base} [x0.Has .regs] [x0.Has .raises] (pf : Nat) (s : State) (hk : x0.Keeps s) :
    KeepsRes x0 (execFacLoadGo pf s) := by
  unfold execFacLoadGo
  with_reducible repeat' (first
    | exact hk | assumption | apply keepsRes_next | apply keepsRes_ite | apply keeps_wr | apply keeps_raise
    | apply keeps_setFacState | apply keeps_ite | split | (intro _)
    | simp (disch := (apply State.SameBut.mk <;> first | exact Base.Has.no | exact fun _ => rfl)) only [keeps_mk])

theorem keeps_validateTables {x0 : Base} [x0.Has .regs] (s : State) (pf : Nat) (hk : x0.Keeps s) :
    x0.Keeps (State.validateTables s pf) := by
  unfold State.validateTables
  with_reducible repeat' (first
    | exact hk | assumption | apply keeps_wr | apply keeps_foldl_fst | apply keeps_foldl | apply keeps_ite | split
    | (intro _))

theorem keeps_loadEnd {x0 : Base} [x0.Has .regs] [x0.Has .raises] (s : State) (pf : Nat) (code : Nat) (i : Image) (hk : x0.Keeps s) :
    x0.Keeps (State.loadEnd s pf code i) := by
  unfold State.loadEnd
  with_reducible repeat' (first
    | exact hk | assumption | apply keeps_wr | apply keeps_raise | apply keeps_setFacState | apply keeps_ite | split
    | (intro _)
    | simp (disch := (apply State.SameBut.mk <;> first | exact Base.Has.no | exact fun _ => rfl)) only [keeps_mk])

theorem keeps_execFacLoadDone {x0 : Base} [x0.Has .regs] [x0.Has .hbm] [x0.Has .facets] [x0.Has .faults] [x0.Has .raises] (pf : Nat) (s : State) (hk : x0.Keeps s) :
    KeepsRes x0 (execFacLoadDone pf s) := by
  unfold execFacLoadDone
  with_reducible repeat' (first
    | exact hk | assumption | apply keepsRes_next | apply keepsRes_ite | apply keeps_rangeRead | apply keeps_validateTables
    | apply keeps_loadEnd | apply keeps_asyncCore | apply keeps_ite | split | (intro _)
    | simp (disch := (apply State.SameBut.mk <;> first | exact Base.Has.no | exact fun _ => rfl)) only [keeps_mk])

theorem keeps_startAtEntry {x0 : Base} [x0.Has .regs] [x0.Has .facets] (s : State) (pf : Nat) (hk : x0.Keeps s) :
    x0.Keeps (State.startAtEntry s pf) := by
  unfold State.startAtEntry
  with_reducible repeat' (first
    | exact hk | assumption | apply keeps_wr | apply keeps_asyncCore | apply keeps_setFacState | (intro _)
    | simp (disch := (apply State.SameBut.mk <;> first | exact Base.Has.no | exact fun _ => rfl)) only [keeps_mk]
    | (apply State.SameBut.mk <;> first | exact Base.Has.no | exact fun _ => rfl))

theorem keeps_execFacRun {x0 : Base} [x0.Has .regs] [x0.Has .facets] (pf : Nat) (s : State) (hk : x0.Keeps s) :
    KeepsRes x0 (execFacRun pf s) := by
  unfold execFacRun
  with_reducible repeat' (first
    | exact hk | assumption | apply keepsRes_next | apply keepsRes_ite | apply keeps_startAtEntry | apply keeps_ite | split
    | (intro _)
    | simp (disch := (apply State.SameBut.mk <;> first | exact Base.Has.no | exact fun _ => rfl)) only [keeps_mk])

theorem keeps_execFacStop {x0 : Base} [x0.Has .regs] (pf : Nat) (s : State) (hk : x0.Keeps s) :
    KeepsRes x0 (execFacStop pf s) := by
  unfold execFacStop
  with_reducible repeat' (first | exact hk | assumption | apply keepsRes_next | apply keeps_wr)

theorem keeps_execFacReset {x0 : Base} [x0.Has .regs] [x0.Has .facets] (pf : Nat) (s : State) (hk : x0.Keeps s) :
    KeepsRes x0 (execFacReset pf s) := by
  unfold execFacReset
  with_reducible repeat' (first
    | exact hk | assumption | apply keepsRes_next | apply keeps_wr | apply keeps_setFacet | apply keeps_setFacet
    | simp (disch := (apply State.SameBut.mk <;> first | exact Base.Has.no | exact fun _ => rfl)) only [keeps_mk]
    | (apply State.SameBut.mk <;> first | exact Base.Has.no | exact fun _ => rfl))

theorem keeps_appendLate {x0 : Base} [x0.Has .regs] [x0.Has .faults] (s : State) (pf : Nat) (hk : x0.Keeps s) :
    x0.Keeps (State.appendLate s pf) := by
  unfold State.appendLate
  with_reducible repeat' (first
    | exact hk | assumption | apply keeps_appendMap | apply keeps_foldl_fst | apply keeps_foldl | (intro _)
    | simp (disch := (apply State.SameBut.mk <;> first | exact Base.Has.no | exact fun _ => rfl)) only [keeps_mk]
    | (apply State.SameBut.mk <;> first | exact Base.Has.no | exact fun _ => rfl))

theorem keeps_execFacBindWrite {x0 : Base} [x0.Has .regs] [x0.Has .faults] (pf value : Nat) (s : State) (hk : x0.Keeps s) :
    KeepsRes x0 (execFacBindWrite pf value s) := by
  unfold execFacBindWrite
  with_reducible repeat' (first
    | exact hk | assumption | apply keepsRes_next | apply keepsRes_ite | apply keeps_wr | apply keeps_appendLate
    | apply keeps_ite | split | (intro _)
    | simp (disch := (apply State.SameBut.mk <;> first | exact Base.Has.no | exact fun _ => rfl)) only [keeps_mk])

theorem keeps_execFacEpochWrite {x0 : Base} [x0.Has .regs] (pf value : Nat) (s : State) (hk : x0.Keeps s) :
    KeepsRes x0 (execFacEpochWrite pf value s) := by
  unfold execFacEpochWrite
  with_reducible repeat' (first
    | exact hk | assumption | apply keepsRes_next | apply keepsRes_ite | apply keeps_wr | apply keeps_ite | split
    | (intro _)
    | simp (disch := (apply State.SameBut.mk <;> first | exact Base.Has.no | exact fun _ => rfl)) only [keeps_mk])

theorem keeps_execException {x0 : Base} [x0.Has .regs] [x0.Has .facets] [x0.Has .raises] (pf slot cause : Nat) (s : State) (hk : x0.Keeps s) :
    KeepsRes x0 (execException pf slot cause s) := by
  unfold execException
  with_reducible repeat' (first
    | exact hk | assumption | apply keepsRes_next | apply keepsRes_ite | apply keeps_takeException | apply keeps_ite
    | split)

theorem keeps_reportFailed {x0 : Base} [x0.Has .noc] (s : State) (pf : Nat) (all : Bool) (hk : x0.Keeps s) :
    x0.Keeps (State.reportFailed s pf all) := by
  unfold State.reportFailed
  with_reducible repeat' (first
    | exact hk | assumption | apply keeps_ite | split | (intro _)
    | simp (disch := (apply State.SameBut.mk <;> first | exact Base.Has.no | exact fun _ => rfl)) only [keeps_mk]
    | (apply State.SameBut.mk <;> first | exact Base.Has.no | exact fun _ => rfl))

theorem keeps_resetFacet {x0 : Base} [x0.Has .regs] [x0.Has .facets] [x0.Has .noc] (s : State) (pf : Nat) (hk : x0.Keeps s) :
    x0.Keeps (State.resetFacet s pf) := by
  unfold State.resetFacet
  with_reducible repeat' (first
    | exact hk | assumption | apply keeps_wr | apply keeps_closeSession | apply keeps_reportFailed
    | apply keeps_setFacState | apply keeps_setFacet | apply keeps_setFacet | (intro _)
    | simp (disch := (apply State.SameBut.mk <;> first | exact Base.Has.no | exact fun _ => rfl)) only [keeps_mk]
    | (apply State.SameBut.mk <;> first | exact Base.Has.no | exact fun _ => rfl))

theorem keeps_execExceptionSettle {x0 : Base} [x0.Has .regs] [x0.Has .facets] [x0.Has .noc] (pf : Nat) (s : State) (hk : x0.Keeps s) :
    KeepsRes x0 (execExceptionSettle pf s) := by
  unfold execExceptionSettle
  with_reducible repeat' (first
    | exact hk | assumption | apply keepsRes_next | apply keepsRes_ite | apply keeps_reportFailed
    | apply keeps_startAtEntry | apply keeps_setFacState | apply keeps_resetFacet | apply keeps_setFacet
    | apply keeps_setFacet | apply keeps_ite | split | (intro _)
    | simp (disch := (apply State.SameBut.mk <;> first | exact Base.Has.no | exact fun _ => rfl)) only [keeps_mk]
    | (apply State.SameBut.mk <;> first | exact Base.Has.no | exact fun _ => rfl))

end Sys2Proof.Machine
end

