-- ==== Sys2Proof/Laws/KeepsControl.lean ====
section
/-! SUPPORT. What the operations of Calib VaultOps Clocks Events Boot keep (State.Keeps). -/

set_option linter.unusedSimpArgs false

namespace Sys2Proof.Machine

theorem keeps_execTrimRecompute {x0 : Base} [x0.Has .regions] (g : Nat) (s : State) (hk : x0.Keeps s) :
    KeepsRes x0 (execTrimRecompute g s) := by
  unfold execTrimRecompute
  with_reducible repeat' (first
    | exact hk | assumption | apply keepsRes_next | apply keeps_setRegion | (intro _)
    | simp (disch := (apply State.SameBut.mk <;> first | exact Base.Has.no | exact fun _ => rfl)) only [keeps_mk]
    | (apply State.SameBut.mk <;> first | exact Base.Has.no | exact fun _ => rfl))

theorem keeps_execTrimApply {x0 : Base} [x0.Has .regs] [x0.Has .arrs] (pf arr : Nat) (s : State) (hk : x0.Keeps s) :
    KeepsRes x0 (execTrimApply pf arr s) := by
  unfold execTrimApply
  with_reducible repeat' (first
    | exact hk | assumption | apply keepsRes_next | apply keepsRes_ite | apply keeps_ownTrims | apply keeps_setParr
    | apply keeps_setTrims | apply keeps_foldl_fst | apply keeps_foldl | apply keeps_ite | split | (intro _)
    | simp (disch := (apply State.SameBut.mk <;> first | exact Base.Has.no | exact fun _ => rfl)) only [keeps_mk]
    | (apply State.SameBut.mk <;> first | exact Base.Has.no | exact fun _ => rfl))

theorem keeps_execCalRunStart {x0 : Base} [x0.Has .regs] [x0.Has .arrs] [x0.Has .regions] (g : Nat) (s : State) (hk : x0.Keeps s) :
    KeepsRes x0 (execCalRunStart g s) := by
  unfold execCalRunStart
  with_reducible repeat' (first
    | exact hk | assumption | apply keepsRes_next | apply keepsRes_ite | apply keeps_wr | apply keeps_setRegion
    | apply keeps_ite | split | (intro _)
    | simp (disch := (apply State.SameBut.mk <;> first | exact Base.Has.no | exact fun _ => rfl)) only [keeps_mk]
    | (apply State.SameBut.mk <;> first | exact Base.Has.no | exact fun _ => rfl))

theorem keeps_onRun {x0 : Base} [x0.Has .regions] (s : State) (g : Nat) (f : CalRun → CalRun) (hk : x0.Keeps s) :
    x0.Keeps (State.onRun s g f) := by
  unfold State.onRun
  with_reducible repeat' (first
    | exact hk | assumption | apply keeps_setRegion
    | simp (disch := (apply State.SameBut.mk <;> first | exact Base.Has.no | exact fun _ => rfl)) only [keeps_mk]
    | (apply State.SameBut.mk <;> first | exact Base.Has.no | exact fun _ => rfl))

theorem keeps_endRun {x0 : Base} [x0.Has .regs] [x0.Has .regions] [x0.Has .raises] (s : State) (g : Nat) (hk : x0.Keeps s) :
    x0.Keeps (State.endRun s g) := by
  unfold State.endRun
  with_reducible repeat' (first
    | exact hk | assumption | apply keeps_wr | apply keeps_setRegion | apply keeps_raise | apply keeps_bump | split
    | (intro _)
    | simp (disch := (apply State.SameBut.mk <;> first | exact Base.Has.no | exact fun _ => rfl)) only [keeps_mk]
    | (apply State.SameBut.mk <;> first | exact Base.Has.no | exact fun _ => rfl))

theorem keeps_endArray {x0 : Base} [x0.Has .regs] [x0.Has .regions] [x0.Has .raises] (s : State) (pf a : Nat) (hk : x0.Keeps s) :
    x0.Keeps (State.endArray s pf a) := by
  unfold State.endArray
  with_reducible repeat' (first
    | exact hk | assumption | apply keeps_wr | apply keeps_onRun | apply keeps_endRun | apply keeps_bump | apply keeps_ite
    | split | (intro _)
    | simp (disch := (apply State.SameBut.mk <;> first | exact Base.Has.no | exact fun _ => rfl)) only [keeps_mk]
    | (apply State.SameBut.mk <;> first | exact Base.Has.no | exact fun _ => rfl))

theorem keeps_checkArray {x0 : Base} [x0.Has .regs] [x0.Has .regions] [x0.Has .raises] (s : State) (pf a : Nat) (hk : x0.Keeps s) :
    x0.Keeps (State.checkArray s pf a) := by
  unfold State.checkArray
  with_reducible repeat' (first | exact hk | assumption | apply keeps_endArray | apply keeps_ite | split)

theorem keeps_calReject {x0 : Base} [x0.Has .regs] [x0.Has .arrs] [x0.Has .regions] [x0.Has .raises] (s : State) (pf a n outcome : Nat) (hk : x0.Keeps s) :
    x0.Keeps (State.calReject s pf a n outcome) := by
  unfold State.calReject
  with_reducible repeat' (first
    | exact hk | assumption | apply keeps_wr | apply keeps_onRun | apply keeps_raise | apply keeps_calResult
    | apply keeps_queueFence | apply keeps_bump | apply keeps_ite | split | (intro _)
    | simp (disch := (apply State.SameBut.mk <;> first | exact Base.Has.no | exact fun _ => rfl)) only [keeps_mk]
    | (apply State.SameBut.mk <;> first | exact Base.Has.no | exact fun _ => rfl))

theorem keeps_calDefer {x0 : Base} [x0.Has .regs] [x0.Has .arrs] [x0.Has .regions] (s : State) (pf a n : Nat) (hk : x0.Keeps s) :
    x0.Keeps (State.calDefer s pf a n) := by
  unfold State.calDefer
  with_reducible repeat' (first
    | exact hk | assumption | apply keeps_onRun | apply keeps_calResult | apply keeps_bump | (intro _)
    | simp (disch := (apply State.SameBut.mk <;> first | exact Base.Has.no | exact fun _ => rfl)) only [keeps_mk]
    | (apply State.SameBut.mk <;> first | exact Base.Has.no | exact fun _ => rfl))

theorem keeps_execCalRunTimeout {x0 : Base} [x0.Has .regs] [x0.Has .arrs] [x0.Has .regions] [x0.Has .raises] (g : Nat) (s : State) (hk : x0.Keeps s) :
    KeepsRes x0 (execCalRunTimeout g s) := by
  unfold execCalRunTimeout
  with_reducible repeat' (first
    | exact hk | assumption | apply keepsRes_next | apply keepsRes_ite | apply keeps_calDefer | apply keeps_ownTrims
    | apply keeps_setParr | apply keeps_countFree | apply keeps_endShadow | apply keeps_endArray | apply keeps_foldl_fst
    | apply keeps_foldl | apply keeps_ite | split | (intro _)
    | simp (disch := (apply State.SameBut.mk <;> first | exact Base.Has.no | exact fun _ => rfl)) only [keeps_mk]
    | (apply State.SameBut.mk <;> first | exact Base.Has.no | exact fun _ => rfl))

theorem keeps_execCalWindowFull {x0 : Base} [x0.Has .regs] [x0.Has .arrs] [x0.Has .regions] [x0.Has .raises] (pf arr conv : Nat) (s : State) (hk : x0.Keeps s) :
    KeepsRes x0 (execCalWindowFull pf arr conv s) := by
  unfold execCalWindowFull
  with_reducible repeat' (first
    | exact hk | assumption | apply keepsRes_next | apply keepsRes_ite | apply keeps_checkArray | apply keeps_calReject
    | apply keeps_calDefer | apply keeps_setParr | apply keeps_ite | split | (intro _)
    | simp (disch := (apply State.SameBut.mk <;> first | exact Base.Has.no | exact fun _ => rfl)) only [keeps_mk]
    | (apply State.SameBut.mk <;> first | exact Base.Has.no | exact fun _ => rfl))

theorem keeps_execShadowWindowStart {x0 : Base} [x0.Has .regs] [x0.Has .arrs] [x0.Has .regions] [x0.Has .raises] (pf arr : Nat) (s : State) (hk : x0.Keeps s) :
    KeepsRes x0 (execShadowWindowStart pf arr s) := by
  unfold execShadowWindowStart
  with_reducible repeat' (first
    | exact hk | assumption | apply keepsRes_next | apply keepsRes_ite | apply keeps_checkArray | apply keeps_wr
    | apply keeps_countFree | apply keeps_calResult | apply keeps_setConv | apply keeps_setParr | apply keeps_setTrims
    | apply keeps_ite | split | (intro _)
    | simp (disch := (apply State.SameBut.mk <;> first | exact Base.Has.no | exact fun _ => rfl)) only [keeps_mk]
    | apply keeps_mk_free | (apply State.SameBut.mk <;> first | exact Base.Has.no | exact fun _ => rfl))

theorem keeps_execCalAttemptEnd {x0 : Base} [x0.Has .regs] [x0.Has .arrs] [x0.Has .regions] [x0.Has .raises] (pf arr conv : Nat) (s : State) (hk : x0.Keeps s) :
    KeepsRes x0 (execCalAttemptEnd pf arr conv s) := by
  unfold execCalAttemptEnd
  with_reducible repeat' (first
    | exact hk | assumption | apply keepsRes_next | apply keepsRes_ite | apply keeps_checkArray | apply keeps_calReject
    | apply keeps_wr | apply keeps_setRegion | apply keeps_onRun | apply keeps_setReg | apply keeps_ownTrims
    | apply keeps_calResult | apply keeps_countFree | apply keeps_endShadow | apply keeps_setReg | apply keeps_ite | split
    | (intro _)
    | simp (disch := (apply State.SameBut.mk <;> first | exact Base.Has.no | exact fun _ => rfl)) only [keeps_mk]
    | (apply State.SameBut.mk <;> first | exact Base.Has.no | exact fun _ => rfl))

theorem keeps_execCalStartWrite {x0 : Base} [x0.Has .regs] (g : Nat) (s : State) (hk : x0.Keeps s) :
    KeepsRes x0 (execCalStartWrite g s) := by
  unfold execCalStartWrite
  with_reducible repeat' (first | exact hk | assumption | apply keepsRes_next | apply keeps_wr)

theorem keeps_execCalStoreWrite {x0 : Base} [x0.Has .regions] [x0.Has .calStore] (pf arr conv : Nat) (s : State) (hk : x0.Keeps s) :
    KeepsRes x0 (execCalStoreWrite pf arr conv s) := by
  unfold execCalStoreWrite
  with_reducible repeat' (first
    | exact hk | assumption | apply keepsRes_next | apply keepsRes_ite | apply keeps_setRegion | apply keeps_ite | split
    | (intro _)
    | simp (disch := (apply State.SameBut.mk <;> first | exact Base.Has.no | exact fun _ => rfl)) only [keeps_mk]
    | (apply State.SameBut.mk <;> first | exact Base.Has.no | exact fun _ => rfl))

theorem keeps_vput {x0 : Base} [x0.Has .regs] [x0.Has .vault] (s : State) (r : Nat) (d : VData) (hk : x0.Keeps s) :
    x0.Keeps (State.vput s r d) := by
  unfold State.vput
  with_reducible repeat' (first
    | exact hk | assumption | apply keeps_wr | (intro _)
    | simp (disch := (apply State.SameBut.mk <;> first | exact Base.Has.no | exact fun _ => rfl)) only [keeps_mk]
    | (apply State.SameBut.mk <;> first | exact Base.Has.no | exact fun _ => rfl))

theorem keeps_vstore {x0 : Base} [x0.Has .regs] [x0.Has .vault] (s : State) (r c gen : Nat) (d : VData) (hk : x0.Keeps s) :
    x0.Keeps (State.vstore s r c gen d) := by
  unfold State.vstore
  with_reducible repeat' (first
    | exact hk | assumption | apply keeps_wr | (intro _)
    | simp (disch := (apply State.SameBut.mk <;> first | exact Base.Has.no | exact fun _ => rfl)) only [keeps_mk]
    | (apply State.SameBut.mk <;> first | exact Base.Has.no | exact fun _ => rfl))

theorem keeps_execVaultWrite {x0 : Base} [x0.Has .regs] [x0.Has .vault] (s : State) (hk : x0.Keeps s) :
    KeepsRes x0 (execVaultWrite s) := by
  unfold execVaultWrite
  with_reducible repeat' (first
    | exact hk | assumption | apply keepsRes_next | apply keepsRes_ite | apply keeps_wr | apply keeps_vstore
    | apply keeps_ite | split | (intro _)
    | simp (disch := (apply State.SameBut.mk <;> first | exact Base.Has.no | exact fun _ => rfl)) only [keeps_mk]
    | (apply State.SameBut.mk <;> first | exact Base.Has.no | exact fun _ => rfl))

theorem keeps_vaultDieLost {x0 : Base} [x0.Has .regs] [x0.Has .vault] [x0.Has .raises] (s : State) (d : Nat) (hk : x0.Keeps s) :
    x0.Keeps (State.vaultDieLost s d) := by
  unfold State.vaultDieLost
  with_reducible repeat' (first
    | exact hk | assumption | apply keeps_wr | apply keeps_raise | apply keeps_foldl_fst | apply keeps_foldl | split
    | (intro _)
    | simp (disch := (apply State.SameBut.mk <;> first | exact Base.Has.no | exact fun _ => rfl)) only [keeps_mk]
    | (apply State.SameBut.mk <;> first | exact Base.Has.no | exact fun _ => rfl))

theorem keeps_execVaultRebuild {x0 : Base} [x0.Has .regs] [x0.Has .vault] (s : State) (hk : x0.Keeps s) :
    KeepsRes x0 (execVaultRebuild s) := by
  unfold execVaultRebuild
  with_reducible repeat' (first
    | exact hk | assumption | apply keepsRes_next | apply keepsRes_ite | apply keeps_wr | apply keeps_vstore
    | apply keeps_foldl_fst | apply keeps_foldl | apply keeps_ite | split | (intro _)
    | simp (disch := (apply State.SameBut.mk <;> first | exact Base.Has.no | exact fun _ => rfl)) only [keeps_mk]
    | (apply State.SameBut.mk <;> first | exact Base.Has.no | exact fun _ => rfl))

theorem keeps_setCtl {x0 : Base} [x0.Has .ctl] (s : State) (c : Ctl) (hk : x0.Keeps s) :
    x0.Keeps (State.setCtl s c) := by
  unfold State.setCtl
  with_reducible repeat' (first
    | exact hk | assumption
    | simp (disch := (apply State.SameBut.mk <;> first | exact Base.Has.no | exact fun _ => rfl)) only [keeps_mk]
    | (apply State.SameBut.mk <;> first | exact Base.Has.no | exact fun _ => rfl))

theorem keeps_setRail {x0 : Base} [x0.Has .regs] [x0.Has .out] (s : State) (d mv : Nat) (hk : x0.Keeps s) :
    x0.Keeps (State.setRail s d mv) := by
  unfold State.setRail
  with_reducible repeat' (first | exact hk | assumption | apply keeps_wr | apply keeps_emit)

theorem keeps_askClock {x0 : Base} [x0.Has .regions] (s : State) (g f : Nat) (hk : x0.Keeps s) :
    x0.Keeps (State.askClock s g f) := by
  unfold State.askClock
  with_reducible repeat' (first
    | exact hk | assumption | apply keeps_setRegion | apply keeps_ite | split | (intro _)
    | simp (disch := (apply State.SameBut.mk <;> first | exact Base.Has.no | exact fun _ => rfl)) only [keeps_mk]
    | (apply State.SameBut.mk <;> first | exact Base.Has.no | exact fun _ => rfl))

theorem keeps_throttleEvent {x0 : Base} [x0.Has .raises] (s : State) (g mhz way : Nat) (hk : x0.Keeps s) :
    x0.Keeps (State.throttleEvent s g mhz way) := by
  unfold State.throttleEvent
  with_reducible repeat' (first | exact hk | assumption | apply keeps_raise)

theorem keeps_execFclkChange {x0 : Base} [x0.Has .regs] [x0.Has .regions] [x0.Has .raises] [x0.Has .out] (g : Nat) (s : State) (hk : x0.Keeps s) :
    KeepsRes x0 (execFclkChange g s) := by
  unfold execFclkChange
  with_reducible repeat' (first
    | exact hk | assumption | apply keepsRes_next | apply keepsRes_ite | apply keeps_wr | apply keeps_setRegion
    | apply keeps_throttleEvent | apply keeps_setRail | apply keeps_ite | split | (intro _)
    | simp (disch := (apply State.SameBut.mk <;> first | exact Base.Has.no | exact fun _ => rfl)) only [keeps_mk]
    | (apply State.SameBut.mk <;> first | exact Base.Has.no | exact fun _ => rfl))

theorem keeps_execRegionClkWrite {x0 : Base} [x0.Has .regs] (g value : Nat) (s : State) (hk : x0.Keeps s) :
    KeepsRes x0 (execRegionClkWrite g value s) := by
  unfold execRegionClkWrite
  with_reducible repeat' (first
    | exact hk | assumption | apply keepsRes_next | apply keeps_wr | apply keeps_rerun | (intro _)
    | simp (disch := (apply State.SameBut.mk <;> first | exact Base.Has.no | exact fun _ => rfl)) only [keeps_mk])

theorem keeps_execRefclkFail {x0 : Base} [x0.Has .ctl] [x0.Has .raises] (s : State) (hk : x0.Keeps s) :
    KeepsRes x0 (execRefclkFail s) := by
  unfold execRefclkFail
  with_reducible repeat' (first
    | exact hk | assumption | apply keepsRes_next | apply keepsRes_ite | apply keeps_setCtl | apply keeps_raise
    | apply keeps_ite | split | (intro _)
    | simp (disch := (apply State.SameBut.mk <;> first | exact Base.Has.no | exact fun _ => rfl)) only [keeps_mk]
    | (apply State.SameBut.mk <;> first | exact Base.Has.no | exact fun _ => rfl))

theorem keeps_setArb {x0 : Base} [x0.Has .ctl] (s : State) (a : Nat) (x : Arb) (hk : x0.Keeps s) :
    x0.Keeps (State.setArb s a x) := by
  unfold State.setArb
  with_reducible repeat' (first
    | exact hk | assumption | apply keeps_setCtl
    | simp (disch := (apply State.SameBut.mk <;> first | exact Base.Has.no | exact fun _ => rfl)) only [keeps_mk]
    | (apply State.SameBut.mk <;> first | exact Base.Has.no | exact fun _ => rfl))

theorem keeps_execPopulationRefresh {x0 : Base} [x0.Has .regs] [x0.Has .ctl] (a : Nat) (active : List (Nat × Nat)) (s : State) (hk : x0.Keeps s) :
    KeepsRes x0 (execPopulationRefresh a active s) := by
  unfold execPopulationRefresh
  with_reducible repeat' (first
    | exact hk | assumption | apply keepsRes_next | apply keepsRes_ite | apply keeps_wr | apply keeps_setCtl
    | apply keeps_setArb | apply keeps_foldl_fst | apply keeps_foldl | apply keeps_ite | split | (intro _)
    | simp (disch := (apply State.SameBut.mk <;> first | exact Base.Has.no | exact fun _ => rfl)) only [keeps_mk]
    | (apply State.SameBut.mk <;> first | exact Base.Has.no | exact fun _ => rfl))

theorem keeps_execArbiterGrant {x0 : Base} [x0.Has .ctl] (a : Nat) (pending : List (Nat × Nat × Nat × Bool)) (s : State) (hk : x0.Keeps s) :
    KeepsRes x0 (execArbiterGrant a pending s) := by
  unfold execArbiterGrant
  with_reducible repeat' (first
    | exact hk | assumption | apply keepsRes_next | apply keepsRes_ite | apply keeps_setArb | apply keeps_ite | split
    | (intro _)
    | simp (disch := (apply State.SameBut.mk <;> first | exact Base.Has.no | exact fun _ => rfl)) only [keeps_mk]
    | (apply State.SameBut.mk <;> first | exact Base.Has.no | exact fun _ => rfl))

theorem keeps_settleIrq {x0 : Base} [x0.Has .ctl] (s : State) (c : Nat) (hk : x0.Keeps s) :
    x0.Keeps (State.settleIrq s c) := by
  unfold State.settleIrq
  with_reducible repeat' (first
    | exact hk | assumption | apply keeps_setCtl | apply keeps_foldl_fst | apply keeps_foldl | apply keeps_ite | split
    | (intro _)
    | simp (disch := (apply State.SameBut.mk <;> first | exact Base.Has.no | exact fun _ => rfl)) only [keeps_mk]
    | (apply State.SameBut.mk <;> first | exact Base.Has.no | exact fun _ => rfl))

theorem keeps_release {x0 : Base} [x0.Has .regs] [x0.Has .ctl] (s : State) (x : Src) (hk : x0.Keeps s) :
    x0.Keeps (State.release s x) := by
  unfold State.release
  with_reducible repeat' (first
    | exact hk | assumption | apply keeps_wr | apply keeps_setCtl | (intro _)
    | simp (disch := (apply State.SameBut.mk <;> first | exact Base.Has.no | exact fun _ => rfl)) only [keeps_mk]
    | (apply State.SameBut.mk <;> first | exact Base.Has.no | exact fun _ => rfl))

theorem keeps_tryRelease {x0 : Base} [x0.Has .regs] [x0.Has .ctl] (s : State) (x : Src) (hk : x0.Keeps s) :
    x0.Keeps (State.tryRelease s x) := by
  unfold State.tryRelease
  with_reducible repeat' (first | exact hk | assumption | apply keeps_release | apply keeps_ite | split)

theorem keeps_putRecord {x0 : Base} [x0.Has .regs] [x0.Has .hub] [x0.Has .out] (s : State) (r : Raise) (hk : x0.Keeps s) :
    x0.Keeps (State.putRecord s r) := by
  unfold State.putRecord
  with_reducible repeat' (first
    | exact hk | assumption | apply keeps_wr | apply keeps_loupeSend | apply keeps_bump | apply keeps_ite | split
    | (intro _)
    | simp (disch := (apply State.SameBut.mk <;> first | exact Base.Has.no | exact fun _ => rfl)) only [keeps_mk]
    | apply keeps_mk_hub_setPoison | apply keeps_mk_hub_write2 | apply keeps_mk_hub_writeByte | apply keeps_mk_hub_write
    | (apply State.SameBut.mk <;> first | exact Base.Has.no | exact fun _ => rfl))

theorem keeps_execEventRaise {x0 : Base} [x0.Has .regs] [x0.Has .hub] [x0.Has .ctl] [x0.Has .raises] [x0.Has .out] (idx : Nat) (s : State) (hk : x0.Keeps s) :
    KeepsRes x0 (execEventRaise idx s) := by
  unfold execEventRaise
  with_reducible repeat' (first
    | exact hk | assumption | apply keepsRes_next | apply keepsRes_ite | apply keeps_wr | apply keeps_setCtl
    | apply keeps_tryRelease | apply keeps_putRecord | apply keeps_ite | split | (intro _)
    | simp (disch := (apply State.SameBut.mk <;> first | exact Base.Has.no | exact fun _ => rfl)) only [keeps_mk]
    | (apply State.SameBut.mk <;> first | exact Base.Has.no | exact fun _ => rfl))

theorem keeps_execCoalTimer {x0 : Base} [x0.Has .regs] [x0.Has .ctl] (k : Nat) (s : State) (hk : x0.Keeps s) :
    KeepsRes x0 (execCoalTimer k s) := by
  unfold execCoalTimer
  with_reducible repeat' (first | exact hk | assumption | apply keepsRes_next | apply keeps_tryRelease)

theorem keeps_execInterruptDeliver {x0 : Base} [x0.Has .regs] [x0.Has .ctl] (c : Nat) (fast asleep : Bool) (s : State) (hk : x0.Keeps s) :
    KeepsRes x0 (execInterruptDeliver c fast asleep s) := by
  unfold execInterruptDeliver
  with_reducible repeat' (first
    | exact hk | assumption | apply keepsRes_next | apply keepsRes_ite | apply keeps_setCtl | apply keeps_bump
    | apply keeps_ite | split | (intro _)
    | simp (disch := (apply State.SameBut.mk <;> first | exact Base.Has.no | exact fun _ => rfl)) only [keeps_mk]
    | (apply State.SameBut.mk <;> first | exact Base.Has.no | exact fun _ => rfl))

theorem keeps_claimSrc {x0 : Base} [x0.Has .regs] [x0.Has .ctl] (s : State) (c : Nat) (x : Src) (hk : x0.Keeps s) :
    x0.Keeps (State.claimSrc s c x) := by
  unfold State.claimSrc
  with_reducible repeat' (first
    | exact hk | assumption | apply keeps_settleIrq | apply keeps_wr | apply keeps_setCtl | apply keeps_bump | (intro _)
    | simp (disch := (apply State.SameBut.mk <;> first | exact Base.Has.no | exact fun _ => rfl)) only [keeps_mk]
    | (apply State.SameBut.mk <;> first | exact Base.Has.no | exact fun _ => rfl))

theorem keeps_claim {x0 : Base} [x0.Has .regs] [x0.Has .ctl] [x0.Has .out] (s : State) (c : Nat) (fast : Bool) (hk : x0.Keeps s) :
    x0.Keeps (State.claim s c fast) := by
  unfold State.claim
  with_reducible repeat' (first
    | exact hk | assumption | apply keeps_emit | apply keeps_claimSrc | split
    | simp (disch := (apply State.SameBut.mk <;> first | exact Base.Has.no | exact fun _ => rfl)) only [keeps_mk]
    | (apply State.SameBut.mk <;> first | exact Base.Has.no | exact fun _ => rfl))

theorem keeps_execEvClaim {x0 : Base} [x0.Has .regs] [x0.Has .ctl] [x0.Has .out] (c : Nat) (s : State) (hk : x0.Keeps s) :
    KeepsRes x0 (execEvClaim c s) := by
  unfold execEvClaim
  with_reducible repeat' (first | exact hk | assumption | apply keepsRes_next | apply keeps_claim)

theorem keeps_execEvClaimf {x0 : Base} [x0.Has .regs] [x0.Has .ctl] [x0.Has .out] (c : Nat) (s : State) (hk : x0.Keeps s) :
    KeepsRes x0 (execEvClaimf c s) := by
  unfold execEvClaimf
  with_reducible repeat' (first | exact hk | assumption | apply keepsRes_next | apply keeps_claim)

theorem keeps_execVectorAccept {x0 : Base} [x0.Has .regs] [x0.Has .ctl] [x0.Has .out] (c : Nat) (fast : Bool) (s : State) (hk : x0.Keeps s) :
    KeepsRes x0 (execVectorAccept c fast s) := by
  unfold execVectorAccept
  with_reducible repeat' (first
    | exact hk | assumption | apply keepsRes_next | apply keepsRes_ite | apply keeps_emit | apply keeps_bump
    | apply keeps_claimSrc | apply keeps_ite | split | (intro _)
    | simp (disch := (apply State.SameBut.mk <;> first | exact Base.Has.no | exact fun _ => rfl)) only [keeps_mk]
    | (apply State.SameBut.mk <;> first | exact Base.Has.no | exact fun _ => rfl))

theorem keeps_execEvComplete {x0 : Base} [x0.Has .regs] [x0.Has .ctl] (c n : Nat) (s : State) (hk : x0.Keeps s) :
    KeepsRes x0 (execEvComplete c n s) := by
  unfold execEvComplete
  with_reducible repeat' (first
    | exact hk | assumption | apply keepsRes_next | apply keepsRes_ite | apply keeps_wr | apply keeps_setCtl
    | apply keeps_tryRelease | apply keeps_ite | split | (intro _)
    | simp (disch := (apply State.SameBut.mk <;> first | exact Base.Has.no | exact fun _ => rfl)) only [keeps_mk]
    | (apply State.SameBut.mk <;> first | exact Base.Has.no | exact fun _ => rfl))

theorem keeps_execEvRaiseWrite {x0 : Base} [x0.Has .raises] (value : Nat) (s : State) (hk : x0.Keeps s) :
    KeepsRes x0 (execEvRaiseWrite value s) := by
  unfold execEvRaiseWrite
  with_reducible repeat' (first
    | exact hk | assumption | apply keepsRes_next | apply keepsRes_ite | apply keeps_raise | apply keeps_ite | split
    | (intro _)
    | simp (disch := (apply State.SameBut.mk <;> first | exact Base.Has.no | exact fun _ => rfl)) only [keeps_mk])

theorem keeps_execEvSrcWrite {x0 : Base} [x0.Has .regs] [x0.Has .ctl] (n value : Nat) (s : State) (hk : x0.Keeps s) :
    KeepsRes x0 (execEvSrcWrite n value s) := by
  unfold execEvSrcWrite
  with_reducible repeat' (first
    | exact hk | assumption | apply keepsRes_next | apply keepsRes_ite | apply keeps_settleIrq | apply keeps_wr
    | apply keeps_ite | split | (intro _)
    | simp (disch := (apply State.SameBut.mk <;> first | exact Base.Has.no | exact fun _ => rfl)) only [keeps_mk])

theorem keeps_setHubBoot {x0 : Base} [x0.Has .boot] (s : State) (h : Nat) (x : HubBoot) (hk : x0.Keeps s) :
    x0.Keeps (State.setHubBoot s h x) := by
  unfold State.setHubBoot
  with_reducible repeat' (first
    | exact hk | assumption | apply keeps_ite | split
    | simp (disch := (apply State.SameBut.mk <;> first | exact Base.Has.no | exact fun _ => rfl)) only [keeps_mk]
    | (apply State.SameBut.mk <;> first | exact Base.Has.no | exact fun _ => rfl))

theorem keeps_setCoreState {x0 : Base} [x0.Has .regs] (s : State) (p st : Nat) (hk : x0.Keeps s) :
    x0.Keeps (State.setCoreState s p st) := by
  unfold State.setCoreState
  with_reducible repeat' (first | exact hk | assumption | apply keeps_wr)

theorem keeps_execBootRomStart {x0 : Base} [x0.Has .regs] [x0.Has .boot] (h : Nat) (failed : List Nat) (s : State) (hk : x0.Keeps s) :
    KeepsRes x0 (execBootRomStart h failed s) := by
  unfold execBootRomStart
  with_reducible repeat' (first
    | exact hk | assumption | apply keepsRes_next | apply keepsRes_ite | apply keeps_wr | apply keeps_setCoreState
    | apply keeps_setHubBoot | apply keeps_ite | split | (intro _)
    | simp (disch := (apply State.SameBut.mk <;> first | exact Base.Has.no | exact fun _ => rfl)) only [keeps_mk]
    | (apply State.SameBut.mk <;> first | exact Base.Has.no | exact fun _ => rfl))

theorem keeps_execBootSourceRound {x0 : Base} [x0.Has .regs] [x0.Has .boot] [x0.Has .power] (h : Nat) (imgs : List (Nat × List Byte)) (s : State) (hk : x0.Keeps s) :
    KeepsRes x0 (execBootSourceRound h imgs s) := by
  unfold execBootSourceRound
  with_reducible repeat' (first
    | exact hk | assumption | apply keepsRes_next | apply keepsRes_ite | apply keeps_wr | apply keeps_setHubBoot
    | apply keeps_ite | split | (intro _)
    | simp (disch := (apply State.SameBut.mk <;> first | exact Base.Has.no | exact fun _ => rfl)) only [keeps_mk]
    | (apply State.SameBut.mk <;> first | exact Base.Has.no | exact fun _ => rfl))

theorem keeps_execBootRetryTimer {x0 : Base} [x0.Has .boot] (h : Nat) (s : State) (hk : x0.Keeps s) :
    KeepsRes x0 (execBootRetryTimer h s) := by
  unfold execBootRetryTimer
  with_reducible repeat' (first
    | exact hk | assumption | apply keepsRes_next | apply keepsRes_ite | apply keeps_setHubBoot | apply keeps_ite | split
    | (intro _)
    | simp (disch := (apply State.SameBut.mk <;> first | exact Base.Has.no | exact fun _ => rfl)) only [keeps_mk]
    | (apply State.SameBut.mk <;> first | exact Base.Has.no | exact fun _ => rfl))

theorem keeps_execSpiPinTakeover {x0 : Base} [x0.Has .boot] (s : State) (hk : x0.Keeps s) :
    KeepsRes x0 (execSpiPinTakeover s) := by
  unfold execSpiPinTakeover
  with_reducible repeat' (first
    | exact hk | assumption | apply keepsRes_next | apply keepsRes_ite | apply keeps_ite | split
    | simp (disch := (apply State.SameBut.mk <;> first | exact Base.Has.no | exact fun _ => rfl)) only [keeps_mk]
    | (apply State.SameBut.mk <;> first | exact Base.Has.no | exact fun _ => rfl))

theorem keeps_execHubBBootTimeout {x0 : Base} [x0.Has .boot] (s : State) (hk : x0.Keeps s) :
    KeepsRes x0 (execHubBBootTimeout s) := by
  unfold execHubBBootTimeout
  with_reducible repeat' (first
    | exact hk | assumption | apply keepsRes_next | apply keepsRes_ite | apply keeps_setHubBoot | apply keeps_ite | split
    | simp (disch := (apply State.SameBut.mk <;> first | exact Base.Has.no | exact fun _ => rfl)) only [keeps_mk]
    | (apply State.SameBut.mk <;> first | exact Base.Has.no | exact fun _ => rfl))

theorem keeps_bootReports {x0 : Base} [x0.Has .regs] [x0.Has .hbm] [x0.Has .faults] [x0.Has .power] [x0.Has .raises] (s : State) (hk : x0.Keeps s) :
    x0.Keeps (State.bootReports s) := by
  unfold State.bootReports
  with_reducible repeat' (first
    | exact hk | assumption | apply keeps_raise | apply keeps_cper | apply keeps_foldl_fst | apply keeps_foldl
    | apply keeps_ite | split | (intro _)
    | simp (disch := (apply State.SameBut.mk <;> first | exact Base.Has.no | exact fun _ => rfl)) only [keeps_mk]
    | (apply State.SameBut.mk <;> first | exact Base.Has.no | exact fun _ => rfl))

theorem keeps_jump {x0 : Base} [x0.Has .regs] [x0.Has .hbm] [x0.Has .faults] [x0.Has .boot] [x0.Has .power]
    [x0.Has .hub] [x0.Has .raises] [x0.Has .out]
    (s : State) (h p : Nat) (img : List Byte) (src : Nat) (hk : x0.Keeps s) :
    x0.Keeps (State.jump s h p img src) := by
  unfold State.jump
  with_reducible repeat' (first
    | exact hk | assumption | apply keeps_wr | apply keeps_setCoreState | apply keeps_emit | apply keeps_setHubBoot
    | apply keeps_bootReports | (intro _)
    | simp (disch := (apply State.SameBut.mk <;> first | exact Base.Has.no | exact fun _ => rfl)) only [keeps_mk]
    | apply keeps_mk_hub_setPoison | apply keeps_mk_hub_write2 | apply keeps_mk_hub_writeByte | apply keeps_mk_hub_write
    | (apply State.SameBut.mk <;> first | exact Base.Has.no | exact fun _ => rfl))

theorem keeps_execBootJump {x0 : Base} [x0.Has .regs] [x0.Has .hbm] [x0.Has .faults] [x0.Has .boot] [x0.Has .power]
    [x0.Has .hub] [x0.Has .raises] [x0.Has .out]
    (h : Nat) (s : State) (hk : x0.Keeps s) :
    KeepsRes x0 (execBootJump h s) := by
  unfold execBootJump
  with_reducible repeat' (first
    | exact hk | assumption | apply keepsRes_next | apply keepsRes_ite | apply keeps_wr | apply keeps_jump
    | apply keeps_ite | split | (intro _)
    | simp (disch := (apply State.SameBut.mk <;> first | exact Base.Has.no | exact fun _ => rfl)) only [keeps_mk]
    | apply keeps_mk_hub_setPoison | apply keeps_mk_hub_write2 | apply keeps_mk_hub_writeByte | apply keeps_mk_hub_write
    | (apply State.SameBut.mk <;> first | exact Base.Has.no | exact fun _ => rfl))

theorem keeps_startCore {x0 : Base} [x0.Has .regs] [x0.Has .boot] [x0.Has .out] (s : State) (p lc a1 : Nat) (hk : x0.Keeps s) :
    x0.Keeps (State.startCore s p lc a1) := by
  unfold State.startCore
  with_reducible repeat' (first
    | exact hk | assumption | apply keeps_wr | apply keeps_setCoreState | apply keeps_emit | apply keeps_coreSlot
    | (intro _)
    | simp (disch := (apply State.SameBut.mk <;> first | exact Base.Has.no | exact fun _ => rfl)) only [keeps_mk]
    | (apply State.SameBut.mk <;> first | exact Base.Has.no | exact fun _ => rfl))

theorem keeps_execCoreStart {x0 : Base} [x0.Has .regs] [x0.Has .boot] [x0.Has .out] (value : Nat) (s : State) (hk : x0.Keeps s) :
    KeepsRes x0 (execCoreStart value s) := by
  unfold execCoreStart
  with_reducible repeat' (first
    | exact hk | assumption | apply keepsRes_next | apply keepsRes_ite | apply keeps_startCore | apply keeps_setCoreState
    | apply keeps_foldl_fst | apply keeps_foldl | apply keeps_ite | split | (intro _)
    | simp (disch := (apply State.SameBut.mk <;> first | exact Base.Has.no | exact fun _ => rfl)) only [keeps_mk]
    | (apply State.SameBut.mk <;> first | exact Base.Has.no | exact fun _ => rfl))

theorem keeps_updateDone {x0 : Base} [x0.Has .regs] [x0.Has .boot] [x0.Has .raises] (s : State) (hk : x0.Keeps s) :
    x0.Keeps (State.updateDone s) := by
  unfold State.updateDone
  with_reducible repeat' (first
    | exact hk | assumption | apply keeps_wr | apply keeps_setCoreState | apply keeps_raise | apply keeps_coreSlot
    | apply keeps_foldl_fst | apply keeps_foldl | apply keeps_ite | split | (intro _)
    | simp (disch := (apply State.SameBut.mk <;> first | exact Base.Has.no | exact fun _ => rfl)) only [keeps_mk]
    | apply keeps_mk_hub_setPoison | apply keeps_mk_hub_write2 | apply keeps_mk_hub_writeByte | apply keeps_mk_hub_write
    | (apply State.SameBut.mk <;> first | exact Base.Has.no | exact fun _ => rfl))

theorem keeps_reopen {x0 : Base} [x0.Has .regs] [x0.Has .ctl] (s : State) (c : Nat) (hk : x0.Keeps s) :
    x0.Keeps (State.reopen s c) := by
  unfold State.reopen
  with_reducible repeat' (first
    | exact hk | assumption | apply keeps_wr | apply keeps_setCtl | apply keeps_foldl_fst | apply keeps_foldl | (intro _)
    | simp (disch := (apply State.SameBut.mk <;> first | exact Base.Has.no | exact fun _ => rfl)) only [keeps_mk]
    | (apply State.SameBut.mk <;> first | exact Base.Has.no | exact fun _ => rfl))

theorem keeps_dropIrq {x0 : Base} [x0.Has .ctl] (s : State) (p : Nat) (hk : x0.Keeps s) :
    x0.Keeps (State.dropIrq s p) := by
  unfold State.dropIrq
  with_reducible repeat' (first
    | exact hk | assumption | apply keeps_setCtl
    | simp (disch := (apply State.SameBut.mk <;> first | exact Base.Has.no | exact fun _ => rfl)) only [keeps_mk]
    | (apply State.SameBut.mk <;> first | exact Base.Has.no | exact fun _ => rfl))

theorem keeps_moveLc {x0 : Base} [x0.Has .regs] [x0.Has .boot] [x0.Has .ctl] [x0.Has .raises] [x0.Has .out] (s : State) (c dest : Nat) (hk : x0.Keeps s) :
    x0.Keeps (State.moveLc s c dest) := by
  unfold State.moveLc
  with_reducible repeat' (first
    | exact hk | assumption | apply keeps_wr | apply keeps_startCore | apply keeps_setCoreState | apply keeps_raise
    | apply keeps_dropIrq | apply keeps_updateDone | apply keeps_coreSlot | apply keeps_reopen | apply keeps_ite | split
    | (intro _)
    | simp (disch := (apply State.SameBut.mk <;> first | exact Base.Has.no | exact fun _ => rfl)) only [keeps_mk]
    | (apply State.SameBut.mk <;> first | exact Base.Has.no | exact fun _ => rfl))

theorem keeps_execCoreHandover {x0 : Base} [x0.Has .regs] [x0.Has .boot] [x0.Has .ctl] [x0.Has .raises] [x0.Has .out] (value : Nat) (s : State) (hk : x0.Keeps s) :
    KeepsRes x0 (execCoreHandover value s) := by
  unfold execCoreHandover
  with_reducible repeat' (first
    | exact hk | assumption | apply keepsRes_next | apply keepsRes_ite | apply keeps_wr | apply keeps_moveLc
    | apply keeps_ite | split | (intro _)
    | simp (disch := (apply State.SameBut.mk <;> first | exact Base.Has.no | exact fun _ => rfl)) only [keeps_mk])

theorem keeps_rehome {x0 : Base} [x0.Has .regs] [x0.Has .boot] [x0.Has .ctl] [x0.Has .raises] [x0.Has .out] (s : State) (c p : Nat) (hk : x0.Keeps s) : x0.Keeps (s.rehome c p) := by
  delta State.rehome
  cases s.refuge p with
  | some q => exact keeps_moveLc _ _ _ hk
  | none =>
    extract_lets +onlyGivenNames s1 s2 s3
    have h1 : x0.Keeps s1 := keeps_wr _ _ _ _ (keeps_dropIrq _ _ (keeps_reopen _ _ hk))
    have h3 : x0.Keeps s3 := keeps_wr _ _ _ _ (keeps_raise _ _ h1)
    clear_value s3
    cases (List.range 16).find? (fun d => s3.on (.CORE_MAP d) F.CORE_MAP.valid) with
    | none => exact h3
    | some d => exact keeps_foldl h3 _ _ (fun s hk a => keeps_wr _ _ _ _ hk)
theorem keeps_fenceCore {x0 : Base} [x0.Has .regs] [x0.Has .hbm] [x0.Has .faults] [x0.Has .boot] [x0.Has .ctl]
    [x0.Has .raises] [x0.Has .out]
    (s : State) (p cause : Nat) (injected : Bool) (hk : x0.Keeps s) :
    x0.Keeps (State.fenceCore s p cause injected) := by
  unfold State.fenceCore
  with_reducible repeat' (first
    | exact hk | assumption | apply keeps_setCoreState | apply keeps_raise | apply keeps_cper | apply keeps_appendMap
    | apply keeps_bump | apply keeps_rehome | apply keeps_foldl_fst | apply keeps_foldl | apply keeps_ite | split
    | (intro _)
    | simp (disch := (apply State.SameBut.mk <;> first | exact Base.Has.no | exact fun _ => rfl)) only [keeps_mk]
    | (apply State.SameBut.mk <;> first | exact Base.Has.no | exact fun _ => rfl))

theorem keeps_execCoreEccError {x0 : Base} [x0.Has .regs] [x0.Has .hbm] [x0.Has .faults] [x0.Has .boot] [x0.Has .ctl]
    [x0.Has .raises] [x0.Has .out]
    (p : Nat) (corrected : Bool) (s : State) (hk : x0.Keeps s) :
    KeepsRes x0 (execCoreEccError p corrected s) := by
  unfold execCoreEccError
  with_reducible repeat' (first
    | exact hk | assumption | apply keepsRes_next | apply keepsRes_ite | apply keeps_fenceCore | apply keeps_raise
    | apply keeps_ite | split | (intro _)
    | simp (disch := (apply State.SameBut.mk <;> first | exact Base.Has.no | exact fun _ => rfl)) only [keeps_mk])

theorem keeps_execFwUpdate {x0 : Base} [x0.Has .regs] [x0.Has .boot] [x0.Has .raises] (value : Nat) (s : State) (hk : x0.Keeps s) :
    KeepsRes x0 (execFwUpdate value s) := by
  unfold execFwUpdate
  with_reducible repeat' (first
    | exact hk | assumption | apply keepsRes_next | apply keepsRes_ite | apply keeps_wr | apply keeps_raise
    | apply keeps_ite | split | (intro _)
    | simp (disch := (apply State.SameBut.mk <;> first | exact Base.Has.no | exact fun _ => rfl)) only [keeps_mk]
    | apply keeps_mk_hbm_setPoison | (apply State.SameBut.mk <;> first | exact Base.Has.no | exact fun _ => rfl))

theorem keeps_execFwUpdateStandby {x0 : Base} [x0.Has .regs] [x0.Has .boot] [x0.Has .hub] [x0.Has .raises] (s : State) (hk : x0.Keeps s) :
    KeepsRes x0 (execFwUpdateStandby s) := by
  unfold execFwUpdateStandby
  with_reducible repeat' (first
    | exact hk | assumption | apply keepsRes_next | apply keepsRes_ite | apply keeps_wr | apply keeps_setCoreState
    | apply keeps_raise | apply keeps_updateDone | apply keeps_coreSlot | apply keeps_foldl_fst | apply keeps_foldl
    | apply keeps_ite | split | (intro _)
    | simp (disch := (apply State.SameBut.mk <;> first | exact Base.Has.no | exact fun _ => rfl)) only [keeps_mk]
    | apply keeps_mk_hub_setPoison | apply keeps_mk_hub_write2 | apply keeps_mk_hub_writeByte | apply keeps_mk_hub_write
    | (apply State.SameBut.mk <;> first | exact Base.Has.no | exact fun _ => rfl))

end Sys2Proof.Machine
end

