-- ==== Sys2Proof/Laws/KeepsServing.lean ====
section
/-! SUPPORT. What the operations of ServeOps Pages Sampling Steps Ingress Services PoolCfg Epochs keep (State.Keeps). -/

set_option linter.unusedSimpArgs false

namespace Sys2Proof.Machine

theorem keeps_setEntry {x0 : Base} [x0.Has .serve] (s : State) (e : Nat) (x : Entry) (hk : x0.Keeps s) :
    x0.Keeps (State.setEntry s e x) := by
  unfold State.setEntry
  with_reducible repeat' (first
    | exact hk | assumption
    | simp (disch := (apply State.SameBut.mk <;> first | exact Base.Has.no | exact fun _ => rfl)) only [keeps_mk]
    | (apply State.SameBut.mk <;> first | exact Base.Has.no | exact fun _ => rfl))

theorem keeps_setChan {x0 : Base} [x0.Has .serve] (s : State) (n : Nat) (c : Chan) (hk : x0.Keeps s) :
    x0.Keeps (State.setChan s n c) := by
  unfold State.setChan
  with_reducible repeat' (first
    | exact hk | assumption
    | simp (disch := (apply State.SameBut.mk <;> first | exact Base.Has.no | exact fun _ => rfl)) only [keeps_mk]
    | (apply State.SameBut.mk <;> first | exact Base.Has.no | exact fun _ => rfl))

theorem keeps_setKv {x0 : Base} [x0.Has .kv] (s : State) (k : Kv) (hk : x0.Keeps s) :
    x0.Keeps (State.setKv s k) := by
  unfold State.setKv
  with_reducible repeat' (first
    | exact hk | assumption
    | simp (disch := (apply State.SameBut.mk <;> first | exact Base.Has.no | exact fun _ => rfl)) only [keeps_mk]
    | (apply State.SameBut.mk <;> first | exact Base.Has.no | exact fun _ => rfl))

theorem keeps_svcRecord {x0 : Base} [x0.Has .regs] [x0.Has .hub] [x0.Has .raises] (s : State) (e kind arg index : Nat) (hk : x0.Keeps s) :
    x0.Keeps (State.svcRecord s e kind arg index) := by
  unfold State.svcRecord
  with_reducible repeat' (first
    | exact hk | assumption | apply keeps_wr | apply keeps_raise | apply keeps_bump | apply keeps_ite | split | (intro _)
    | simp (disch := (apply State.SameBut.mk <;> first | exact Base.Has.no | exact fun _ => rfl)) only [keeps_mk]
    | apply keeps_mk_hub_setPoison | apply keeps_mk_hub_write2 | apply keeps_mk_hub_writeByte | apply keeps_mk_hub_write
    | (apply State.SameBut.mk <;> first | exact Base.Has.no | exact fun _ => rfl))

theorem keeps_swReject {x0 : Base} [x0.Has .regs] [x0.Has .raises] (s : State) (hk : x0.Keeps s) :
    x0.Keeps (State.swReject s) := by
  unfold State.swReject
  with_reducible repeat' (first | exact hk | assumption | apply keeps_bump | apply keeps_raise)

theorem keeps_transmit {x0 : Base} [x0.Has .serve] [x0.Has .out] (s : State) (n : Nat) (m : SentMsg) (hk : x0.Keeps s) :
    x0.Keeps (State.transmit s n m) := by
  unfold State.transmit
  with_reducible repeat' (first
    | exact hk | assumption | apply keeps_emit | apply keeps_setChan | apply keeps_ite | split | (intro _)
    | simp (disch := (apply State.SameBut.mk <;> first | exact Base.Has.no | exact fun _ => rfl)) only [keeps_mk]
    | (apply State.SameBut.mk <;> first | exact Base.Has.no | exact fun _ => rfl))

theorem keeps_rekeyCheck {x0 : Base} [x0.Has .serve] [x0.Has .raises] (s : State) (n : Nat) (hk : x0.Keeps s) :
    x0.Keeps (State.rekeyCheck s n) := by
  unfold State.rekeyCheck
  with_reducible repeat' (first
    | exact hk | assumption | apply keeps_raise | apply keeps_setChan | apply keeps_ite | split | (intro _)
    | simp (disch := (apply State.SameBut.mk <;> first | exact Base.Has.no | exact fun _ => rfl)) only [keeps_mk]
    | (apply State.SameBut.mk <;> first | exact Base.Has.no | exact fun _ => rfl))

theorem keeps_sendNow {x0 : Base} [x0.Has .serve] [x0.Has .raises] [x0.Has .out] (s : State) (n typ reqId : Nat) (body : List Byte) (hk : x0.Keeps s) :
    x0.Keeps (State.sendNow s n typ reqId body) := by
  unfold State.sendNow
  with_reducible repeat' (first
    | exact hk | assumption | apply keeps_rekeyCheck | apply keeps_setChan | apply keeps_transmit | apply keeps_ite | split
    | (intro _)
    | simp (disch := (apply State.SameBut.mk <;> first | exact Base.Has.no | exact fun _ => rfl)) only [keeps_mk]
    | (apply State.SameBut.mk <;> first | exact Base.Has.no | exact fun _ => rfl))

theorem keeps_flushChan {x0 : Base} [x0.Has .serve] [x0.Has .raises] [x0.Has .out] (s : State) (n : Nat) (hk : x0.Keeps s) :
    x0.Keeps (State.flushChan s n) := by
  unfold State.flushChan
  with_reducible repeat' (first
    | exact hk | assumption | apply keeps_sendNow | apply keeps_setChan | apply keeps_foldl_fst | apply keeps_foldl
    | apply keeps_ite | split | (intro _)
    | simp (disch := (apply State.SameBut.mk <;> first | exact Base.Has.no | exact fun _ => rfl)) only [keeps_mk]
    | (apply State.SameBut.mk <;> first | exact Base.Has.no | exact fun _ => rfl))

theorem keeps_post {x0 : Base} [x0.Has .serve] [x0.Has .raises] [x0.Has .out] (s : State) (n typ reqId : Nat) (body : List Byte) (hk : x0.Keeps s) :
    x0.Keeps (State.post s n typ reqId body) := by
  unfold State.post
  with_reducible repeat' (first
    | exact hk | assumption | apply keeps_setChan | apply keeps_flushChan
    | simp (disch := (apply State.SameBut.mk <;> first | exact Base.Has.no | exact fun _ => rfl)) only [keeps_mk]
    | (apply State.SameBut.mk <;> first | exact Base.Has.no | exact fun _ => rfl))

theorem keeps_sendError {x0 : Base} [x0.Has .serve] [x0.Has .raises] [x0.Has .out] (s : State) (n reqId code detail : Nat) (hk : x0.Keeps s) :
    x0.Keeps (State.sendError s n reqId code detail) := by
  unfold State.sendError
  with_reducible repeat' (first | exact hk | assumption | apply keeps_post)

theorem keeps_setLevel {x0 : Base} [x0.Has .regs] [x0.Has .serve] (s : State) (c : Nat) (l : Int) (hk : x0.Keeps s) :
    x0.Keeps (State.setLevel s c l) := by
  unfold State.setLevel
  with_reducible repeat' (first
    | exact hk | assumption | apply keeps_wr | (intro _)
    | simp (disch := (apply State.SameBut.mk <;> first | exact Base.Has.no | exact fun _ => rfl)) only [keeps_mk]
    | (apply State.SameBut.mk <;> first | exact Base.Has.no | exact fun _ => rfl))

theorem keeps_charge {x0 : Base} [x0.Has .regs] [x0.Has .serve] [x0.Has .free] (s : State) (c n : Nat) (hk : x0.Keeps s) : x0.Keeps (s.charge c n) :=
by
  delta State.charge
  extract_lets +onlyGivenNames l s1
  have h1 : x0.Keeps s1 := keeps_setLevel _ _ _ hk
  clear_value s1
  exact keeps_mk_freeLe (keeps_bump _ _ _ _ h1) (by rw [State.bump_free]; exact Nat.le_succ _) (by apply State.SameBut.mk <;> first | exact Base.Has.no | exact fun _ => rfl)
theorem keeps_setList {x0 : Base} [x0.Has .hbm] [x0.Has .serve] (s : State) (e k page : Nat) (hk : x0.Keeps s) :
    x0.Keeps (State.setList s e k page) := by
  unfold State.setList
  with_reducible repeat' (first
    | exact hk | assumption | apply keeps_hbmWrite | apply keeps_setEntry | (intro _)
    | simp (disch := (apply State.SameBut.mk <;> first | exact Base.Has.no | exact fun _ => rfl)) only [keeps_mk]
    | (apply State.SameBut.mk <;> first | exact Base.Has.no | exact fun _ => rfl))

theorem keeps_setPfx {x0 : Base} [x0.Has .regs] [x0.Has .kv] (s : State) (l : List Pfx) (hk : x0.Keeps s) :
    x0.Keeps (State.setPfx s l) := by
  unfold State.setPfx
  with_reducible repeat' (first
    | exact hk | assumption | apply keeps_wr | apply keeps_setKv
    | simp (disch := (apply State.SameBut.mk <;> first | exact Base.Has.no | exact fun _ => rfl)) only [keeps_mk]
    | (apply State.SameBut.mk <;> first | exact Base.Has.no | exact fun _ => rfl))

theorem keeps_removePfx {x0 : Base} [x0.Has .regs] [x0.Has .kv] (s : State) (i : Nat) (hk : x0.Keeps s) :
    x0.Keeps (State.removePfx s i) := by
  unfold State.removePfx
  with_reducible repeat' (first
    | exact hk | assumption | apply keeps_setPfx | apply keeps_bump | apply keeps_ite | split | (intro _)
    | simp (disch := (apply State.SameBut.mk <;> first | exact Base.Has.no | exact fun _ => rfl)) only [keeps_mk]
    | (apply State.SameBut.mk <;> first | exact Base.Has.no | exact fun _ => rfl))

theorem keeps_releasePfx {x0 : Base} [x0.Has .regs] [x0.Has .hbm] [x0.Has .kv] (s : State) (i : Nat) (hk : x0.Keeps s) :
    x0.Keeps (State.releasePfx s i) := by
  unfold State.releasePfx
  with_reducible repeat' (first
    | exact hk | assumption | apply keeps_removePfx | apply keeps_dropRef | split
    | simp (disch := (apply State.SameBut.mk <;> first | exact Base.Has.no | exact fun _ => rfl)) only [keeps_mk]
    | (apply State.SameBut.mk <;> first | exact Base.Has.no | exact fun _ => rfl))

theorem keeps_makeRoom {x0 : Base} [x0.Has .regs] [x0.Has .hbm] [x0.Has .kv] (sv n k : Nat) : ∀ (s : State), x0.Keeps s → x0.Keeps (s.makeRoom sv n k) := by
  induction k with
  | zero => intro s hk; exact hk
  | succ k ih =>
    intro s hk
    unfold State.makeRoom
    with_reducible repeat' (first | exact hk | assumption | apply ih | apply keeps_releasePfx | apply keeps_setReg | apply keeps_setFacet | apply keeps_foldl_fst | apply keeps_foldl | apply keeps_ite | split | (intro _) | simp (disch := (apply State.SameBut.mk <;> first | exact Base.Has.no | exact fun _ => rfl)) only [keeps_mk] | apply keeps_mk_free | apply keeps_mk_hbm_setPoison | apply keeps_mk_hub_setPoison | apply keeps_mk_hub_write2 | apply keeps_mk_hub_writeByte | apply keeps_mk_hub_write | (apply State.SameBut.mk <;> first | exact Base.Has.no | exact fun _ => rfl))
theorem keeps_drawAt {x0 : Base} [x0.Has .regs] [x0.Has .hbm] [x0.Has .serve] [x0.Has .kv] (s : State) (e k epoch : Nat) (hk : x0.Keeps s) : x0.Keeps (s.drawAt e k epoch) := by
  unfold State.drawAt
  split
  · exact hk
  · exact keeps_setList _ _ _ _ (keeps_drawPage _ _ _ _ _ hk _ (by assumption))
theorem keeps_giveUp {x0 : Base} [x0.Has .regs] [x0.Has .hbm] [x0.Has .kv] (s : State) (sv page : Nat) (hk : x0.Keeps s) :
    x0.Keeps (State.giveUp s sv page) := by
  unfold State.giveUp
  with_reducible repeat' (first
    | exact hk | assumption | apply keeps_removePfx | apply keeps_dropRef | apply keeps_ite | split | (intro _)
    | simp (disch := (apply State.SameBut.mk <;> first | exact Base.Has.no | exact fun _ => rfl)) only [keeps_mk]
    | (apply State.SameBut.mk <;> first | exact Base.Has.no | exact fun _ => rfl))

theorem keeps_releasePages {x0 : Base} [x0.Has .regs] [x0.Has .hbm] [x0.Has .serve] [x0.Has .kv] (s : State) (e : Nat) (hk : x0.Keeps s) :
    x0.Keeps (State.releasePages s e) := by
  unfold State.releasePages
  with_reducible repeat' (first
    | exact hk | assumption | apply keeps_hbmWrite | apply keeps_setEntry | apply keeps_setKv | apply keeps_freePage
    | apply keeps_giveUp | apply keeps_dropRef | apply keeps_foldl_fst | apply keeps_foldl | apply keeps_ite | split
    | (intro _)
    | simp (disch := (apply State.SameBut.mk <;> first | exact Base.Has.no | exact fun _ => rfl)) only [keeps_mk]
    | (apply State.SameBut.mk <;> first | exact Base.Has.no | exact fun _ => rfl))

theorem keeps_freeEntry {x0 : Base} [x0.Has .regs] [x0.Has .hbm] [x0.Has .serve] [x0.Has .kv] (s : State) (e : Nat) (hk : x0.Keeps s) :
    x0.Keeps (State.freeEntry s e) := by
  unfold State.freeEntry
  with_reducible repeat' (first | exact hk | assumption | apply keeps_setEntry | apply keeps_releasePages)

theorem keeps_countOld {x0 : Base} [x0.Has .regs] (s : State) (sv : Nat) (hk : x0.Keeps s) :
    x0.Keeps (State.countOld s sv) := by
  unfold State.countOld
  with_reducible repeat' (first | exact hk | assumption | apply keeps_wr)

theorem keeps_endEntry {x0 : Base} [x0.Has .regs] [x0.Has .hbm] [x0.Has .serve] [x0.Has .kv] [x0.Has .hub] [x0.Has .raises] (s : State) (e st reason cause : Nat) (hk : x0.Keeps s) :
    x0.Keeps (State.endEntry s e st reason cause) := by
  unfold State.endEntry
  with_reducible repeat' (first
    | exact hk | assumption | apply keeps_svcRecord | apply keeps_setEntry | apply keeps_countOld
    | apply keeps_releasePages | apply keeps_ite | split | (intro _)
    | simp (disch := (apply State.SameBut.mk <;> first | exact Base.Has.no | exact fun _ => rfl)) only [keeps_mk]
    | (apply State.SameBut.mk <;> first | exact Base.Has.no | exact fun _ => rfl))

theorem keeps_nwPut {x0 : Base} [x0.Has .hub] (s : State) (a flags avg ups cons : Nat) (seeded : Bool) (hk : x0.Keeps s) :
    x0.Keeps (State.nwPut s a flags avg ups cons seeded) := by
  unfold State.nwPut
  with_reducible repeat' (first
    | exact hk | assumption
    | simp (disch := (apply State.SameBut.mk <;> first | exact Base.Has.no | exact fun _ => rfl)) only [keeps_mk]
    | apply keeps_mk_hub_setPoison | apply keeps_mk_hub_write2 | apply keeps_mk_hub_writeByte | apply keeps_mk_hub_write
    | (apply State.SameBut.mk <;> first | exact Base.Has.no | exact fun _ => rfl))

theorem keeps_nwJump {x0 : Base} [x0.Has .regs] [x0.Has .serve] [x0.Has .hub] [x0.Has .raises] (s : State) (sv layer kind v e avg : Nat) (hk : x0.Keeps s) :
    x0.Keeps (State.nwJump s sv layer kind v e avg) := by
  unfold State.nwJump
  with_reducible repeat' (first
    | exact hk | assumption | apply keeps_svcRecord | apply keeps_raise | apply keeps_setEntry | apply keeps_bump
    | apply keeps_ite | split | (intro _)
    | simp (disch := (apply State.SameBut.mk <;> first | exact Base.Has.no | exact fun _ => rfl)) only [keeps_mk]
    | (apply State.SameBut.mk <;> first | exact Base.Has.no | exact fun _ => rfl))

theorem keeps_nwApply {x0 : Base} [x0.Has .regs] [x0.Has .serve] [x0.Has .hub] [x0.Has .raises] (s : State) (sv layer kind v e : Nat) (hk : x0.Keeps s) : x0.Keeps (s.nwApply sv layer kind v e) := by
  have hp := fun (t : State) (h : x0.Keeps t) a f b c d g => keeps_nwPut t a f b c d g h
  delta State.nwApply
  refine keeps_ite hk (keeps_ite (keeps_ite ?_ ?_) (keeps_ite (hp _ hk _ _ _ _ _ _) (hp _ hk _ _ _ _ _ _)))
  · exact keeps_raise _ _ (keeps_bump _ _ _ _ (hp _ (keeps_nwJump _ _ _ _ _ _ _ hk) _ _ _ _ _ _))
  · exact hp _ (keeps_nwJump _ _ _ _ _ _ _ hk) _ _ _ _ _ _
theorem keeps_nwClear {x0 : Base} [x0.Has .hub] (s : State) (sv : Nat) (hk : x0.Keeps s) :
    x0.Keeps (State.nwClear s sv) := by
  unfold State.nwClear
  with_reducible repeat' (first
    | exact hk | assumption | apply keeps_foldl_fst | apply keeps_foldl | (intro _)
    | simp (disch := (apply State.SameBut.mk <;> first | exact Base.Has.no | exact fun _ => rfl)) only [keeps_mk]
    | apply keeps_mk_hub_setPoison | apply keeps_mk_hub_write2 | apply keeps_mk_hub_writeByte | apply keeps_mk_hub_write
    | (apply State.SameBut.mk <;> first | exact Base.Has.no | exact fun _ => rfl))

theorem keeps_takeHit {x0 : Base} [x0.Has .regs] [x0.Has .hbm] [x0.Has .serve] [x0.Has .kv] (s : State) (e k i : Nat) (hk : x0.Keeps s) :
    x0.Keeps (State.takeHit s e k i) := by
  unfold State.takeHit
  with_reducible repeat' (first
    | exact hk | assumption | apply keeps_setList | apply keeps_setPage | apply keeps_setKv | apply keeps_bump | split
    | (intro _)
    | simp (disch := (apply State.SameBut.mk <;> first | exact Base.Has.no | exact fun _ => rfl)) only [keeps_mk]
    | (apply State.SameBut.mk <;> first | exact Base.Has.no | exact fun _ => rfl))

theorem keeps_lookFull {x0 : Base} [x0.Has .regs] [x0.Has .hbm] [x0.Has .serve] [x0.Has .kv] (e sv epoch n pt f : Nat) : ∀ (s : State) (k h : Nat), x0.Keeps s →
    x0.Keeps (State.lookFull e sv epoch n pt f s k h).1 := by
  induction f with
  | zero => intro s k h hk; exact hk
  | succ f ih =>
    intro s k h hk
    unfold State.lookFull
    with_reducible repeat' (first | exact hk | assumption | apply ih | apply keeps_takeHit | apply keeps_setReg | apply keeps_setFacet | apply keeps_foldl_fst | apply keeps_foldl | apply keeps_ite | split | (intro _) | simp (disch := (apply State.SameBut.mk <;> first | exact Base.Has.no | exact fun _ => rfl)) only [keeps_mk] | apply keeps_mk_free | apply keeps_mk_hbm_setPoison | apply keeps_mk_hub_setPoison | apply keeps_mk_hub_write2 | apply keeps_mk_hub_writeByte | apply keeps_mk_hub_write | (apply State.SameBut.mk <;> first | exact Base.Has.no | exact fun _ => rfl))
theorem keeps_lookup {x0 : Base} [x0.Has .regs] [x0.Has .hbm] [x0.Has .serve] [x0.Has .kv] (s : State) (e epoch n : Nat) (hk : x0.Keeps s) :
    x0.Keeps (State.lookup s e epoch n) := by
  unfold State.lookup
  with_reducible repeat' (first
    | exact hk | assumption | apply keeps_lookFull | apply keeps_takeHit | apply keeps_setEntry | apply keeps_bump
    | apply keeps_ite | split | (intro _)
    | simp (disch := (apply State.SameBut.mk <;> first | exact Base.Has.no | exact fun _ => rfl)) only [keeps_mk]
    | (apply State.SameBut.mk <;> first | exact Base.Has.no | exact fun _ => rfl))

theorem keeps_register {x0 : Base} [x0.Has .regs] [x0.Has .hbm] [x0.Has .kv] (s : State) (e k fill : Nat) (part : Bool) (hk : x0.Keeps s) : x0.Keeps (s.register e k fill part) := by
  delta State.register
  extract_lets +onlyGivenNames y sv pt page d ok
  refine keeps_ite hk ?_
  extract_lets +onlyGivenNames room
  have hroom : ∀ t, room = some t → x0.Keeps t := by
    intro t hr
    simp only [room] at hr
    split at hr
    · cases hr; exact hk
    · obtain ⟨i, -, rfl⟩ := Option.map_eq_some_iff.1 hr
      exact keeps_releasePfx _ _ hk
  clear_value room
  cases room with
  | none => exact hk
  | some t => exact keeps_setKv _ _ (keeps_setPfx _ _ (keeps_setPage _ _ _ _ (hroom t rfl)))
theorem keeps_trySeal {x0 : Base} [x0.Has .regs] [x0.Has .hbm] [x0.Has .kv] (s : State) (e k : Nat) (hk : x0.Keeps s) : x0.Keeps (s.trySeal e k) := by
  unfold State.trySeal
  extract_lets +onlyGivenNames y sv page d
  split
  · split
    · split
      · exact keeps_bump _ _ _ _ hk
      · exact keeps_setKv _ _ (keeps_setPage _ _ _ _ (keeps_drawPage _ _ _ _ _ hk _ (by assumption)))
    · exact keeps_bump _ _ _ _ hk
  · exact hk
theorem keeps_advanceFill {x0 : Base} [x0.Has .regs] [x0.Has .hbm] [x0.Has .kv] (s : State) (e p n : Nat) (hk : x0.Keeps s) :
    x0.Keeps (State.advanceFill s e p n) := by
  unfold State.advanceFill
  with_reducible repeat' (first
    | exact hk | assumption | apply keeps_setPage | apply keeps_trySeal | apply keeps_foldl_fst | apply keeps_foldl
    | apply keeps_ite | split | (intro _)
    | simp (disch := (apply State.SameBut.mk <;> first | exact Base.Has.no | exact fun _ => rfl)) only [keeps_mk]
    | (apply State.SameBut.mk <;> first | exact Base.Has.no | exact fun _ => rfl))

theorem keeps_recordTokens {x0 : Base} [x0.Has .hbm] (s : State) (e p n : Nat) (hk : x0.Keeps s) :
    x0.Keeps (State.recordTokens s e p n) := by
  unfold State.recordTokens
  with_reducible repeat' (first
    | exact hk | assumption | apply keeps_hbmWrite | apply keeps_foldl_fst | apply keeps_foldl | apply keeps_ite | split
    | (intro _)
    | simp (disch := (apply State.SameBut.mk <;> first | exact Base.Has.no | exact fun _ => rfl)) only [keeps_mk])

theorem keeps_copyHbm {x0 : Base} [x0.Has .hbm] (s : State) (src dst n : Nat) (hk : x0.Keeps s) :
    x0.Keeps (State.copyHbm s src dst n) := by
  unfold State.copyHbm
  with_reducible repeat' (first
    | exact hk | assumption | apply keeps_hbmWrite | apply keeps_foldl_fst | apply keeps_foldl | (intro _))

theorem keeps_execCopyOnWrite {x0 : Base} [x0.Has .regs] [x0.Has .hbm] [x0.Has .serve] [x0.Has .kv] (idx : Nat) (s : State) (hk : x0.Keeps s) :
    KeepsRes x0 (execCopyOnWrite idx s) := by
  unfold execCopyOnWrite
  with_reducible repeat' (first
    | exact hk | assumption | apply keepsRes_next | apply keeps_setList | apply keeps_hbmWrite | apply keeps_setPage
    | apply keeps_setKv | apply keeps_dropRef | apply keeps_bump | apply keeps_copyHbm | apply keeps_foldl_fst
    | apply keeps_foldl | split | (intro _)
    | simp (disch := (apply State.SameBut.mk <;> first | exact Base.Has.no | exact fun _ => rfl)) only [keeps_mk]
    | apply keeps_mk_hbm_setPoison | (apply State.SameBut.mk <;> first | exact Base.Has.no | exact fun _ => rfl))

theorem keeps_sealImage {x0 : Base} [x0.Has .hbm] [x0.Has .kv] (s : State) (q : Sealing) (hk : x0.Keeps s) :
    x0.Keeps (State.sealImage s q) := by
  unfold State.sealImage
  with_reducible repeat' (first
    | exact hk | assumption | apply keeps_hbmWrite | apply keeps_setKv | apply keeps_foldl_fst | apply keeps_foldl
    | apply keeps_ite | split | (intro _)
    | simp (disch := (apply State.SameBut.mk <;> first | exact Base.Has.no | exact fun _ => rfl)) only [keeps_mk]
    | apply keeps_mk_hbm_setPoison | (apply State.SameBut.mk <;> first | exact Base.Has.no | exact fun _ => rfl))

theorem keeps_execSealImageDone {x0 : Base} [x0.Has .hbm] [x0.Has .kv] (idx : Nat) (s : State) (hk : x0.Keeps s) :
    KeepsRes x0 (execSealImageDone idx s) := by
  unfold execSealImageDone
  with_reducible repeat' (first
    | exact hk | assumption | apply keepsRes_next | apply keepsRes_ite | apply keeps_sealImage | apply keeps_setKv
    | apply keeps_ite | split | (intro _)
    | simp (disch := (apply State.SameBut.mk <;> first | exact Base.Has.no | exact fun _ => rfl)) only [keeps_mk]
    | (apply State.SameBut.mk <;> first | exact Base.Has.no | exact fun _ => rfl))

theorem keeps_execSealSwap {x0 : Base} [x0.Has .regs] [x0.Has .hbm] [x0.Has .serve] [x0.Has .kv] (idx : Nat) (s : State) (hk : x0.Keeps s) :
    KeepsRes x0 (execSealSwap idx s) := by
  unfold execSealSwap
  with_reducible repeat' (first
    | exact hk | assumption | apply keepsRes_next | apply keepsRes_ite | apply keeps_setList | apply keeps_setPage
    | apply keeps_setKv | apply keeps_freePage | apply keeps_register | apply keeps_ite | split | (intro _)
    | simp (disch := (apply State.SameBut.mk <;> first | exact Base.Has.no | exact fun _ => rfl)) only [keeps_mk]
    | (apply State.SameBut.mk <;> first | exact Base.Has.no | exact fun _ => rfl))

theorem keeps_pageWait {x0 : Base} [x0.Has .serve] (s : State) (e : Nat) (hk : x0.Keeps s) :
    x0.Keeps (State.pageWait s e) := by
  unfold State.pageWait
  with_reducible repeat' (first
    | exact hk | assumption | apply keeps_setEntry
    | simp (disch := (apply State.SameBut.mk <;> first | exact Base.Has.no | exact fun _ => rfl)) only [keeps_mk]
    | (apply State.SameBut.mk <;> first | exact Base.Has.no | exact fun _ => rfl))

theorem keeps_execCommitCopy {x0 : Base} [x0.Has .regs] [x0.Has .hbm] [x0.Has .serve] [x0.Has .kv] (idx : Nat) (s : State) (hk : x0.Keeps s) :
    KeepsRes x0 (execCommitCopy idx s) := by
  unfold execCommitCopy
  with_reducible repeat' (first
    | exact hk | assumption | apply keepsRes_next | apply keepsRes_ite | apply keeps_pageWait | apply keeps_drawAt
    | apply keeps_makeRoom | apply keeps_setKv | apply keeps_copyHbm | apply keeps_recordTokens | apply keeps_foldl_fst
    | apply keeps_foldl | apply keeps_ite | split | (intro _)
    | simp (disch := (apply State.SameBut.mk <;> first | exact Base.Has.no | exact fun _ => rfl)) only [keeps_mk]
    | (apply State.SameBut.mk <;> first | exact Base.Has.no | exact fun _ => rfl))

theorem keeps_execPageGrant {x0 : Base} [x0.Has .regs] [x0.Has .hbm] [x0.Has .serve] [x0.Has .kv] (e : Nat) (s : State) (hk : x0.Keeps s) :
    KeepsRes x0 (execPageGrant e s) := by
  unfold execPageGrant
  with_reducible repeat' (first
    | exact hk | assumption | apply keepsRes_next | apply keepsRes_ite | apply keeps_drawAt | apply keeps_makeRoom
    | apply keeps_setEntry | apply keeps_ite | split | (intro _)
    | simp (disch := (apply State.SameBut.mk <;> first | exact Base.Has.no | exact fun _ => rfl)) only [keeps_mk]
    | (apply State.SameBut.mk <;> first | exact Base.Has.no | exact fun _ => rfl))

theorem keeps_preempt {x0 : Base} [x0.Has .regs] [x0.Has .hbm] [x0.Has .serve] [x0.Has .kv] (s : State) (e : Nat) (hk : x0.Keeps s) :
    x0.Keeps (State.preempt s e) := by
  unfold State.preempt
  with_reducible repeat' (first
    | exact hk | assumption | apply keeps_setEntry | apply keeps_bump | apply keeps_releasePages | (intro _)
    | simp (disch := (apply State.SameBut.mk <;> first | exact Base.Has.no | exact fun _ => rfl)) only [keeps_mk]
    | (apply State.SameBut.mk <;> first | exact Base.Has.no | exact fun _ => rfl))

theorem keeps_execPageWaitTimer {x0 : Base} [x0.Has .regs] [x0.Has .hbm] [x0.Has .serve] [x0.Has .kv] (e : Nat) (s : State) (hk : x0.Keeps s) :
    KeepsRes x0 (execPageWaitTimer e s) := by
  unfold execPageWaitTimer
  with_reducible repeat' (first
    | exact hk | assumption | apply keepsRes_next | apply keepsRes_ite | apply keeps_preempt | apply keeps_setEntry
    | apply keeps_foldl_fst | apply keeps_foldl | apply keeps_ite | split | (intro _)
    | simp (disch := (apply State.SameBut.mk <;> first | exact Base.Has.no | exact fun _ => rfl)) only [keeps_mk]
    | (apply State.SameBut.mk <;> first | exact Base.Has.no | exact fun _ => rfl))

theorem keeps_execResumePreempted {x0 : Base} [x0.Has .regs] [x0.Has .hbm] [x0.Has .serve] [x0.Has .kv] (e : Nat) (s : State) (hk : x0.Keeps s) :
    KeepsRes x0 (execResumePreempted e s) := by
  unfold execResumePreempted
  with_reducible repeat' (first
    | exact hk | assumption | apply keepsRes_next | apply keepsRes_ite | apply keeps_setEntry | apply keeps_lookup
    | apply keeps_ite | split | (intro _)
    | simp (disch := (apply State.SameBut.mk <;> first | exact Base.Has.no | exact fun _ => rfl)) only [keeps_mk]
    | (apply State.SameBut.mk <;> first | exact Base.Has.no | exact fun _ => rfl))

theorem keeps_setSampler {x0 : Base} [x0.Has .serve] (s : State) (e : Nat) (x : Sampler) (hk : x0.Keeps s) :
    x0.Keeps (State.setSampler s e x) := by
  unfold State.setSampler
  with_reducible repeat' (first
    | exact hk | assumption
    | simp (disch := (apply State.SameBut.mk <;> first | exact Base.Has.no | exact fun _ => rfl)) only [keeps_mk]
    | (apply State.SameBut.mk <;> first | exact Base.Has.no | exact fun _ => rfl))

theorem keeps_drawToken {x0 : Base} [x0.Has .regs] [x0.Has .free] (s : State) (e pos : Nat) (extra : List Nat) (row : List (Nat × Bool)) (hk : x0.Keeps s) :
    x0.Keeps (s.drawToken e pos extra row).1 := by
  delta State.drawToken
  extract_lets +onlyGivenNames y
  refine keeps_ite_fst (keeps_bump _ _ _ _ hk) ?_
  extract_lets +onlyGivenNames z s1 n ids
  have h1 : x0.Keeps s1 := keeps_bump _ _ _ _ hk
  clear_value s1
  cases sampleTok z ids y.temperature y.topP y.topK y.repPenalty y.seed y.reqId pos (Config.freeValue 364 s1.free) with
  | token t => exact keeps_mk_freeLe (keeps_bump _ _ _ _ h1) (by rw [State.bump_free]; exact Nat.le_succ _) (by apply State.SameBut.mk <;> first | exact Base.Has.no | exact fun _ => rfl)
  | fail c => exact keeps_bump _ _ _ _ h1
theorem keeps_setSteps {x0 : Base} [x0.Has .serve] (s : State) (l : List StepRun) (hk : x0.Keeps s) :
    x0.Keeps (State.setSteps s l) := by
  unfold State.setSteps
  with_reducible repeat' (first
    | exact hk | assumption
    | simp (disch := (apply State.SameBut.mk <;> first | exact Base.Has.no | exact fun _ => rfl)) only [keeps_mk]
    | (apply State.SameBut.mk <;> first | exact Base.Has.no | exact fun _ => rfl))

theorem keeps_modStep {x0 : Base} [x0.Has .serve] (s : State) (sv n : Nat) (f : StepRun → StepRun) (hk : x0.Keeps s) :
    x0.Keeps (State.modStep s sv n f) := by
  unfold State.modStep
  with_reducible repeat' (first | exact hk | assumption | apply keeps_setSteps | apply keeps_ite | split)

theorem keeps_applyWatches {x0 : Base} [x0.Has .regs] [x0.Has .noc] [x0.Has .serve] [x0.Has .hub] [x0.Has .raises] (s : State) (r : StepRun) (e : Nat) (path : List Nat) (hk : x0.Keeps s) :
    x0.Keeps (State.applyWatches s r e path) := by
  unfold State.applyWatches
  with_reducible repeat' (first
    | exact hk | assumption | apply keeps_nwApply | apply keeps_foldl_fst | apply keeps_foldl | split | (intro _)
    | simp (disch := (apply State.SameBut.mk <;> first | exact Base.Has.no | exact fun _ => rfl)) only [keeps_mk]
    | (apply State.SameBut.mk <;> first | exact Base.Has.no | exact fun _ => rfl))

theorem keeps_applyGrads {x0 : Base} [x0.Has .regs] [x0.Has .noc] [x0.Has .serve] [x0.Has .hub] [x0.Has .raises] (s : State) (r : StepRun) (hk : x0.Keeps s) :
    x0.Keeps (State.applyGrads s r) := by
  unfold State.applyGrads
  with_reducible repeat' (first
    | exact hk | assumption | apply keeps_nwApply | apply keeps_foldl_fst | apply keeps_foldl | (intro _)
    | simp (disch := (apply State.SameBut.mk <;> first | exact Base.Has.no | exact fun _ => rfl)) only [keeps_mk]
    | (apply State.SameBut.mk <;> first | exact Base.Has.no | exact fun _ => rfl))

theorem keeps_dropWatches {x0 : Base} [x0.Has .noc] (s : State) (r : StepRun) (es : List Nat) (grads : Bool) (hk : x0.Keeps s) :
    x0.Keeps (State.dropWatches s r es grads) := by
  unfold State.dropWatches
  with_reducible repeat' (first
    | exact hk | assumption | apply keeps_ite | split | (intro _)
    | simp (disch := (apply State.SameBut.mk <;> first | exact Base.Has.no | exact fun _ => rfl)) only [keeps_mk]
    | (apply State.SameBut.mk <;> first | exact Base.Has.no | exact fun _ => rfl))

theorem keeps_disableNow {x0 : Base} [x0.Has .regs] [x0.Has .hbm] [x0.Has .serve] [x0.Has .kv] [x0.Has .hub] [x0.Has .raises] (s : State) (sv : Nat) (hk : x0.Keeps s) :
    x0.Keeps (State.disableNow s sv) := by
  unfold State.disableNow
  with_reducible repeat' (first
    | exact hk | assumption | apply keeps_wr | apply keeps_endEntry | apply keeps_setKv | apply keeps_dropRef
    | apply keeps_foldl_fst | apply keeps_foldl | (intro _)
    | simp (disch := (apply State.SameBut.mk <;> first | exact Base.Has.no | exact fun _ => rfl)) only [keeps_mk]
    | (apply State.SameBut.mk <;> first | exact Base.Has.no | exact fun _ => rfl))

theorem keeps_settleEntry {x0 : Base} [x0.Has .regs] [x0.Has .hbm] [x0.Has .serve] [x0.Has .kv] (s : State) (r : StepRun) (e : Nat) (hk : x0.Keeps s) :
    x0.Keeps (State.settleEntry s r e) := by
  unfold State.settleEntry
  with_reducible repeat' (first
    | exact hk | assumption | apply keeps_advanceFill | apply keeps_freeEntry | apply keeps_setEntry
    | apply keeps_releasePages | apply keeps_ite | split | (intro _)
    | simp (disch := (apply State.SameBut.mk <;> first | exact Base.Has.no | exact fun _ => rfl)) only [keeps_mk]
    | (apply State.SameBut.mk <;> first | exact Base.Has.no | exact fun _ => rfl))

theorem keeps_settle {x0 : Base} [x0.Has .regs] [x0.Has .hbm] [x0.Has .noc] [x0.Has .serve] [x0.Has .kv] [x0.Has .hub]
    [x0.Has .raises]
    (s : State) (sv n : Nat) (hk : x0.Keeps s) :
    x0.Keeps (State.settle s sv n) := by
  unfold State.settle
  with_reducible repeat' (first
    | exact hk | assumption | apply keeps_dropWatches | apply keeps_settleEntry | apply keeps_setSteps
    | apply keeps_disableNow | apply keeps_countOld | apply keeps_foldl_fst | apply keeps_foldl | apply keeps_ite | split
    | (intro _)
    | simp (disch := (apply State.SameBut.mk <;> first | exact Base.Has.no | exact fun _ => rfl)) only [keeps_mk]
    | (apply State.SameBut.mk <;> first | exact Base.Has.no | exact fun _ => rfl))

theorem keeps_commitNone {x0 : Base} [x0.Has .regs] [x0.Has .noc] [x0.Has .serve] [x0.Has .hub] [x0.Has .raises] (s : State) (r : StepRun) (e : Nat) (hk : x0.Keeps s) :
    x0.Keeps (State.commitNone s r e) := by
  unfold State.commitNone
  with_reducible repeat' (first
    | exact hk | assumption | apply keeps_setEntry | apply keeps_applyWatches | apply keeps_modStep | apply keeps_ite
    | split | (intro _)
    | simp (disch := (apply State.SameBut.mk <;> first | exact Base.Has.no | exact fun _ => rfl)) only [keeps_mk]
    | (apply State.SameBut.mk <;> first | exact Base.Has.no | exact fun _ => rfl))

theorem keeps_complete {x0 : Base} [x0.Has .regs] [x0.Has .hbm] [x0.Has .noc] [x0.Has .serve] [x0.Has .kv] [x0.Has .hub]
    [x0.Has .raises]
    (s : State) (sv n : Nat) (hk : x0.Keeps s) :
    x0.Keeps (State.complete s sv n) := by
  unfold State.complete
  with_reducible repeat' (first
    | exact hk | assumption | apply keeps_settle | apply keeps_applyGrads | apply keeps_commitNone | apply keeps_foldl_fst
    | apply keeps_foldl | apply keeps_ite | split | (intro _)
    | simp (disch := (apply State.SameBut.mk <;> first | exact Base.Has.no | exact fun _ => rfl)) only [keeps_mk]
    | (apply State.SameBut.mk <;> first | exact Base.Has.no | exact fun _ => rfl))

theorem keeps_failStepRun {x0 : Base} [x0.Has .regs] [x0.Has .hbm] [x0.Has .regions] [x0.Has .noc] [x0.Has .serve] [x0.Has .kv]
    [x0.Has .hub] [x0.Has .raises]
    (s : State) (sv n : Nat) (hk : x0.Keeps s) :
    x0.Keeps (State.failStepRun s sv n) := by
  unfold State.failStepRun
  with_reducible repeat' (first
    | exact hk | assumption | apply keeps_dropWatches | apply keeps_voidRun | apply keeps_setEntry | apply keeps_endEntry
    | apply keeps_modStep | apply keeps_foldl_fst | apply keeps_foldl | apply keeps_ite | split | (intro _)
    | simp (disch := (apply State.SameBut.mk <;> first | exact Base.Has.no | exact fun _ => rfl)) only [keeps_mk]
    | (apply State.SameBut.mk <;> first | exact Base.Has.no | exact fun _ => rfl))

theorem keeps_startCopies {x0 : Base} [x0.Has .regs] [x0.Has .hbm] [x0.Has .kv] (s : State) (e : Nat) (ks : List Nat) (hk : x0.Keeps s) : x0.Keeps (s.startCopies e ks) := by
  unfold State.startCopies
  refine keeps_foldl hk _ _ (fun t ht k => ?_)
  dsimp only
  split
  · exact ht
  · exact keeps_setKv _ _ (keeps_drawPage _ _ _ _ _ ht _ (by assumption))
theorem keeps_reach {x0 : Base} [x0.Has .regs] [x0.Has .hbm] [x0.Has .serve] [x0.Has .kv] (s : State) (e p n epoch : Nat) (hk : x0.Keeps s) :
    x0.Keeps (State.reach s e p n epoch).1 := by
  unfold State.reach
  with_reducible repeat' (first
    | exact hk | assumption | apply keeps_pageWait | apply keeps_setPage | apply keeps_drawAt | apply keeps_startCopies
    | apply keeps_makeRoom | apply keeps_foldl_fst | apply keeps_foldl | apply keeps_ite | split | (intro _)
    | simp (disch := (apply State.SameBut.mk <;> first | exact Base.Has.no | exact fun _ => rfl)) only [keeps_mk]
    | (apply State.SameBut.mk <;> first | exact Base.Has.no | exact fun _ => rfl))

theorem keeps_ite_s {x0 : Base} {a b : Forming} {c : Prop} [Decidable c] (ha : x0.Keeps a.s) (hb : x0.Keeps b.s) :
    x0.Keeps (if c then a else b).s := by
  split <;> assumption

theorem keeps_take {x0 : Base} [x0.Has .regs] [x0.Has .hbm] [x0.Has .serve] [x0.Has .kv] [x0.Has .free] (sv : Nat) (f : Forming) (e : Nat) (hk : x0.Keeps f.s) : x0.Keeps (f.take sv e).s := by
  delta Forming.take
  extract_lets +onlyGivenNames s y
  have hs : x0.Keeps s := hk
  clear_value s
  refine keeps_ite_s hk (keeps_ite_s (keeps_setEntry _ _ _ hs) ?_)
  extract_lets +onlyGivenNames ep
  refine keeps_ite_s hk (keeps_ite_s ?_ ?_)
  · dsimp only
    exact (keeps_mk (by apply State.SameBut.mk <;> first | exact Base.Has.no | exact fun _ => rfl)).2 (keeps_setEntry _ _ _ hs)
  extract_lets +onlyGivenNames tree place
  refine keeps_ite_s hk (keeps_ite_s hk ?_)
  extract_lets +onlyGivenNames s1 x1 pos0 count r
  have h1 : x0.Keeps s1 := keeps_ite (keeps_lookup _ _ _ _ hs) hs
  have hr : x0.Keeps r.1 := keeps_reach _ _ _ _ _ h1
  clear_value s1 r
  refine keeps_ite_s hr ?_
  extract_lets +onlyGivenNames s2 y2 rc sp s3
  have h2 : x0.Keeps s2 := keeps_recordTokens _ _ _ _ hr
  have h3 : x0.Keeps s3 := keeps_ite (keeps_foldl h2 _ _ (fun t ht p => keeps_hbmWrite _ _ _ _ ht)) h2
  clear_value s3
  exact keeps_setEntry _ _ _ h3

theorem keeps_forming {x0 : Base} [x0.Has .regs] [x0.Has .hbm] [x0.Has .serve] [x0.Has .kv] [x0.Has .free] (sv : Nat) (l : List Nat) : ∀ f : Forming, x0.Keeps f.s → x0.Keeps (l.foldl (Forming.take sv) f).s := by
  induction l with
  | nil => intro f hk; exact hk
  | cons e t ih => intro f hk; exact ih _ (keeps_take sv f e hk)

theorem keeps_execFormStep {x0 : Base} [x0.Has .regs] [x0.Has .hbm] [x0.Has .serve] [x0.Has .kv] [x0.Has .free] (sv : Nat) (s : State) (hk : x0.Keeps s) : KeepsRes x0 (execFormStep sv s) := by
  delta execFormStep
  extract_lets +onlyGivenNames place
  refine keepsRes_ite (keepsRes_next hk) ?_
  extract_lets +onlyGivenNames es f ep dest
  have hf : x0.Keeps f.s := keeps_forming _ _ _ hk
  clear_value f
  refine keepsRes_ite (keepsRes_next hf) (keepsRes_ite (keepsRes_next hk) ?_)
  extract_lets +onlyGivenNames s0 n train d s1 lfs
  have h1 : x0.Keeps s1 := keeps_foldl hf _ _ (fun t ht e => keeps_setEntry _ _ _ ht)
  clear_value s1
  exact keepsRes_next (keeps_mk_free (z := 1) h1 (by apply State.SameBut.mk <;> first | exact Base.Has.no | exact fun _ => rfl))
theorem keeps_execDescriptorArrive {x0 : Base} [x0.Has .regs] [x0.Has .facets] [x0.Has .regions] [x0.Has .serve] (pf : Nat) (s : State) (hk : x0.Keeps s) :
    KeepsRes x0 (execDescriptorArrive pf s) := by
  unfold execDescriptorArrive
  with_reducible repeat' (first
    | exact hk | assumption | apply keepsRes_next | apply keepsRes_ite | apply keeps_wr | apply keeps_setRegion
    | apply keeps_voidRun | apply keeps_asyncCore | apply keeps_ite | split | (intro _)
    | simp (disch := (apply State.SameBut.mk <;> first | exact Base.Has.no | exact fun _ => rfl)) only [keeps_mk]
    | (apply State.SameBut.mk <;> first | exact Base.Has.no | exact fun _ => rfl))

theorem keeps_execKvWriteCompletion {x0 : Base} [x0.Has .regs] [x0.Has .hbm] [x0.Has .noc] [x0.Has .serve] [x0.Has .kv] [x0.Has .hub]
    [x0.Has .raises]
    (sv n : Nat) (s : State) (hk : x0.Keeps s) :
    KeepsRes x0 (execKvWriteCompletion sv n s) := by
  unfold execKvWriteCompletion
  with_reducible repeat' (first
    | exact hk | assumption | apply keepsRes_next | apply keepsRes_ite | apply keeps_settle | apply keeps_ite | split
    | (intro _)
    | simp (disch := (apply State.SameBut.mk <;> first | exact Base.Has.no | exact fun _ => rfl)) only [keeps_mk]
    | (apply State.SameBut.mk <;> first | exact Base.Has.no | exact fun _ => rfl))

theorem keeps_execScommitReport {x0 : Base} [x0.Has .regs] [x0.Has .hbm] [x0.Has .noc] [x0.Has .serve] [x0.Has .kv] [x0.Has .hub]
    [x0.Has .raises]
    (lf n : Nat) (s : State) (hk : x0.Keeps s) :
    KeepsRes x0 (execScommitReport lf n s) := by
  unfold execScommitReport
  with_reducible repeat' (first
    | exact hk | assumption | apply keepsRes_next | apply keepsRes_ite | apply keeps_complete | apply keeps_modStep
    | apply keeps_ite | split | (intro _)
    | simp (disch := (apply State.SameBut.mk <;> first | exact Base.Has.no | exact fun _ => rfl)) only [keeps_mk]
    | (apply State.SameBut.mk <;> first | exact Base.Has.no | exact fun _ => rfl))

theorem keeps_execStepFailedReport {x0 : Base} [x0.Has .regs] [x0.Has .hbm] [x0.Has .regions] [x0.Has .noc] [x0.Has .serve] [x0.Has .kv]
    [x0.Has .hub] [x0.Has .raises]
    (lf n : Nat) (s : State) (hk : x0.Keeps s) :
    KeepsRes x0 (execStepFailedReport lf n s) := by
  unfold execStepFailedReport
  with_reducible repeat' (first
    | exact hk | assumption | apply keepsRes_next | apply keepsRes_ite | apply keeps_failStepRun | apply keeps_settle
    | apply keeps_modStep | apply keeps_ite | split | (intro _)
    | simp (disch := (apply State.SameBut.mk <;> first | exact Base.Has.no | exact fun _ => rfl)) only [keeps_mk]
    | (apply State.SameBut.mk <;> first | exact Base.Has.no | exact fun _ => rfl))

theorem keeps_execSoutLogits {x0 : Base} [x0.Has .facets] [x0.Has .noc] [x0.Has .serve] (pf e : Nat) (s : State) (hk : x0.Keeps s) :
    KeepsRes x0 (execSoutLogits pf e s) := by
  unfold execSoutLogits
  with_reducible repeat' (first
    | exact hk | assumption | apply keepsRes_next | apply keepsRes_ite | apply keeps_asyncCore | apply keeps_setSampler
    | apply keeps_foldl_fst | apply keeps_foldl | apply keeps_ite | split | (intro _)
    | simp (disch := (apply State.SameBut.mk <;> first | exact Base.Has.no | exact fun _ => rfl)) only [keeps_mk]
    | (apply State.SameBut.mk <;> first | exact Base.Has.no | exact fun _ => rfl))

theorem keeps_commitTokens {x0 : Base} [x0.Has .regs] [x0.Has .hbm] [x0.Has .noc] [x0.Has .serve] [x0.Has .kv] [x0.Has .hub]
    [x0.Has .raises] [x0.Has .free]
    (s : State) (r : StepRun) (e : Nat) (toks path : List Nat) (hk : x0.Keeps s) :
    x0.Keeps (State.commitTokens s r e toks path) := by
  unfold State.commitTokens
  with_reducible repeat' (first
    | exact hk | assumption | apply keeps_svcRecord | apply keeps_recordTokens | apply keeps_register
    | apply keeps_hbmWrite | apply keeps_setEntry | apply keeps_setKv | apply keeps_applyWatches | apply keeps_modStep
    | apply keeps_charge | apply keeps_endEntry | apply keeps_ite | split | (intro _)
    | simp (disch := (apply State.SameBut.mk <;> first | exact Base.Has.no | exact fun _ => rfl)) only [keeps_mk]
    | (apply State.SameBut.mk <;> first | exact Base.Has.no | exact fun _ => rfl))

theorem keeps_execTokenCommit {x0 : Base} [x0.Has .regs] [x0.Has .hbm] [x0.Has .noc] [x0.Has .serve] [x0.Has .kv] [x0.Has .hub]
    [x0.Has .raises] [x0.Has .free]
    (e : Nat) (s : State) (hk : x0.Keeps s) :
    KeepsRes x0 (execTokenCommit e s) := by
  unfold execTokenCommit
  with_reducible repeat' (first
    | exact hk | assumption | apply keepsRes_next | apply keepsRes_ite | apply keeps_drawToken | apply keeps_endEntry
    | apply keeps_complete | apply keeps_commitTokens | apply keeps_ite | split | (intro _)
    | simp (disch := (apply State.SameBut.mk <;> first | exact Base.Has.no | exact fun _ => rfl)) only [keeps_mk]
    | (apply State.SameBut.mk <;> first | exact Base.Has.no | exact fun _ => rfl))

theorem keeps_execVerifySample {x0 : Base} [x0.Has .regs] [x0.Has .hbm] [x0.Has .regions] [x0.Has .noc] [x0.Has .serve] [x0.Has .kv]
    [x0.Has .hub] [x0.Has .raises] [x0.Has .free]
    (e : Nat) (s : State) (hk : x0.Keeps s) :
    KeepsRes x0 (execVerifySample e s) := by
  unfold execVerifySample
  with_reducible repeat' (first
    | exact hk | assumption | apply keepsRes_next | apply keepsRes_ite | apply keeps_drawToken | apply keeps_failStepRun
    | apply keeps_settle | apply keeps_setSampler | apply keeps_ite | split | (intro _)
    | simp (disch := (apply State.SameBut.mk <;> first | exact Base.Has.no | exact fun _ => rfl)) only [keeps_mk]
    | (apply State.SameBut.mk <;> first | exact Base.Has.no | exact fun _ => rfl))

theorem keeps_takeAck {x0 : Base} [x0.Has .regs] [x0.Has .hbm] [x0.Has .serve] [x0.Has .kv] [x0.Has .raises] [x0.Has .out] (s : State) (n ack : Nat) (hk : x0.Keeps s) :
    x0.Keeps (State.takeAck s n ack) := by
  unfold State.takeAck
  with_reducible repeat' (first
    | exact hk | assumption | apply keeps_setChan | apply keeps_freeEntry | apply keeps_flushChan | apply keeps_foldl_fst
    | apply keeps_foldl | apply keeps_ite | split | (intro _)
    | simp (disch := (apply State.SameBut.mk <;> first | exact Base.Has.no | exact fun _ => rfl)) only [keeps_mk]
    | (apply State.SameBut.mk <;> first | exact Base.Has.no | exact fun _ => rfl))

theorem keeps_ingress {x0 : Base} [x0.Has .regs] [x0.Has .hbm] [x0.Has .serve] [x0.Has .kv] [x0.Has .raises] [x0.Has .out] (s : State) (f : Frame) (hk : x0.Keeps s) :
    x0.Keeps (State.ingress s f).1 := by
  unfold State.ingress
  with_reducible repeat' (first
    | exact hk | assumption | apply keeps_rekeyCheck | apply keeps_setChan | apply keeps_takeAck | apply keeps_bump
    | apply keeps_ite | split | (intro _)
    | simp (disch := (apply State.SameBut.mk <;> first | exact Base.Has.no | exact fun _ => rfl)) only [keeps_mk]
    | (apply State.SameBut.mk <;> first | exact Base.Has.no | exact fun _ => rfl))

theorem keeps_refuse {x0 : Base} [x0.Has .regs] [x0.Has .serve] [x0.Has .raises] [x0.Has .out] (s : State) (h : MsgHdr) (sv code detail : Nat) (hk : x0.Keeps s) :
    x0.Keeps (State.refuse s h sv code detail) := by
  unfold State.refuse
  with_reducible repeat' (first
    | exact hk | assumption | apply keeps_sendError | apply keeps_bump | apply keeps_ite | split | (intro _)
    | simp (disch := (apply State.SameBut.mk <;> first | exact Base.Has.no | exact fun _ => rfl)) only [keeps_mk])

theorem keeps_tokenized {x0 : Base} [x0.Has .regs] [x0.Has .hbm] [x0.Has .serve] [x0.Has .kv] [x0.Has .hub] [x0.Has .raises] (s : State) (e : Nat) (ids : List Nat) (hk : x0.Keeps s) :
    x0.Keeps (State.tokenized s e ids) := by
  unfold State.tokenized
  with_reducible repeat' (first
    | exact hk | assumption | apply keeps_hbmWrite | apply keeps_setEntry | apply keeps_endEntry | apply keeps_ite | split
    | (intro _)
    | simp (disch := (apply State.SameBut.mk <;> first | exact Base.Has.no | exact fun _ => rfl)) only [keeps_mk]
    | (apply State.SameBut.mk <;> first | exact Base.Has.no | exact fun _ => rfl))

theorem keeps_tokNext {x0 : Base} [x0.Has .serve] (s : State) (hub : Nat) (hk : x0.Keeps s) :
    x0.Keeps (State.tokNext s hub) := by
  unfold State.tokNext
  with_reducible repeat' (first
    | exact hk | assumption | apply keeps_foldl_fst | apply keeps_foldl | split | (intro _)
    | simp (disch := (apply State.SameBut.mk <;> first | exact Base.Has.no | exact fun _ => rfl)) only [keeps_mk]
    | apply keeps_mk_hub_setPoison | apply keeps_mk_hub_write2 | apply keeps_mk_hub_writeByte | apply keeps_mk_hub_write
    | (apply State.SameBut.mk <;> first | exact Base.Has.no | exact fun _ => rfl))

theorem keeps_queueEntry {x0 : Base} [x0.Has .regs] [x0.Has .hbm] [x0.Has .serve] [x0.Has .kv] [x0.Has .hub] [x0.Has .raises] (s : State) (e : Nat) (hk : x0.Keeps s) :
    x0.Keeps (State.queueEntry s e) := by
  unfold State.queueEntry
  with_reducible repeat' (first
    | exact hk | assumption | apply keeps_hbmWrite | apply keeps_tokNext | apply keeps_setEntry | apply keeps_tokenized
    | apply keeps_ite | split | (intro _)
    | simp (disch := (apply State.SameBut.mk <;> first | exact Base.Has.no | exact fun _ => rfl)) only [keeps_mk]
    | (apply State.SameBut.mk <;> first | exact Base.Has.no | exact fun _ => rfl))

theorem keeps_execSubmit {x0 : Base} [x0.Has .regs] [x0.Has .hbm] [x0.Has .serve] [x0.Has .kv] [x0.Has .hub] [x0.Has .raises]
    [x0.Has .out]
    (f : Frame) (pick : Nat) (s : State) (hk : x0.Keeps s) :
    KeepsRes x0 (execSubmit f pick s) := by
  unfold execSubmit
  with_reducible repeat' (first
    | exact hk | assumption | apply keepsRes_next | apply keepsRes_ite | apply keeps_freeEntry | apply keeps_refuse
    | apply keeps_hbmWrite | apply keeps_setEntry | apply keeps_ingress | apply keeps_queueEntry | apply keeps_ite | split
    | (intro _)
    | simp (disch := (apply State.SameBut.mk <;> first | exact Base.Has.no | exact fun _ => rfl)) only [keeps_mk]
    | (apply State.SameBut.mk <;> first | exact Base.Has.no | exact fun _ => rfl))

theorem keeps_cancelEntry {x0 : Base} [x0.Has .regs] [x0.Has .hbm] [x0.Has .noc] [x0.Has .serve] [x0.Has .kv] [x0.Has .hub]
    [x0.Has .raises]
    (s : State) (e : Nat) (hk : x0.Keeps s) :
    x0.Keeps (State.cancelEntry s e) := by
  unfold State.cancelEntry
  with_reducible repeat' (first
    | exact hk | assumption | apply keeps_dropWatches | apply keeps_endEntry | apply keeps_ite | split | (intro _)
    | simp (disch := (apply State.SameBut.mk <;> first | exact Base.Has.no | exact fun _ => rfl)) only [keeps_mk]
    | (apply State.SameBut.mk <;> first | exact Base.Has.no | exact fun _ => rfl))

theorem keeps_execCancel {x0 : Base} [x0.Has .regs] [x0.Has .hbm] [x0.Has .noc] [x0.Has .serve] [x0.Has .kv] [x0.Has .hub]
    [x0.Has .raises] [x0.Has .out]
    (f : Frame) (s : State) (hk : x0.Keeps s) :
    KeepsRes x0 (execCancel f s) := by
  unfold execCancel
  with_reducible repeat' (first
    | exact hk | assumption | apply keepsRes_next | apply keepsRes_ite | apply keeps_freeEntry | apply keeps_sendError
    | apply keeps_ingress | apply keeps_cancelEntry | apply keeps_post | apply keeps_ite | split | (intro _)
    | simp (disch := (apply State.SameBut.mk <;> first | exact Base.Has.no | exact fun _ => rfl)) only [keeps_mk]
    | (apply State.SameBut.mk <;> first | exact Base.Has.no | exact fun _ => rfl))

theorem keeps_execClientBareAck {x0 : Base} [x0.Has .regs] [x0.Has .hbm] [x0.Has .serve] [x0.Has .kv] [x0.Has .raises] [x0.Has .out] (f : Frame) (s : State) (hk : x0.Keeps s) :
    KeepsRes x0 (execClientBareAck f s) := by
  unfold execClientBareAck
  with_reducible repeat' (first
    | exact hk | assumption | apply keepsRes_next | apply keepsRes_ite | apply keeps_ingress | apply keeps_ite | split)

theorem keeps_execAsmTimeout {x0 : Base} [x0.Has .regs] [x0.Has .hbm] [x0.Has .serve] [x0.Has .kv] [x0.Has .raises] [x0.Has .out] (e : Nat) (s : State) (hk : x0.Keeps s) :
    KeepsRes x0 (execAsmTimeout e s) := by
  unfold execAsmTimeout
  with_reducible repeat' (first
    | exact hk | assumption | apply keepsRes_next | apply keepsRes_ite | apply keeps_freeEntry | apply keeps_sendError
    | apply keeps_ite | split | (intro _)
    | simp (disch := (apply State.SameBut.mk <;> first | exact Base.Has.no | exact fun _ => rfl)) only [keeps_mk])

theorem keeps_tokBlock {x0 : Base} [x0.Has .regs] [x0.Has .hbm] [x0.Has .serve] [x0.Has .kv] [x0.Has .hub] [x0.Has .raises]
    [x0.Has .free]
    (s : State) (e : Nat) (hk : x0.Keeps s) : x0.Keeps (s.tokBlock e) := by
  delta State.tokBlock
  have h1 : ∀ z, x0.Keeps (s.setEntry e z) := fun z => keeps_setEntry _ _ _ hk
  refine keeps_ite (keeps_endEntry _ _ _ _ _ (h1 _)) (keeps_ite (keeps_endEntry _ _ _ _ _ (h1 _)) (keeps_ite ?_ (h1 _)))
  exact keeps_tokenized _ _ _ (keeps_mk_free (z := 1) (h1 _) (by apply State.SameBut.mk <;> first | exact Base.Has.no | exact fun _ => rfl))
theorem keeps_execTokenizeBlock {x0 : Base} [x0.Has .regs] [x0.Has .hbm] [x0.Has .serve] [x0.Has .kv] [x0.Has .hub] [x0.Has .raises]
    [x0.Has .free]
    (hub : Nat) (s : State) (hk : x0.Keeps s) :
    KeepsRes x0 (execTokenizeBlock hub s) := by
  unfold execTokenizeBlock
  with_reducible repeat' (first
    | exact hk | assumption | apply keepsRes_next | apply keepsRes_ite | apply keeps_tokNext | apply keeps_tokBlock
    | apply keeps_ite | split
    | simp (disch := (apply State.SameBut.mk <;> first | exact Base.Has.no | exact fun _ => rfl)) only [keeps_mk]
    | apply keeps_mk_hub_setPoison | apply keeps_mk_hub_write2 | apply keeps_mk_hub_writeByte | apply keeps_mk_hub_write
    | (apply State.SameBut.mk <;> first | exact Base.Has.no | exact fun _ => rfl))

theorem keeps_execEgressTokens {x0 : Base} [x0.Has .serve] [x0.Has .raises] [x0.Has .out] (e : Nat) (s : State) (hk : x0.Keeps s) :
    KeepsRes x0 (execEgressTokens e s) := by
  unfold execEgressTokens
  with_reducible repeat' (first
    | exact hk | assumption | apply keepsRes_next | apply keepsRes_ite | apply keeps_sendNow | apply keeps_setEntry
    | apply keeps_ite | split | (intro _)
    | simp (disch := (apply State.SameBut.mk <;> first | exact Base.Has.no | exact fun _ => rfl)) only [keeps_mk]
    | (apply State.SameBut.mk <;> first | exact Base.Has.no | exact fun _ => rfl))

theorem keeps_execEgressEnd {x0 : Base} [x0.Has .serve] [x0.Has .raises] [x0.Has .out] (e : Nat) (s : State) (hk : x0.Keeps s) :
    KeepsRes x0 (execEgressEnd e s) := by
  unfold execEgressEnd
  with_reducible repeat' (first
    | exact hk | assumption | apply keepsRes_next | apply keepsRes_ite | apply keeps_sendNow | apply keeps_setEntry
    | apply keeps_ite | split | (intro _)
    | simp (disch := (apply State.SameBut.mk <;> first | exact Base.Has.no | exact fun _ => rfl)) only [keeps_mk]
    | (apply State.SameBut.mk <;> first | exact Base.Has.no | exact fun _ => rfl))

theorem keeps_execBareAckTimer {x0 : Base} [x0.Has .serve] [x0.Has .out] (n : Nat) (s : State) (hk : x0.Keeps s) :
    KeepsRes x0 (execBareAckTimer n s) := by
  unfold execBareAckTimer
  with_reducible repeat' (first
    | exact hk | assumption | apply keepsRes_next | apply keepsRes_ite | apply keeps_transmit | apply keeps_ite | split
    | (intro _)
    | simp (disch := (apply State.SameBut.mk <;> first | exact Base.Has.no | exact fun _ => rfl)) only [keeps_mk]
    | (apply State.SameBut.mk <;> first | exact Base.Has.no | exact fun _ => rfl))

theorem keeps_chanDown {x0 : Base} [x0.Has .regs] [x0.Has .hbm] [x0.Has .noc] [x0.Has .serve] [x0.Has .kv] [x0.Has .hub]
    [x0.Has .raises]
    (s : State) (n : Nat) (hk : x0.Keeps s) :
    x0.Keeps (State.chanDown s n) := by
  unfold State.chanDown
  with_reducible repeat' (first
    | exact hk | assumption | apply keeps_raise | apply keeps_setChan | apply keeps_freeEntry | apply keeps_cancelEntry
    | apply keeps_foldl_fst | apply keeps_foldl | apply keeps_ite | split | (intro _)
    | simp (disch := (apply State.SameBut.mk <;> first | exact Base.Has.no | exact fun _ => rfl)) only [keeps_mk]
    | (apply State.SameBut.mk <;> first | exact Base.Has.no | exact fun _ => rfl))

theorem keeps_execRetransmitTimer {x0 : Base} [x0.Has .regs] [x0.Has .hbm] [x0.Has .noc] [x0.Has .serve] [x0.Has .kv] [x0.Has .hub]
    [x0.Has .raises] [x0.Has .out]
    (n : Nat) (s : State) (hk : x0.Keeps s) :
    KeepsRes x0 (execRetransmitTimer n s) := by
  unfold execRetransmitTimer
  with_reducible repeat' (first
    | exact hk | assumption | apply keepsRes_next | apply keepsRes_ite | apply keeps_chanDown | apply keeps_setChan
    | apply keeps_transmit | apply keeps_foldl_fst | apply keeps_foldl | apply keeps_ite | split | (intro _)
    | simp (disch := (apply State.SameBut.mk <;> first | exact Base.Has.no | exact fun _ => rfl)) only [keeps_mk]
    | (apply State.SameBut.mk <;> first | exact Base.Has.no | exact fun _ => rfl))

theorem keeps_execChannelEnable {x0 : Base} [x0.Has .serve] [x0.Has .raises] [x0.Has .out] (n : Nat) (cfg : List Byte) (s : State) (hk : x0.Keeps s) :
    KeepsRes x0 (execChannelEnable n cfg s) := by
  unfold execChannelEnable
  with_reducible repeat' (first
    | exact hk | assumption | apply keepsRes_next | apply keepsRes_ite | apply keeps_setChan | apply keeps_transmit
    | apply keeps_flushChan | apply keeps_foldl_fst | apply keeps_foldl | apply keeps_ite | split | (intro _)
    | simp (disch := (apply State.SameBut.mk <;> first | exact Base.Has.no | exact fun _ => rfl)) only [keeps_mk]
    | (apply State.SameBut.mk <;> first | exact Base.Has.no | exact fun _ => rfl))

theorem keeps_execSwEntryQueue {x0 : Base} [x0.Has .regs] [x0.Has .hbm] [x0.Has .serve] [x0.Has .raises] (e : Nat) (b : List Byte) (s : State) (hk : x0.Keeps s) :
    KeepsRes x0 (execSwEntryQueue e b s) := by
  unfold execSwEntryQueue
  with_reducible repeat' (first
    | exact hk | assumption | apply keepsRes_next | apply keepsRes_ite | apply keeps_swReject | apply keeps_hbmWrite
    | apply keeps_setEntry | apply keeps_ite | split | (intro _)
    | simp (disch := (apply State.SameBut.mk <;> first | exact Base.Has.no | exact fun _ => rfl)) only [keeps_mk]
    | (apply State.SameBut.mk <;> first | exact Base.Has.no | exact fun _ => rfl))

theorem keeps_execSwEntryCancel {x0 : Base} [x0.Has .regs] [x0.Has .hbm] [x0.Has .noc] [x0.Has .serve] [x0.Has .kv] [x0.Has .hub]
    [x0.Has .raises]
    (e : Nat) (s : State) (hk : x0.Keeps s) :
    KeepsRes x0 (execSwEntryCancel e s) := by
  unfold execSwEntryCancel
  with_reducible repeat' (first
    | exact hk | assumption | apply keepsRes_next | apply keepsRes_ite | apply keeps_cancelEntry | apply keeps_swReject
    | apply keeps_ite | split)

theorem keeps_execSwEntryRelease {x0 : Base} [x0.Has .regs] [x0.Has .hbm] [x0.Has .serve] [x0.Has .kv] [x0.Has .raises] (e : Nat) (s : State) (hk : x0.Keeps s) :
    KeepsRes x0 (execSwEntryRelease e s) := by
  unfold execSwEntryRelease
  with_reducible repeat' (first
    | exact hk | assumption | apply keepsRes_next | apply keepsRes_ite | apply keeps_freeEntry | apply keeps_swReject
    | apply keeps_ite | split | (intro _)
    | simp (disch := (apply State.SameBut.mk <;> first | exact Base.Has.no | exact fun _ => rfl)) only [keeps_mk])

theorem keeps_execSwTreeWrite {x0 : Base} [x0.Has .regs] [x0.Has .serve] [x0.Has .raises] (e n : Nat) (s : State) (hk : x0.Keeps s) :
    KeepsRes x0 (execSwTreeWrite e n s) := by
  unfold execSwTreeWrite
  with_reducible repeat' (first
    | exact hk | assumption | apply keepsRes_next | apply keepsRes_ite | apply keeps_swReject | apply keeps_setEntry
    | apply keeps_ite | split | (intro _)
    | simp (disch := (apply State.SameBut.mk <;> first | exact Base.Has.no | exact fun _ => rfl)) only [keeps_mk]
    | (apply State.SameBut.mk <;> first | exact Base.Has.no | exact fun _ => rfl))

theorem keeps_execDeadlineExpire {x0 : Base} [x0.Has .regs] [x0.Has .serve] [x0.Has .hub] [x0.Has .raises] (e : Nat) (s : State) (hk : x0.Keeps s) :
    KeepsRes x0 (execDeadlineExpire e s) := by
  unfold execDeadlineExpire
  with_reducible repeat' (first
    | exact hk | assumption | apply keepsRes_next | apply keepsRes_ite | apply keeps_svcRecord | apply keeps_setEntry
    | apply keeps_bump | apply keeps_ite | split | (intro _)
    | simp (disch := (apply State.SameBut.mk <;> first | exact Base.Has.no | exact fun _ => rfl)) only [keeps_mk]
    | (apply State.SameBut.mk <;> first | exact Base.Has.no | exact fun _ => rfl))

theorem keeps_showBounds {x0 : Base} [x0.Has .regs] (s : State) (sv ts tf : Nat) (hk : x0.Keeps s) :
    x0.Keeps (State.showBounds s sv ts tf) := by
  unfold State.showBounds
  with_reducible repeat' (first
    | exact hk | assumption | apply keeps_wr | (intro _)
    | simp (disch := (apply State.SameBut.mk <;> first | exact Base.Has.no | exact fun _ => rfl)) only [keeps_mk])

theorem keeps_drawScratch {x0 : Base} [x0.Has .regs] [x0.Has .hbm] [x0.Has .kv] (s : State) (sv : Nat) (hk : x0.Keeps s) : x0.Keeps (s.drawScratch sv) := by
  unfold State.drawScratch
  split
  · exact hk
  · refine keeps_foldl hk _ _ (fun t ht b => keeps_foldl ht _ _ (fun u hu k => ?_))
    dsimp only
    split
    · exact hu
    · exact keeps_setKv _ _ (keeps_drawPage _ _ _ _ _ hu _ (by assumption))
theorem keeps_execServiceEnable {x0 : Base} [x0.Has .regs] (sv : Nat) (s : State) (hk : x0.Keeps s) :
    KeepsRes x0 (execServiceEnable sv s) := by
  unfold execServiceEnable
  with_reducible repeat' (first
    | exact hk | assumption | apply keepsRes_next | apply keepsRes_ite | apply keeps_wr | apply keeps_ite | split)

theorem keeps_rerunEnd {x0 : Base} [x0.Has .regs] [x0.Has .serve] [x0.Has .raises] (s : State) (sv reason : Nat) (hk : x0.Keeps s) :
    x0.Keeps (State.rerunEnd s sv reason) := by
  unfold State.rerunEnd
  with_reducible repeat' (first
    | exact hk | assumption | apply keeps_wr | apply keeps_raise | apply keeps_setEntry | apply keeps_foldl_fst
    | apply keeps_foldl | apply keeps_ite | split | (intro _)
    | simp (disch := (apply State.SameBut.mk <;> first | exact Base.Has.no | exact fun _ => rfl)) only [keeps_mk]
    | (apply State.SameBut.mk <;> first | exact Base.Has.no | exact fun _ => rfl))

theorem keeps_execAdmissionDone {x0 : Base} [x0.Has .regs] [x0.Has .hbm] [x0.Has .serve] [x0.Has .kv] [x0.Has .raises] (sv : Nat) (c : Cost) (s : State) (hk : x0.Keeps s) :
    KeepsRes x0 (execAdmissionDone sv c s) := by
  unfold execAdmissionDone
  with_reducible repeat' (first
    | exact hk | assumption | apply keepsRes_next | apply keepsRes_ite | apply keeps_showBounds | apply keeps_wr
    | apply keeps_raise | apply keeps_rerunEnd | apply keeps_rerun | apply keeps_setKv | apply keeps_drawScratch
    | apply keeps_ite | split | (intro _)
    | simp (disch := (apply State.SameBut.mk <;> first | exact Base.Has.no | exact fun _ => rfl)) only [keeps_mk]
    | (apply State.SameBut.mk <;> first | exact Base.Has.no | exact fun _ => rfl))

theorem keeps_execSvcReadmit {x0 : Base} [x0.Has .regs] (sv : Nat) (s : State) (hk : x0.Keeps s) :
    KeepsRes x0 (execSvcReadmit sv s) := by
  unfold execSvcReadmit
  with_reducible repeat' (first
    | exact hk | assumption | apply keepsRes_next | apply keepsRes_ite | apply keeps_wr | apply keeps_ite | split)

theorem keeps_execServiceDisable {x0 : Base} [x0.Has .regs] [x0.Has .hbm] [x0.Has .serve] [x0.Has .kv] [x0.Has .hub] [x0.Has .raises] (sv : Nat) (s : State) (hk : x0.Keeps s) :
    KeepsRes x0 (execServiceDisable sv s) := by
  unfold execServiceDisable
  with_reducible repeat' (first
    | exact hk | assumption | apply keepsRes_next | apply keepsRes_ite | apply keeps_rerun | apply keeps_disableNow
    | apply keeps_ite | split | (intro _)
    | simp (disch := (apply State.SameBut.mk <;> first | exact Base.Has.no | exact fun _ => rfl)) only [keeps_mk]
    | (apply State.SameBut.mk <;> first | exact Base.Has.no | exact fun _ => rfl))

theorem keeps_execSvcStop {x0 : Base} [x0.Has .regs] (sv : Nat) (s : State) (hk : x0.Keeps s) :
    KeepsRes x0 (execSvcStop sv s) := by
  unfold execSvcStop
  with_reducible repeat' (first | exact hk | assumption | apply keepsRes_next | apply keeps_wr)

theorem keeps_execBudCfgWrite {x0 : Base} [x0.Has .regs] [x0.Has .serve] (c value : Nat) (s : State) (hk : x0.Keeps s) :
    KeepsRes x0 (execBudCfgWrite c value s) := by
  unfold execBudCfgWrite
  with_reducible repeat' (first
    | exact hk | assumption | apply keepsRes_next | apply keeps_wr | apply keeps_setLevel | (intro _)
    | simp (disch := (apply State.SameBut.mk <;> first | exact Base.Has.no | exact fun _ => rfl)) only [keeps_mk])

theorem keeps_execNwClear {x0 : Base} [x0.Has .hub] (sv : Nat) (s : State) (hk : x0.Keeps s) :
    KeepsRes x0 (execNwClear sv s) := by
  unfold execNwClear
  with_reducible repeat' (first | exact hk | assumption | apply keepsRes_next | apply keeps_nwClear)

theorem keeps_execKvPoolEnable {x0 : Base} [x0.Has .regs] [x0.Has .hbm] [x0.Has .kv] (sv : Nat) (s : State) (hk : x0.Keeps s) :
    KeepsRes x0 (execKvPoolEnable sv s) := by
  unfold execKvPoolEnable
  with_reducible repeat' (first
    | exact hk | assumption | apply keepsRes_next | apply keepsRes_ite | apply keeps_wr | apply keeps_setPage
    | apply keeps_setFree | apply keeps_foldl_fst | apply keeps_foldl | apply keeps_ite | split | (intro _)
    | simp (disch := (apply State.SameBut.mk <;> first | exact Base.Has.no | exact fun _ => rfl)) only [keeps_mk])

theorem keeps_execKvPoolDisable {x0 : Base} [x0.Has .regs] [x0.Has .kv] (sv : Nat) (s : State) (hk : x0.Keeps s) :
    KeepsRes x0 (execKvPoolDisable sv s) := by
  unfold execKvPoolDisable
  with_reducible repeat' (first
    | exact hk | assumption | apply keepsRes_next | apply keepsRes_ite | apply keeps_wr | apply keeps_setFree
    | apply keeps_ite | split | (intro _)
    | simp (disch := (apply State.SameBut.mk <;> first | exact Base.Has.no | exact fun _ => rfl)) only [keeps_mk])

theorem keeps_execKvPoolStrideWrite {x0 : Base} [x0.Has .regs] (sv value : Nat) (s : State) (hk : x0.Keeps s) :
    KeepsRes x0 (execKvPoolStrideWrite sv value s) := by
  unfold execKvPoolStrideWrite
  with_reducible repeat' (first
    | exact hk | assumption | apply keepsRes_next | apply keepsRes_ite | apply keeps_wr | apply keeps_ite | split)

theorem keeps_execCodedSectorRead {x0 : Base} [x0.Has .regs] [x0.Has .hbm] [x0.Has .faults] [x0.Has .raises] [x0.Has .out] (kind num addr : Nat) (s : State) (hk : x0.Keeps s) :
    KeepsRes x0 (execCodedSectorRead kind num addr s) := by
  unfold execCodedSectorRead
  with_reducible repeat' (first
    | exact hk | assumption | apply keepsRes_next | apply keepsRes_ite | apply keeps_emit | apply keeps_sectorRead
    | apply keeps_ite | split | (intro _)
    | simp (disch := (apply State.SameBut.mk <;> first | exact Base.Has.no | exact fun _ => rfl)) only [keeps_mk])

theorem keeps_execPrismRangeEnable {x0 : Base} [x0.Has .regs] (st k value : Nat) (s : State) (hk : x0.Keeps s) :
    KeepsRes x0 (execPrismRangeEnable st k value s) := by
  unfold execPrismRangeEnable
  with_reducible repeat' (first
    | exact hk | assumption | apply keepsRes_next | apply keepsRes_ite | apply keeps_wr | apply keeps_ite | split
    | (intro _)
    | simp (disch := (apply State.SameBut.mk <;> first | exact Base.Has.no | exact fun _ => rfl)) only [keeps_mk])

theorem keeps_execEpochSwitch {x0 : Base} [x0.Has .regs] (sv : Nat) (s : State) (hk : x0.Keeps s) :
    KeepsRes x0 (execEpochSwitch sv s) := by
  unfold execEpochSwitch
  with_reducible repeat' (first
    | exact hk | assumption | apply keepsRes_next | apply keepsRes_ite | apply keeps_wr | apply keeps_ite | split)

theorem keeps_execEpochSwitchDone {x0 : Base} [x0.Has .regs] [x0.Has .serve] [x0.Has .kv] [x0.Has .hub] [x0.Has .raises] (sv : Nat) (c : Cost) (s : State) (hk : x0.Keeps s) :
    KeepsRes x0 (execEpochSwitchDone sv c s) := by
  unfold execEpochSwitchDone
  with_reducible repeat' (first
    | exact hk | assumption | apply keepsRes_next | apply keepsRes_ite | apply keeps_wr | apply keeps_raise
    | apply keeps_nwClear | apply keeps_setKv | apply keeps_countOld | apply keeps_ite | split | (intro _)
    | simp (disch := (apply State.SameBut.mk <;> first | exact Base.Has.no | exact fun _ => rfl)) only [keeps_mk]
    | (apply State.SameBut.mk <;> first | exact Base.Has.no | exact fun _ => rfl))

theorem keeps_releaseEpoch {x0 : Base} [x0.Has .regs] [x0.Has .hbm] [x0.Has .kv] (sv ep k : Nat) : ∀ (s : State), x0.Keeps s → x0.Keeps (s.releaseEpoch sv ep k) := by
  induction k with
  | zero => intro s hk; exact hk
  | succ k ih =>
    intro s hk
    unfold State.releaseEpoch
    with_reducible repeat' (first | exact hk | assumption | apply ih | apply keeps_releasePfx | apply keeps_setReg | apply keeps_setFacet | apply keeps_foldl_fst | apply keeps_foldl | apply keeps_ite | split | (intro _) | simp (disch := (apply State.SameBut.mk <;> first | exact Base.Has.no | exact fun _ => rfl)) only [keeps_mk] | apply keeps_mk_free | apply keeps_mk_hbm_setPoison | apply keeps_mk_hub_setPoison | apply keeps_mk_hub_write2 | apply keeps_mk_hub_writeByte | apply keeps_mk_hub_write | (apply State.SameBut.mk <;> first | exact Base.Has.no | exact fun _ => rfl))
theorem keeps_serve {x0 : Base} [x0.Has .serve] {s : State} (h : x0.Keeps s) (v : Serve) : x0.Keeps { s with serve := v } :=
  (keeps_mk (by apply State.SameBut.mk <;> first | exact Base.Has.no | exact fun _ => rfl)).2 h

theorem keeps_execEpochRetire {x0 : Base} [x0.Has .regs] [x0.Has .hbm] [x0.Has .serve] [x0.Has .kv] [x0.Has .raises] (sv : Nat) (s : State) (hk : x0.Keeps s) : KeepsRes x0 (execEpochRetire sv s) := by
  delta execEpochRetire
  extract_lets +onlyGivenNames old
  refine keepsRes_ite (keepsRes_next hk) ?_
  extract_lets +onlyGivenNames s1 s2 s3 sv4 s4 s5
  have h1 : x0.Keeps s1 := keeps_releaseEpoch _ _ _ _ hk
  have h2 : x0.Keeps s2 := keeps_wr _ _ _ _ (keeps_wr _ _ _ _ (keeps_wr _ _ _ _ h1))
  have h3 : x0.Keeps s3 := keeps_foldl h2 _ _ (fun t ht p => by
    dsimp only
    exact keeps_ite (keeps_wr _ _ _ _ (keeps_ite (keeps_wr _ _ _ _ ht) ht)) (keeps_ite (keeps_wr _ _ _ _ ht) ht))
  clear_value s3
  have h4 : x0.Keeps s4 := keeps_serve h3 _
  clear_value s4
  exact keepsRes_next (keeps_raise _ _ (keeps_ite (keeps_setKv _ _ h4) h4))
theorem keeps_execLfMapWrite {x0 : Base} [x0.Has .regs] (n value : Nat) (s : State) (hk : x0.Keeps s) :
    KeepsRes x0 (execLfMapWrite n value s) := by
  unfold execLfMapWrite
  with_reducible repeat' (first
    | exact hk | assumption | apply keepsRes_next | apply keepsRes_ite | apply keeps_wr | apply keeps_rerun
    | apply keeps_ite | split | (intro _)
    | simp (disch := (apply State.SameBut.mk <;> first | exact Base.Has.no | exact fun _ => rfl)) only [keeps_mk]
    | apply keeps_mk_free | (apply State.SameBut.mk <;> first | exact Base.Has.no | exact fun _ => rfl))

end Sys2Proof.Machine
end

