-- ==== Sys2Proof/Laws/KeepsPackage.lean ====
section
/-! SUPPORT. What the operations of Refresh Loader Links Thermal Fences Power Security Faults Ports RegWrite keep (State.Keeps). -/

set_option linter.unusedSimpArgs false

namespace Sys2Proof.Machine

theorem keeps_execArrayScanEnd {x0 : Base} [x0.Has .regs] [x0.Has .arrs] (pf arr : Nat) (cells : List (Nat × Nat × Nat)) (s : State) (hk : x0.Keeps s) :
    KeepsRes x0 (execArrayScanEnd pf arr cells s) := by
  unfold execArrayScanEnd
  with_reducible repeat' (first
    | exact hk | assumption | apply keepsRes_next | apply keepsRes_ite | apply keeps_wr | apply keeps_setParr
    | apply keeps_bump | apply keeps_ite | split | (intro _)
    | simp (disch := (apply State.SameBut.mk <;> first | exact Base.Has.no | exact fun _ => rfl)) only [keeps_mk]
    | (apply State.SameBut.mk <;> first | exact Base.Has.no | exact fun _ => rfl))

theorem keeps_wearWrite {x0 : Base} [x0.Has .regs] [x0.Has .raises] (s : State) (pf a : Nat) (hk : x0.Keeps s) :
    x0.Keeps (State.wearWrite s pf a) := by
  unfold State.wearWrite
  with_reducible repeat' (first
    | exact hk | assumption | apply keeps_raise | apply keeps_bump | apply keeps_ite | split | (intro _)
    | simp (disch := (apply State.SameBut.mk <;> first | exact Base.Has.no | exact fun _ => rfl)) only [keeps_mk])

theorem keeps_clearHistory {x0 : Base} [x0.Has .regs] [x0.Has .arrs] (s : State) (pf a : Nat) (hk : x0.Keeps s) :
    x0.Keeps (State.clearHistory s pf a) := by
  unfold State.clearHistory
  with_reducible repeat' (first
    | exact hk | assumption | apply keeps_wr | apply keeps_setParr | (intro _)
    | simp (disch := (apply State.SameBut.mk <;> first | exact Base.Has.no | exact fun _ => rfl)) only [keeps_mk]
    | (apply State.SameBut.mk <;> first | exact Base.Has.no | exact fun _ => rfl))

theorem keeps_storeRow {x0 : Base} [x0.Has .regs] [x0.Has .arrs] (s : State) (pf a r : Nat) (row : Tab Int) (hk : x0.Keeps s) :
    x0.Keeps (State.storeRow s pf a r row) := by
  unfold State.storeRow
  with_reducible repeat' (first
    | exact hk | assumption | apply keeps_setParr | apply keeps_bump | apply keeps_foldl_fst | apply keeps_foldl
    | (intro _)
    | simp (disch := (apply State.SameBut.mk <;> first | exact Base.Has.no | exact fun _ => rfl)) only [keeps_mk]
    | (apply State.SameBut.mk <;> first | exact Base.Has.no | exact fun _ => rfl))

theorem keeps_goldenRow {x0 : Base} [x0.Has .regs] [x0.Has .hbm] [x0.Has .faults] [x0.Has .raises] (s : State) (kind num src r : Nat) (hk : x0.Keeps s) :
    x0.Keeps (State.goldenRow s kind num src r).1 := by
  unfold State.goldenRow
  with_reducible repeat' (first
    | exact hk | assumption | apply keeps_rangeRead | apply keeps_ite | split | (intro _)
    | simp (disch := (apply State.SameBut.mk <;> first | exact Base.Has.no | exact fun _ => rfl)) only [keeps_mk])

theorem keeps_setRefresh {x0 : Base} [x0.Has .regions] (s : State) (g old : Nat) (pf : Nat) (x : Option Refresh) (hk : x0.Keeps s) :
    x0.Keeps (State.setRefresh s g old pf x) := by
  unfold State.setRefresh
  with_reducible repeat' (first
    | exact hk | assumption | apply keeps_setRegion | apply keeps_ite | split | (intro _)
    | simp (disch := (apply State.SameBut.mk <;> first | exact Base.Has.no | exact fun _ => rfl)) only [keeps_mk]
    | (apply State.SameBut.mk <;> first | exact Base.Has.no | exact fun _ => rfl))

theorem keeps_unclaim {x0 : Base} [x0.Has .regs] [x0.Has .hbm] [x0.Has .staged] [x0.Has .faults] [x0.Has .raises] (s : State) (pf m : Nat) (hk : x0.Keeps s) :
    x0.Keeps (State.unclaim s pf m) := by
  unfold State.unclaim
  with_reducible repeat' (first | exact hk | assumption | apply keeps_releaseArray | apply keeps_ite | split)

theorem keeps_execRefreshStart {x0 : Base} [x0.Has .regs] [x0.Has .regions] [x0.Has .raises] (pf arr : Nat) (s : State) (hk : x0.Keeps s) :
    KeepsRes x0 (execRefreshStart pf arr s) := by
  unfold execRefreshStart
  with_reducible repeat' (first
    | exact hk | assumption | apply keepsRes_next | apply keepsRes_ite | apply keeps_setArrState | apply keeps_setRegion
    | apply keeps_wearWrite | apply keeps_ite | split | (intro _)
    | simp (disch := (apply State.SameBut.mk <;> first | exact Base.Has.no | exact fun _ => rfl)) only [keeps_mk]
    | (apply State.SameBut.mk <;> first | exact Base.Has.no | exact fun _ => rfl))

theorem keeps_askRebind {x0 : Base} [x0.Has .regs] [x0.Has .larrs] (s : State) (r : Refresh) (hk : x0.Keeps s) :
    x0.Keeps (State.askRebind s r) := by
  unfold State.askRebind
  with_reducible repeat' (first
    | exact hk | assumption | apply keeps_wr | apply keeps_setLarr | apply keeps_ite | split | (intro _)
    | simp (disch := (apply State.SameBut.mk <;> first | exact Base.Has.no | exact fun _ => rfl)) only [keeps_mk]
    | (apply State.SameBut.mk <;> first | exact Base.Has.no | exact fun _ => rfl))

theorem keeps_refreshFail {x0 : Base} [x0.Has .regs] [x0.Has .hbm] [x0.Has .staged] [x0.Has .regions] [x0.Has .faults]
    [x0.Has .raises]
    (s : State) (r : Refresh) (row : Nat) (hk : x0.Keeps s) :
    x0.Keeps (State.refreshFail s r row) := by
  unfold State.refreshFail
  with_reducible repeat' (first
    | exact hk | assumption | apply keeps_raise | apply keeps_setRefresh | apply keeps_fenceArray | apply keeps_ite | split
    | (intro _)
    | simp (disch := (apply State.SameBut.mk <;> first | exact Base.Has.no | exact fun _ => rfl)) only [keeps_mk])

theorem keeps_refreshCycle {x0 : Base} [x0.Has .regs] [x0.Has .hbm] [x0.Has .arrs] [x0.Has .larrs] [x0.Has .staged]
    [x0.Has .regions] [x0.Has .faults] [x0.Has .raises]
    (s : State) (r : Refresh) (ok : Bool) (hk : x0.Keeps s) :
    x0.Keeps (refreshCycle s r ok) := by
  unfold refreshCycle
  with_reducible repeat' (first
    | exact hk | assumption | apply keeps_setRefresh | apply keeps_storeRow | apply keeps_unclaim | apply keeps_refreshFail
    | apply keeps_goldenRow | apply keeps_askRebind | apply keeps_ite | split | (intro _)
    | simp (disch := (apply State.SameBut.mk <;> first | exact Base.Has.no | exact fun _ => rfl)) only [keeps_mk]
    | (apply State.SameBut.mk <;> first | exact Base.Has.no | exact fun _ => rfl))

theorem keeps_setJob {x0 : Base} [x0.Has .loader] (s : State) (slot : Nat) (f : LdJob → LdJob) (hk : x0.Keeps s) :
    x0.Keeps (State.setJob s slot f) := by
  unfold State.setJob
  with_reducible repeat' (first
    | exact hk | assumption | apply keeps_ite | split
    | simp (disch := (apply State.SameBut.mk <;> first | exact Base.Has.no | exact fun _ => rfl)) only [keeps_mk]
    | (apply State.SameBut.mk <;> first | exact Base.Has.no | exact fun _ => rfl))

theorem keeps_jobRowFail {x0 : Base} [x0.Has .regs] [x0.Has .hbm] [x0.Has .staged] [x0.Has .loader] [x0.Has .faults]
    [x0.Has .raises]
    (s : State) (j : LdJob) (row : Nat) (hk : x0.Keeps s) :
    x0.Keeps (State.jobRowFail s j row) := by
  unfold State.jobRowFail
  with_reducible repeat' (first
    | exact hk | assumption | apply keeps_raise | apply keeps_setJob | apply keeps_fenceArray | apply keeps_ite | split
    | (intro _)
    | simp (disch := (apply State.SameBut.mk <;> first | exact Base.Has.no | exact fun _ => rfl)) only [keeps_mk]
    | (apply State.SameBut.mk <;> first | exact Base.Has.no | exact fun _ => rfl))

theorem keeps_jobCycle {x0 : Base} [x0.Has .regs] [x0.Has .hbm] [x0.Has .arrs] [x0.Has .staged] [x0.Has .loader]
    [x0.Has .faults] [x0.Has .raises]
    (s : State) (i : Nat) (j : LdJob) (ok same : Bool) (hk : x0.Keeps s) :
    x0.Keeps (jobCycle s i j ok same) := by
  unfold jobCycle
  with_reducible repeat' (first
    | exact hk | assumption | apply keeps_rangeRead | apply keeps_jobRowFail | apply keeps_setJob | apply keeps_storeRow
    | apply keeps_goldenRow | apply keeps_ite | split | (intro _)
    | simp (disch := (apply State.SameBut.mk <;> first | exact Base.Has.no | exact fun _ => rfl)) only [keeps_mk]
    | (apply State.SameBut.mk <;> first | exact Base.Has.no | exact fun _ => rfl))

theorem keeps_execRowWriteCycle {x0 : Base} [x0.Has .regs] [x0.Has .hbm] [x0.Has .arrs] [x0.Has .larrs] [x0.Has .staged]
    [x0.Has .regions] [x0.Has .loader] [x0.Has .faults] [x0.Has .raises]
    (pf arr : Nat) (ok same : Bool) (s : State) (hk : x0.Keeps s) :
    KeepsRes x0 (execRowWriteCycle pf arr ok same s) := by
  unfold execRowWriteCycle
  with_reducible repeat' (first
    | exact hk | assumption | apply keepsRes_next | apply keepsRes_ite | apply keeps_jobCycle | apply keeps_refreshCycle
    | apply keeps_ite | split
    | simp (disch := (apply State.SameBut.mk <;> first | exact Base.Has.no | exact fun _ => rfl)) only [keeps_mk]
    | (apply State.SameBut.mk <;> first | exact Base.Has.no | exact fun _ => rfl))

theorem keeps_execWriteWindowResume {x0 : Base} [x0.Has .regions] [x0.Has .loader] (pf arr : Nat) (s : State) (hk : x0.Keeps s) :
    KeepsRes x0 (execWriteWindowResume pf arr s) := by
  unfold execWriteWindowResume
  with_reducible repeat' (first
    | exact hk | assumption | apply keepsRes_next | apply keepsRes_ite | apply keeps_setJob | apply keeps_setRefresh
    | apply keeps_ite | split
    | simp (disch := (apply State.SameBut.mk <;> first | exact Base.Has.no | exact fun _ => rfl)) only [keeps_mk]
    | (apply State.SameBut.mk <;> first | exact Base.Has.no | exact fun _ => rfl))

theorem keeps_execRefreshRebind {x0 : Base} [x0.Has .regs] [x0.Has .hbm] [x0.Has .arrs] [x0.Has .larrs] [x0.Has .staged]
    [x0.Has .regions] [x0.Has .faults] [x0.Has .raises]
    (pf arr : Nat) (s : State) (hk : x0.Keeps s) :
    KeepsRes x0 (execRefreshRebind pf arr s) := by
  unfold execRefreshRebind
  with_reducible repeat' (first
    | exact hk | assumption | apply keepsRes_next | apply keepsRes_ite | apply keeps_setRefresh | apply keeps_unclaim
    | apply keeps_bindArray | apply keeps_wearWrite | apply keeps_clearHistory | apply keeps_askRebind | apply keeps_ite
    | split | (intro _)
    | simp (disch := (apply State.SameBut.mk <;> first | exact Base.Has.no | exact fun _ => rfl)) only [keeps_mk]
    | (apply State.SameBut.mk <;> first | exact Base.Has.no | exact fun _ => rfl))

theorem keeps_execRefreshComplete {x0 : Base} [x0.Has .regs] [x0.Has .hbm] [x0.Has .arrs] [x0.Has .staged] [x0.Has .regions]
    [x0.Has .faults] [x0.Has .raises]
    (pf arr : Nat) (cells : List (Nat × Nat × Nat)) (s : State) (hk : x0.Keeps s) :
    KeepsRes x0 (execRefreshComplete pf arr cells s) := by
  unfold execRefreshComplete
  with_reducible repeat' (first
    | exact hk | assumption | apply keepsRes_next | apply keepsRes_ite | apply keeps_raise | apply keeps_setRefresh
    | apply keeps_setParr | apply keeps_releaseArray | apply keeps_clearHistory | apply keeps_fenceArray | apply keeps_ite
    | split | (intro _)
    | simp (disch := (apply State.SameBut.mk <;> first | exact Base.Has.no | exact fun _ => rfl)) only [keeps_mk]
    | (apply State.SameBut.mk <;> first | exact Base.Has.no | exact fun _ => rfl))

theorem keeps_startJob {x0 : Base} [x0.Has .regs] [x0.Has .loader] (s : State) (j : LdJob) (hk : x0.Keeps s) :
    x0.Keeps (State.startJob s j) := by
  unfold State.startJob
  with_reducible repeat' (first
    | exact hk | assumption | apply keeps_wr | (intro _)
    | simp (disch := (apply State.SameBut.mk <;> first | exact Base.Has.no | exact fun _ => rfl)) only [keeps_mk]
    | (apply State.SameBut.mk <;> first | exact Base.Has.no | exact fun _ => rfl))

theorem keeps_failJob {x0 : Base} [x0.Has .regs] [x0.Has .loader] (s : State) (j : LdJob) (code : Nat) (hk : x0.Keeps s) :
    x0.Keeps (State.failJob s j code) := by
  unfold State.failJob
  with_reducible repeat' (first
    | exact hk | assumption | apply keeps_startJob
    | simp (disch := (apply State.SameBut.mk <;> first | exact Base.Has.no | exact fun _ => rfl)) only [keeps_mk]
    | (apply State.SameBut.mk <;> first | exact Base.Has.no | exact fun _ => rfl))

theorem keeps_execCopy {x0 : Base} [x0.Has .regs] [x0.Has .hbm] [x0.Has .loader] [x0.Has .faults] [x0.Has .raises] (s : State) (hk : x0.Keeps s) :
    KeepsRes x0 (execCopy s) := by
  unfold execCopy
  with_reducible repeat' (first
    | exact hk | assumption | apply keepsRes_next | apply keepsRes_ite | apply keeps_sectorsRead | apply keeps_sectorsWrite
    | apply keeps_failJob | apply keeps_startJob | apply keeps_ite | split | (intro _)
    | simp (disch := (apply State.SameBut.mk <;> first | exact Base.Has.no | exact fun _ => rfl)) only [keeps_mk]
    | (apply State.SameBut.mk <;> first | exact Base.Has.no | exact fun _ => rfl))

theorem keeps_startWrite {x0 : Base} [x0.Has .regs] [x0.Has .arrs] [x0.Has .loader] [x0.Has .raises] (s : State) (i : Nat) (j : LdJob) (a : Nat) (hk : x0.Keeps s) :
    x0.Keeps (State.startWrite s i j a) := by
  unfold State.startWrite
  with_reducible repeat' (first
    | exact hk | assumption | apply keeps_setArrState | apply keeps_dropShadows | apply keeps_wearWrite
    | apply keeps_failJob | apply keeps_startJob | apply keeps_ite | split | (intro _)
    | simp (disch := (apply State.SameBut.mk <;> first | exact Base.Has.no | exact fun _ => rfl)) only [keeps_mk]
    | (apply State.SameBut.mk <;> first | exact Base.Has.no | exact fun _ => rfl))

theorem keeps_execAwriteDirect {x0 : Base} [x0.Has .regs] [x0.Has .arrs] [x0.Has .loader] [x0.Has .raises] (s : State) (hk : x0.Keeps s) :
    KeepsRes x0 (execAwriteDirect s) := by
  unfold execAwriteDirect
  with_reducible repeat' (first
    | exact hk | assumption | apply keepsRes_next | apply keepsRes_ite | apply keeps_startWrite | apply keeps_failJob
    | apply keeps_ite | split | (intro _)
    | simp (disch := (apply State.SameBut.mk <;> first | exact Base.Has.no | exact fun _ => rfl)) only [keeps_mk]
    | (apply State.SameBut.mk <;> first | exact Base.Has.no | exact fun _ => rfl))

theorem keeps_execAwriteRebind {x0 : Base} [x0.Has .regs] [x0.Has .arrs] [x0.Has .loader] [x0.Has .raises] (s : State) (hk : x0.Keeps s) :
    KeepsRes x0 (execAwriteRebind s) := by
  unfold execAwriteRebind
  with_reducible repeat' (first
    | exact hk | assumption | apply keepsRes_next | apply keepsRes_ite | apply keeps_startWrite | apply keeps_failJob
    | apply keeps_ite | split | (intro _)
    | simp (disch := (apply State.SameBut.mk <;> first | exact Base.Has.no | exact fun _ => rfl)) only [keeps_mk]
    | (apply State.SameBut.mk <;> first | exact Base.Has.no | exact fun _ => rfl))

theorem keeps_stage {x0 : Base} [x0.Has .regs] [x0.Has .hbm] [x0.Has .staged] [x0.Has .faults] [x0.Has .raises] (s : State) (j : LdJob) (hk : x0.Keeps s) :
    x0.Keeps (State.stage s j) := by
  unfold State.stage
  with_reducible repeat' (first
    | exact hk | assumption | apply keeps_wr | apply keeps_unclaim | apply keeps_foldl_fst | apply keeps_foldl | (intro _)
    | simp (disch := (apply State.SameBut.mk <;> first | exact Base.Has.no | exact fun _ => rfl)) only [keeps_mk]
    | (apply State.SameBut.mk <;> first | exact Base.Has.no | exact fun _ => rfl))

theorem keeps_installDirect {x0 : Base} [x0.Has .regs] [x0.Has .larrs] (s : State) (j : LdJob) (hk : x0.Keeps s) :
    x0.Keeps (State.installDirect s j) := by
  unfold State.installDirect
  with_reducible repeat' (first
    | exact hk | assumption | apply keeps_setArrState | apply keeps_wr | apply keeps_setLarr | (intro _)
    | simp (disch := (apply State.SameBut.mk <;> first | exact Base.Has.no | exact fun _ => rfl)) only [keeps_mk]
    | apply keeps_mk_hbm_setPoison | (apply State.SameBut.mk <;> first | exact Base.Has.no | exact fun _ => rfl))

theorem keeps_execLoaderJobEnd {x0 : Base} [x0.Has .regs] [x0.Has .hbm] [x0.Has .arrs] [x0.Has .larrs] [x0.Has .staged]
    [x0.Has .loader] [x0.Has .faults] [x0.Has .hub] [x0.Has .raises]
    (idx : Nat) (s : State) (hk : x0.Keeps s) :
    KeepsRes x0 (execLoaderJobEnd idx s) := by
  unfold execLoaderJobEnd
  with_reducible repeat' (first
    | exact hk | assumption | apply keepsRes_next | apply keepsRes_ite | apply keeps_wr | apply keeps_stage
    | apply keeps_raise | apply keeps_installDirect | apply keeps_bump | apply keeps_clearHistory | apply keeps_ite | split
    | (intro _)
    | simp (disch := (apply State.SameBut.mk <;> first | exact Base.Has.no | exact fun _ => rfl)) only [keeps_mk]
    | apply keeps_mk_hub_setPoison | apply keeps_mk_hub_write2 | apply keeps_mk_hub_writeByte | apply keeps_mk_hub_write
    | (apply State.SameBut.mk <;> first | exact Base.Has.no | exact fun _ => rfl))

theorem keeps_putLinkCtl {x0 : Base} [x0.Has .regs] (s : State) (p value : Nat) (hk : x0.Keeps s) :
    x0.Keeps (State.putLinkCtl s p value) := by
  unfold State.putLinkCtl
  with_reducible repeat' (first
    | exact hk | assumption | apply keeps_wr | (intro _)
    | simp (disch := (apply State.SameBut.mk <;> first | exact Base.Has.no | exact fun _ => rfl)) only [keeps_mk])

theorem keeps_putLanes {x0 : Base} [x0.Has .regs] (s : State) (p : Nat) (l : List Nat) (hk : x0.Keeps s) :
    x0.Keeps (State.putLanes s p l) := by
  unfold State.putLanes
  with_reducible repeat' (first
    | exact hk | assumption | apply keeps_wr | apply keeps_foldl_fst | apply keeps_foldl | (intro _)
    | simp (disch := (apply State.SameBut.mk <;> first | exact Base.Has.no | exact fun _ => rfl)) only [keeps_mk])

theorem keeps_execLinkPortEnable {x0 : Base} [x0.Has .regs] [x0.Has .loader] [x0.Has .link] [x0.Has .noc] (p value : Nat) (s : State) (hk : x0.Keeps s) :
    KeepsRes x0 (execLinkPortEnable p value s) := by
  unfold execLinkPortEnable
  with_reducible repeat' (first
    | exact hk | assumption | apply keepsRes_next | apply keepsRes_ite | apply keeps_putLanes | apply keeps_wr
    | apply keeps_dropPort | apply keeps_putLinkCtl | apply keeps_ite | split | (intro _)
    | simp (disch := (apply State.SameBut.mk <;> first | exact Base.Has.no | exact fun _ => rfl)) only [keeps_mk])

theorem keeps_execLinkTrainDone {x0 : Base} [x0.Has .regs] [x0.Has .loader] [x0.Has .link] [x0.Has .noc] [x0.Has .raises] (p : Nat) (good : List Nat) (peer peerPort ident : Nat) (s : State) (hk : x0.Keeps s) :
    KeepsRes x0 (execLinkTrainDone p good peer peerPort ident s) := by
  unfold execLinkTrainDone
  with_reducible repeat' (first
    | exact hk | assumption | apply keepsRes_next | apply keepsRes_ite | apply keeps_putLanes | apply keeps_wr
    | apply keeps_setLport | apply keeps_raise | apply keeps_portDown | apply keeps_ite | split | (intro _)
    | simp (disch := (apply State.SameBut.mk <;> first | exact Base.Has.no | exact fun _ => rfl)) only [keeps_mk]
    | (apply State.SameBut.mk <;> first | exact Base.Has.no | exact fun _ => rfl))

theorem keeps_laneLost {x0 : Base} [x0.Has .regs] [x0.Has .hbm] [x0.Has .loader] [x0.Has .faults] [x0.Has .link]
    [x0.Has .noc] [x0.Has .raises]
    (s : State) (p lane cause : Nat) (hk : x0.Keeps s) :
    x0.Keeps (State.laneLost s p lane cause) := by
  unfold State.laneLost
  with_reducible repeat' (first
    | exact hk | assumption | apply keeps_putLanes | apply keeps_wr | apply keeps_setLport | apply keeps_raise
    | apply keeps_recordFence | apply keeps_portDown | apply keeps_ite | split | (intro _)
    | simp (disch := (apply State.SameBut.mk <;> first | exact Base.Has.no | exact fun _ => rfl)) only [keeps_mk]
    | (apply State.SameBut.mk <;> first | exact Base.Has.no | exact fun _ => rfl))

theorem keeps_execLaneReplace {x0 : Base} [x0.Has .regs] [x0.Has .hbm] [x0.Has .loader] [x0.Has .faults] [x0.Has .link]
    [x0.Has .noc] [x0.Has .raises]
    (p lane : Nat) (s : State) (hk : x0.Keeps s) :
    KeepsRes x0 (execLaneReplace p lane s) := by
  unfold execLaneReplace
  with_reducible repeat' (first
    | exact hk | assumption | apply keepsRes_next | apply keepsRes_ite | apply keeps_laneLost | apply keeps_ite | split)

theorem keeps_control {x0 : Base} [x0.Has .regs] [x0.Has .link] [x0.Has .out] (s : State) (p typ n : Nat) (hk : x0.Keeps s) :
    x0.Keeps (State.control s p typ n) := by
  unfold State.control
  with_reducible repeat' (first | exact hk | assumption | apply keeps_putFlit)

theorem keeps_replay {x0 : Base} [x0.Has .regs] [x0.Has .loader] [x0.Has .link] [x0.Has .noc] [x0.Has .raises]
    [x0.Has .out]
    (s : State) (p seq : Nat) (hk : x0.Keeps s) :
    x0.Keeps (State.replay s p seq) := by
  unfold State.replay
  with_reducible repeat' (first
    | exact hk | assumption | apply keeps_setLport | apply keeps_putFlit | apply keeps_portDown | apply keeps_bump
    | apply keeps_foldl_fst | apply keeps_foldl | apply keeps_ite | split | (intro _)
    | simp (disch := (apply State.SameBut.mk <;> first | exact Base.Has.no | exact fun _ => rfl)) only [keeps_mk]
    | (apply State.SameBut.mk <;> first | exact Base.Has.no | exact fun _ => rfl))

theorem keeps_flitAck {x0 : Base} [x0.Has .regs] [x0.Has .link] [x0.Has .out] (s : State) (p ack : Nat) (credits : List Nat) (hk : x0.Keeps s) :
    x0.Keeps (State.flitAck s p ack credits) := by
  unfold State.flitAck
  with_reducible repeat' (first
    | exact hk | assumption | apply keeps_pump | apply keeps_setLport | apply keeps_ite | split | (intro _)
    | simp (disch := (apply State.SameBut.mk <;> first | exact Base.Has.no | exact fun _ => rfl)) only [keeps_mk]
    | (apply State.SameBut.mk <;> first | exact Base.Has.no | exact fun _ => rfl))

theorem keeps_messageIn {x0 : Base} [x0.Has .regs] [x0.Has .loader] [x0.Has .link] [x0.Has .noc] [x0.Has .out] (s : State) (p : Nat) (m : LMsg) (hk : x0.Keeps s) :
    x0.Keeps (State.messageIn s p m) := by
  unfold State.messageIn
  with_reducible repeat' (first
    | exact hk | assumption | apply keeps_sendMsg | apply keeps_ite | split
    | simp (disch := (apply State.SameBut.mk <;> first | exact Base.Has.no | exact fun _ => rfl)) only [keeps_mk]
    | (apply State.SameBut.mk <;> first | exact Base.Has.no | exact fun _ => rfl))

theorem keeps_flitIn {x0 : Base} [x0.Has .regs] [x0.Has .loader] [x0.Has .link] [x0.Has .noc] [x0.Has .out] (s : State) (p kind vc src dst : Nat) (mcast : Bool) (data : List Byte) (mask : Nat) (hk : x0.Keeps s) :
    x0.Keeps (State.flitIn s p kind vc src dst mcast data mask) := by
  unfold State.flitIn
  with_reducible repeat' (first
    | exact hk | assumption | apply keeps_setLport | apply keeps_messageIn | apply keeps_ite | split | (intro _)
    | simp (disch := (apply State.SameBut.mk <;> first | exact Base.Has.no | exact fun _ => rfl)) only [keeps_mk]
    | (apply State.SameBut.mk <;> first | exact Base.Has.no | exact fun _ => rfl))

theorem keeps_nakFlit {x0 : Base} [x0.Has .regs] [x0.Has .link] [x0.Has .out] (s : State) (p : Nat) (hk : x0.Keeps s) :
    x0.Keeps (State.nakFlit s p) := by
  unfold State.nakFlit
  with_reducible repeat' (first
    | exact hk | assumption | apply keeps_control | apply keeps_setLport | apply keeps_ite | split | (intro _)
    | simp (disch := (apply State.SameBut.mk <;> first | exact Base.Has.no | exact fun _ => rfl)) only [keeps_mk]
    | (apply State.SameBut.mk <;> first | exact Base.Has.no | exact fun _ => rfl))

theorem keeps_execFlitReceive {x0 : Base} [x0.Has .regs] [x0.Has .loader] [x0.Has .link] [x0.Has .noc] [x0.Has .raises]
    [x0.Has .out]
    (p : Nat) (b : List Byte) (fec : Nat) (s : State) (hk : x0.Keeps s) :
    KeepsRes x0 (execFlitReceive p b fec s) := by
  unfold execFlitReceive
  with_reducible repeat' (first
    | exact hk | assumption | apply keepsRes_next | apply keepsRes_ite | apply keeps_flitAck | apply keeps_setLport
    | apply keeps_flitIn | apply keeps_replay | apply keeps_loupeFlit | apply keeps_injDone | apply keeps_putFlit
    | apply keeps_bump | apply keeps_nakFlit | apply keeps_ite | split | (intro _)
    | simp (disch := (apply State.SameBut.mk <;> first | exact Base.Has.no | exact fun _ => rfl)) only [keeps_mk]
    | (apply State.SameBut.mk <;> first | exact Base.Has.no | exact fun _ => rfl))

theorem keeps_execLinkReplayTimer {x0 : Base} [x0.Has .regs] [x0.Has .loader] [x0.Has .link] [x0.Has .noc] [x0.Has .raises]
    [x0.Has .out]
    (p : Nat) (s : State) (hk : x0.Keeps s) :
    KeepsRes x0 (execLinkReplayTimer p s) := by
  unfold execLinkReplayTimer
  with_reducible repeat' (first
    | exact hk | assumption | apply keepsRes_next | apply keepsRes_ite | apply keeps_replay | apply keeps_ite | split
    | (intro _)
    | simp (disch := (apply State.SameBut.mk <;> first | exact Base.Has.no | exact fun _ => rfl)) only [keeps_mk]
    | (apply State.SameBut.mk <;> first | exact Base.Has.no | exact fun _ => rfl))

theorem keeps_execMsgIncompleteTimeout {x0 : Base} [x0.Has .link] (p vc : Nat) (s : State) (hk : x0.Keeps s) :
    KeepsRes x0 (execMsgIncompleteTimeout p vc s) := by
  unfold execMsgIncompleteTimeout
  with_reducible repeat' (first
    | exact hk | assumption | apply keepsRes_next | apply keepsRes_ite | apply keeps_setLport | apply keeps_ite | split
    | (intro _)
    | simp (disch := (apply State.SameBut.mk <;> first | exact Base.Has.no | exact fun _ => rfl)) only [keeps_mk]
    | (apply State.SameBut.mk <;> first | exact Base.Has.no | exact fun _ => rfl))

theorem keeps_takeMsg {x0 : Base} [x0.Has .link] (s : State) (kind : Nat) (hk : x0.Keeps s) (p : State × Nat × LMsg)
    (e : s.takeMsg kind = some p) : x0.Keeps p.1 := by
  unfold State.takeMsg at e
  obtain ⟨q, -, rfl⟩ := Option.map_eq_some_iff.1 e
  exact (keeps_mk (by apply State.SameBut.mk <;> first | exact Base.Has.no | exact fun _ => rfl)).2 hk
theorem keeps_writeMsg {x0 : Base} [x0.Has .regs] [x0.Has .hbm] (s : State) (m : LMsg) (hk : x0.Keeps s) :
    x0.Keeps (State.writeMsg s m) := by
  unfold State.writeMsg
  with_reducible repeat' (first
    | exact hk | assumption | apply keeps_hbmWrite | apply keeps_sectorsWrite | apply keeps_ite | split | (intro _)
    | simp (disch := (apply State.SameBut.mk <;> first | exact Base.Has.no | exact fun _ => rfl)) only [keeps_mk])

theorem keeps_execMsgWrite {x0 : Base} [x0.Has .regs] [x0.Has .hbm] [x0.Has .loader] [x0.Has .link] [x0.Has .noc] [x0.Has .out] (s : State) (hk : x0.Keeps s) : KeepsRes x0 (execMsgWrite s) := by
  unfold execMsgWrite
  split
  · exact keepsRes_next hk
  · rename_i t _ m e
    have ht : x0.Keeps t := keeps_takeMsg s _ hk _ e
    clear e hk
    have hk := ht
    with_reducible repeat' (first | exact hk | assumption | apply keepsRes_next | apply keepsRes_ite | apply keeps_writeMsg | apply keeps_sendMsg | apply keeps_takeMsg | apply keeps_sendMulti | apply keeps_ite | split | (intro _) | simp (disch := (apply State.SameBut.mk <;> first | exact Base.Has.no | exact fun _ => rfl)) only [keeps_mk] | (apply State.SameBut.mk <;> first | exact Base.Has.no | exact fun _ => rfl))
theorem keeps_execMsgSend {x0 : Base} [x0.Has .facets] [x0.Has .link] (s : State) (hk : x0.Keeps s) : KeepsRes x0 (execMsgSend s) := by
  unfold execMsgSend
  split
  · exact keepsRes_next hk
  · rename_i t _ m e
    have ht : x0.Keeps t := keeps_takeMsg s _ hk _ e
    clear e hk
    have hk := ht
    with_reducible repeat' (first | exact hk | assumption | apply keepsRes_next | apply keepsRes_ite | apply keeps_asyncCore | apply keeps_takeMsg | apply keeps_ite | split | (intro _) | simp (disch := (apply State.SameBut.mk <;> first | exact Base.Has.no | exact fun _ => rfl)) only [keeps_mk] | (apply State.SameBut.mk <;> first | exact Base.Has.no | exact fun _ => rfl))
theorem keeps_execMsgResp {x0 : Base} [x0.Has .loader] [x0.Has .link] (s : State) (hk : x0.Keeps s) : KeepsRes x0 (execMsgResp s) := by
  unfold execMsgResp
  split
  · exact keepsRes_next hk
  · rename_i t _ m e
    have ht : x0.Keeps t := keeps_takeMsg s _ hk _ e
    clear e hk
    have hk := ht
    with_reducible repeat' (first | exact hk | assumption | apply keepsRes_next | apply keepsRes_ite | apply keeps_takeMsg | apply keeps_ite | split | simp (disch := (apply State.SameBut.mk <;> first | exact Base.Has.no | exact fun _ => rfl)) only [keeps_mk] | (apply State.SameBut.mk <;> first | exact Base.Has.no | exact fun _ => rfl))
theorem keeps_execMcast {x0 : Base} [x0.Has .regs] [x0.Has .hbm] [x0.Has .loader] [x0.Has .faults] [x0.Has .link]
    [x0.Has .noc] [x0.Has .raises] [x0.Has .out]
    (s : State) (hk : x0.Keeps s) :
    KeepsRes x0 (execMcast s) := by
  unfold execMcast
  with_reducible repeat' (first
    | exact hk | assumption | apply keepsRes_next | apply keepsRes_ite | apply keeps_sectorsRead | apply keeps_sectorsWrite
    | apply keeps_sendMulti | apply keeps_failJob | apply keeps_startJob | apply keeps_foldl_fst | apply keeps_foldl
    | apply keeps_ite | split | (intro _)
    | simp (disch := (apply State.SameBut.mk <;> first | exact Base.Has.no | exact fun _ => rfl)) only [keeps_mk]
    | (apply State.SameBut.mk <;> first | exact Base.Has.no | exact fun _ => rfl))

theorem keeps_execTimeSendTick {x0 : Base} [x0.Has .regs] [x0.Has .link] [x0.Has .out] (p : Nat) (s : State) (hk : x0.Keeps s) :
    KeepsRes x0 (execTimeSendTick p s) := by
  unfold execTimeSendTick
  with_reducible repeat' (first
    | exact hk | assumption | apply keepsRes_next | apply keepsRes_ite | apply keeps_queueMsg | apply keeps_ite | split
    | (intro _)
    | simp (disch := (apply State.SameBut.mk <;> first | exact Base.Has.no | exact fun _ => rfl)) only [keeps_mk])

theorem keeps_execMsgTime {x0 : Base} [x0.Has .regs] [x0.Has .link] [x0.Has .raises] (s : State) (hk : x0.Keeps s) : KeepsRes x0 (execMsgTime s) := by
  unfold execMsgTime
  split
  · exact keepsRes_next hk
  · rename_i t _ m e
    have ht : x0.Keeps t := keeps_takeMsg s _ hk _ e
    clear e hk
    have hk := ht
    with_reducible repeat' (first | exact hk | assumption | apply keepsRes_next | apply keepsRes_ite | apply keeps_wr | apply keeps_raise | apply keeps_takeMsg | apply keeps_ite | split | (intro _) | simp (disch := (apply State.SameBut.mk <;> first | exact Base.Has.no | exact fun _ => rfl)) only [keeps_mk] | (apply State.SameBut.mk <;> first | exact Base.Has.no | exact fun _ => rfl))
theorem keeps_execDelayMeasure {x0 : Base} [x0.Has .regs] [x0.Has .free] (p rtt : Nat) (s : State) (hk : x0.Keeps s) :
    KeepsRes x0 (execDelayMeasure p rtt s) := by
  unfold execDelayMeasure
  with_reducible repeat' (first
    | exact hk | assumption | apply keepsRes_next | apply keepsRes_ite | apply keeps_wr | apply keeps_ite | split
    | (intro _)
    | simp (disch := (apply State.SameBut.mk <;> first | exact Base.Has.no | exact fun _ => rfl)) only [keeps_mk]
    | apply keeps_mk_free | (apply State.SameBut.mk <;> first | exact Base.Has.no | exact fun _ => rfl))

theorem keeps_barComplete {x0 : Base} [x0.Has .regs] [x0.Has .loader] [x0.Has .link] [x0.Has .noc] [x0.Has .out] (s : State) (hk : x0.Keeps s) :
    x0.Keeps (State.barComplete s) := by
  unfold State.barComplete
  with_reducible repeat' (first
    | exact hk | assumption | apply keeps_wr | apply keeps_sendMsg | apply keeps_foldl_fst | apply keeps_foldl
    | apply keeps_ite | split | (intro _)
    | simp (disch := (apply State.SameBut.mk <;> first | exact Base.Has.no | exact fun _ => rfl)) only [keeps_mk]
    | (apply State.SameBut.mk <;> first | exact Base.Has.no | exact fun _ => rfl))

theorem keeps_arrive {x0 : Base} [x0.Has .regs] [x0.Has .loader] [x0.Has .link] [x0.Has .noc] [x0.Has .out] (s : State) (n : Nat) (hk : x0.Keeps s) :
    x0.Keeps (State.arrive s n) := by
  unfold State.arrive
  with_reducible repeat' (first
    | exact hk | assumption | apply keeps_wr | apply keeps_barComplete | (intro _)
    | simp (disch := (apply State.SameBut.mk <;> first | exact Base.Has.no | exact fun _ => rfl)) only [keeps_mk]
    | (apply State.SameBut.mk <;> first | exact Base.Has.no | exact fun _ => rfl))

theorem keeps_execBarArm {x0 : Base} [x0.Has .regs] [x0.Has .loader] [x0.Has .link] [x0.Has .noc] [x0.Has .out] (value : Nat) (s : State) (hk : x0.Keeps s) :
    KeepsRes x0 (execBarArm value s) := by
  unfold execBarArm
  with_reducible repeat' (first
    | exact hk | assumption | apply keepsRes_next | apply keepsRes_ite | apply keeps_wr | apply keeps_sendMsg
    | apply keeps_arrive | apply keeps_ite | split | (intro _)
    | simp (disch := (apply State.SameBut.mk <;> first | exact Base.Has.no | exact fun _ => rfl)) only [keeps_mk]
    | (apply State.SameBut.mk <;> first | exact Base.Has.no | exact fun _ => rfl))

theorem keeps_execMsgBarArrive {x0 : Base} [x0.Has .regs] [x0.Has .loader] [x0.Has .link] [x0.Has .noc] [x0.Has .out] (s : State) (hk : x0.Keeps s) : KeepsRes x0 (execMsgBarArrive s) := by
  unfold execMsgBarArrive
  split
  · exact keepsRes_next hk
  · rename_i t _ m e
    have ht : x0.Keeps t := keeps_takeMsg s _ hk _ e
    clear e hk
    have hk := ht
    with_reducible repeat' (first | exact hk | assumption | apply keepsRes_next | apply keepsRes_ite | apply keeps_arrive | apply keeps_takeMsg | apply keeps_ite | split | simp (disch := (apply State.SameBut.mk <;> first | exact Base.Has.no | exact fun _ => rfl)) only [keeps_mk] | (apply State.SameBut.mk <;> first | exact Base.Has.no | exact fun _ => rfl))
theorem keeps_barRelease {x0 : Base} [x0.Has .regs] [x0.Has .link] [x0.Has .raises] (s : State) (hk : x0.Keeps s) :
    x0.Keeps (State.barRelease s) := by
  unfold State.barRelease
  with_reducible repeat' (first
    | exact hk | assumption | apply keeps_wr | apply keeps_setReg | apply keeps_raise | apply keeps_jump
    | apply keeps_setReg | apply keeps_ite | split | (intro _)
    | simp (disch := (apply State.SameBut.mk <;> first | exact Base.Has.no | exact fun _ => rfl)) only [keeps_mk]
    | (apply State.SameBut.mk <;> first | exact Base.Has.no | exact fun _ => rfl))

theorem keeps_execMsgBarRelease {x0 : Base} [x0.Has .regs] [x0.Has .link] [x0.Has .raises] (s : State) (hk : x0.Keeps s) : KeepsRes x0 (execMsgBarRelease s) := by
  unfold execMsgBarRelease
  split
  · exact keepsRes_next hk
  · rename_i t _ m e
    have ht : x0.Keeps t := keeps_takeMsg s _ hk _ e
    clear e hk
    have hk := ht
    with_reducible repeat' (first | exact hk | assumption | apply keepsRes_next | apply keepsRes_ite | apply keeps_wr | apply keeps_barRelease | apply keeps_takeMsg | apply keeps_ite | split | (intro _) | simp (disch := (apply State.SameBut.mk <;> first | exact Base.Has.no | exact fun _ => rfl)) only [keeps_mk] | (apply State.SameBut.mk <;> first | exact Base.Has.no | exact fun _ => rfl))
theorem keeps_execBarLocalRelease {x0 : Base} [x0.Has .regs] [x0.Has .link] [x0.Has .raises] (s : State) (hk : x0.Keeps s) :
    KeepsRes x0 (execBarLocalRelease s) := by
  unfold execBarLocalRelease
  with_reducible repeat' (first
    | exact hk | assumption | apply keepsRes_next | apply keepsRes_ite | apply keeps_barRelease | apply keeps_ite | split
    | simp (disch := (apply State.SameBut.mk <;> first | exact Base.Has.no | exact fun _ => rfl)) only [keeps_mk]
    | (apply State.SameBut.mk <;> first | exact Base.Has.no | exact fun _ => rfl))

theorem keeps_barFail {x0 : Base} [x0.Has .regs] [x0.Has .link] [x0.Has .raises] (s : State) (hk : x0.Keeps s) :
    x0.Keeps (State.barFail s) := by
  unfold State.barFail
  with_reducible repeat' (first
    | exact hk | assumption | apply keeps_wr | apply keeps_raise | (intro _)
    | simp (disch := (apply State.SameBut.mk <;> first | exact Base.Has.no | exact fun _ => rfl)) only [keeps_mk]
    | (apply State.SameBut.mk <;> first | exact Base.Has.no | exact fun _ => rfl))

theorem keeps_execMsgBarFail {x0 : Base} [x0.Has .regs] [x0.Has .link] [x0.Has .raises] (s : State) (hk : x0.Keeps s) : KeepsRes x0 (execMsgBarFail s) := by
  unfold execMsgBarFail
  split
  · exact keepsRes_next hk
  · rename_i t _ m e
    have ht : x0.Keeps t := keeps_takeMsg s _ hk _ e
    clear e hk
    have hk := ht
    with_reducible repeat' (first | exact hk | assumption | apply keepsRes_next | apply keepsRes_ite | apply keeps_takeMsg | apply keeps_barFail | apply keeps_ite | split | simp (disch := (apply State.SameBut.mk <;> first | exact Base.Has.no | exact fun _ => rfl)) only [keeps_mk] | (apply State.SameBut.mk <;> first | exact Base.Has.no | exact fun _ => rfl))
theorem keeps_execBarTimer {x0 : Base} [x0.Has .regs] [x0.Has .loader] [x0.Has .link] [x0.Has .noc] [x0.Has .raises]
    [x0.Has .out]
    (s : State) (hk : x0.Keeps s) :
    KeepsRes x0 (execBarTimer s) := by
  unfold execBarTimer
  with_reducible repeat' (first
    | exact hk | assumption | apply keepsRes_next | apply keepsRes_ite | apply keeps_sendMsg | apply keeps_barFail
    | apply keeps_foldl_fst | apply keeps_foldl | apply keeps_ite | split | (intro _)
    | simp (disch := (apply State.SameBut.mk <;> first | exact Base.Has.no | exact fun _ => rfl)) only [keeps_mk]
    | (apply State.SameBut.mk <;> first | exact Base.Has.no | exact fun _ => rfl))

theorem keeps_execLinkCfgWrite {x0 : Base} [x0.Has .regs] (value : Nat) (s : State) (hk : x0.Keeps s) :
    KeepsRes x0 (execLinkCfgWrite value s) := by
  unfold execLinkCfgWrite
  with_reducible repeat' (first
    | exact hk | assumption | apply keepsRes_next | apply keepsRes_ite | apply keeps_wr | apply keeps_ite | split
    | (intro _)
    | simp (disch := (apply State.SameBut.mk <;> first | exact Base.Has.no | exact fun _ => rfl)) only [keeps_mk])

theorem keeps_replaceSensor {x0 : Base} [x0.Has .regs] [x0.Has .hbm] [x0.Has .faults] [x0.Has .raises] (s : State) (g i cause : Nat) (codes : List Int) (fence : Bool) (hk : x0.Keeps s) :
    x0.Keeps (State.replaceSensor s g i cause codes fence) := by
  unfold State.replaceSensor
  with_reducible repeat' (first
    | exact hk | assumption | apply keeps_wr | apply keeps_raise | apply keeps_recordFence | apply keeps_ite | split
    | (intro _)
    | simp (disch := (apply State.SameBut.mk <;> first | exact Base.Has.no | exact fun _ => rfl)) only [keeps_mk])

theorem keeps_tripRegion {x0 : Base} [x0.Has .regs] [x0.Has .facets] [x0.Has .arrs] [x0.Has .regions] [x0.Has .loader]
    [x0.Has .noc] [x0.Has .serve] [x0.Has .raises]
    (s : State) (g sensor : Nat) (t : Int) (hk : x0.Keeps s) :
    x0.Keeps (State.tripRegion s g sensor t) := by
  unfold State.tripRegion
  with_reducible repeat' (first
    | exact hk | assumption | apply keeps_failSteps | apply keeps_raise | apply keeps_dropShadows | apply keeps_bump
    | apply keeps_wr | apply keeps_setRegion | apply keeps_voidRun | apply keeps_setFacet | apply keeps_setFacet
    | apply keeps_foldl_fst | apply keeps_foldl | apply keeps_ite | split | (intro _)
    | simp (disch := (apply State.SameBut.mk <;> first | exact Base.Has.no | exact fun _ => rfl)) only [keeps_mk]
    | (apply State.SameBut.mk <;> first | exact Base.Has.no | exact fun _ => rfl))

theorem keeps_restartRegion {x0 : Base} [x0.Has .regs] [x0.Has .facets] [x0.Has .arrs] [x0.Has .regions] [x0.Has .noc]
    [x0.Has .raises]
    (s : State) (g : Nat) (hk : x0.Keeps s) :
    x0.Keeps (State.restartRegion s g) := by
  unfold State.restartRegion
  with_reducible repeat' (first
    | exact hk | assumption | apply keeps_wr | apply keeps_setRegion | apply keeps_raise | apply keeps_startAtEntry
    | apply keeps_resetFacet | apply keeps_setFacet | apply keeps_setFacet | apply keeps_foldl_fst | apply keeps_foldl
    | apply keeps_ite | split | (intro _)
    | simp (disch := (apply State.SameBut.mk <;> first | exact Base.Has.no | exact fun _ => rfl)) only [keeps_mk]
    | (apply State.SameBut.mk <;> first | exact Base.Has.no | exact fun _ => rfl))

theorem keeps_thermState {x0 : Base} [x0.Has .regs] [x0.Has .facets] [x0.Has .arrs] [x0.Has .regions] [x0.Has .loader]
    [x0.Has .noc] [x0.Has .serve] [x0.Has .raises]
    (s : State) (g sensor : Nat) (t : Int) (hk : x0.Keeps s) :
    x0.Keeps (State.thermState s g sensor t) := by
  unfold State.thermState
  with_reducible repeat' (first
    | exact hk | assumption | apply keeps_wr | apply keeps_tripRegion | apply keeps_raise | apply keeps_restartRegion
    | apply keeps_askClock | apply keeps_ite | split | (intro _)
    | simp (disch := (apply State.SameBut.mk <;> first | exact Base.Has.no | exact fun _ => rfl)) only [keeps_mk])

theorem keeps_execSensorRound {x0 : Base} [x0.Has .regs] [x0.Has .hbm] [x0.Has .facets] [x0.Has .arrs] [x0.Has .regions]
    [x0.Has .loader] [x0.Has .faults] [x0.Has .noc] [x0.Has .serve] [x0.Has .raises]
    (g : Nat) (codes : List Int) (s : State) (hk : x0.Keeps s) :
    KeepsRes x0 (execSensorRound g codes s) := by
  unfold execSensorRound
  with_reducible repeat' (first
    | exact hk | assumption | apply keepsRes_next | apply keepsRes_ite | apply keeps_thermState | apply keeps_wr
    | apply keeps_setRegion | apply keeps_replaceSensor | apply keeps_injDone | apply keeps_foldl_fst | apply keeps_foldl
    | apply keeps_ite | split | (intro _)
    | simp (disch := (apply State.SameBut.mk <;> first | exact Base.Has.no | exact fun _ => rfl)) only [keeps_mk]
    | (apply State.SameBut.mk <;> first | exact Base.Has.no | exact fun _ => rfl))

theorem keeps_execThrottleTick {x0 : Base} [x0.Has .regs] [x0.Has .regions] [x0.Has .raises] (g : Nat) (s : State) (hk : x0.Keeps s) :
    KeepsRes x0 (execThrottleTick g s) := by
  unfold execThrottleTick
  with_reducible repeat' (first
    | exact hk | assumption | apply keepsRes_next | apply keepsRes_ite | apply keeps_wr | apply keeps_throttleEvent
    | apply keeps_askClock | apply keeps_ite | split | (intro _)
    | simp (disch := (apply State.SameBut.mk <;> first | exact Base.Has.no | exact fun _ => rfl)) only [keeps_mk])

theorem keeps_execVfacSetpointRaise {x0 : Base} [x0.Has .power] [x0.Has .out] (d : Nat) (s : State) (hk : x0.Keeps s) :
    KeepsRes x0 (execVfacSetpointRaise d s) := by
  unfold execVfacSetpointRaise
  with_reducible repeat' (first
    | exact hk | assumption | apply keepsRes_next | apply keepsRes_ite | apply keeps_emit | apply keeps_ite | split
    | (intro _)
    | simp (disch := (apply State.SameBut.mk <;> first | exact Base.Has.no | exact fun _ => rfl)) only [keeps_mk]
    | (apply State.SameBut.mk <;> first | exact Base.Has.no | exact fun _ => rfl))

theorem keeps_busErr {x0 : Base} [x0.Has .regs] [x0.Has .raises] (s : State) (n bus : Nat) (hk : x0.Keeps s) :
    x0.Keeps (State.busErr s n bus) := by
  unfold State.busErr
  with_reducible repeat' (first
    | exact hk | assumption | apply keeps_bump | apply keeps_wr | apply keeps_raise | (intro _)
    | simp (disch := (apply State.SameBut.mk <;> first | exact Base.Has.no | exact fun _ => rfl)) only [keeps_mk])

theorem keeps_execVfacSettled {x0 : Base} [x0.Has .regs] [x0.Has .regions] [x0.Has .power] [x0.Has .raises] (d : Nat) (ok : Bool) (s : State) (hk : x0.Keeps s) :
    KeepsRes x0 (execVfacSettled d ok s) := by
  unfold execVfacSettled
  with_reducible repeat' (first
    | exact hk | assumption | apply keepsRes_next | apply keepsRes_ite | apply keeps_wr | apply keeps_setRegion
    | apply keeps_busErr | apply keeps_foldl_fst | apply keeps_foldl | apply keeps_ite | split | (intro _)
    | simp (disch := (apply State.SameBut.mk <;> first | exact Base.Has.no | exact fun _ => rfl)) only [keeps_mk]
    | (apply State.SameBut.mk <;> first | exact Base.Has.no | exact fun _ => rfl))

theorem keeps_execBoostDecision {x0 : Base} [x0.Has .regs] [x0.Has .regions] [x0.Has .raises] (g : Nat) (s : State) (hk : x0.Keeps s) :
    KeepsRes x0 (execBoostDecision g s) := by
  unfold execBoostDecision
  with_reducible repeat' (first
    | exact hk | assumption | apply keepsRes_next | apply keepsRes_ite | apply keeps_raise | apply keeps_askClock
    | apply keeps_bump | apply keeps_ite | split | (intro _)
    | simp (disch := (apply State.SameBut.mk <;> first | exact Base.Has.no | exact fun _ => rfl)) only [keeps_mk])

theorem keeps_execRailPoll {x0 : Base} [x0.Has .regs] [x0.Has .power] [x0.Has .raises] (n : Nat) (rd : Option (Nat × Nat × Bool)) (s : State) (hk : x0.Keeps s) :
    KeepsRes x0 (execRailPoll n rd s) := by
  unfold execRailPoll
  with_reducible repeat' (first
    | exact hk | assumption | apply keepsRes_next | apply keepsRes_ite | apply keeps_wr | apply keeps_raise
    | apply keeps_busErr | apply keeps_bump | apply keeps_ite | split | (intro _)
    | simp (disch := (apply State.SameBut.mk <;> first | exact Base.Has.no | exact fun _ => rfl)) only [keeps_mk]
    | (apply State.SameBut.mk <;> first | exact Base.Has.no | exact fun _ => rfl))

theorem keeps_execPowerForecast {x0 : Base} [x0.Has .regs] (s : State) (hk : x0.Keeps s) :
    KeepsRes x0 (execPowerForecast s) := by
  unfold execPowerForecast
  with_reducible repeat' (first
    | exact hk | assumption | apply keepsRes_next | apply keepsRes_ite | apply keeps_wr | apply keeps_ite | split
    | (intro _)
    | simp (disch := (apply State.SameBut.mk <;> first | exact Base.Has.no | exact fun _ => rfl)) only [keeps_mk])

theorem keeps_hbmTemp {x0 : Base} [x0.Has .plant] [x0.Has .raises] (s : State) (k : Nat) (t : Int) (hk : x0.Keeps s) :
    x0.Keeps (State.hbmTemp s k t) := by
  unfold State.hbmTemp
  with_reducible repeat' (first
    | exact hk | assumption | apply keeps_raise | apply keeps_ite | split | (intro _)
    | simp (disch := (apply State.SameBut.mk <;> first | exact Base.Has.no | exact fun _ => rfl)) only [keeps_mk]
    | (apply State.SameBut.mk <;> first | exact Base.Has.no | exact fun _ => rfl))

theorem keeps_dutyOf {x0 : Base} [x0.Has .free] (s : State) (u : Rat) (hk : x0.Keeps s) :
    x0.Keeps (State.dutyOf s u).1 := by
  unfold State.dutyOf
  with_reducible repeat' (first
    | exact hk | assumption | apply keeps_ite | split | (intro _)
    | simp (disch := (apply State.SameBut.mk <;> first | exact Base.Has.no | exact fun _ => rfl)) only [keeps_mk]
    | apply keeps_mk_free | (apply State.SameBut.mk <;> first | exact Base.Has.no | exact fun _ => rfl))

theorem keeps_drive {x0 : Base} [x0.Has .regs] [x0.Has .power] [x0.Has .out] (s : State) (valve pump : Nat) (hk : x0.Keeps s) :
    x0.Keeps (State.drive s valve pump) := by
  unfold State.drive
  with_reducible repeat' (first
    | exact hk | assumption | apply keeps_wr | apply keeps_pump | apply keeps_emit | apply keeps_ite | split | (intro _)
    | simp (disch := (apply State.SameBut.mk <;> first | exact Base.Has.no | exact fun _ => rfl)) only [keeps_mk]
    | (apply State.SameBut.mk <;> first | exact Base.Has.no | exact fun _ => rfl))

theorem keeps_driveDuties {x0 : Base} [x0.Has .regs] [x0.Has .power] [x0.Has .out] (s : State) (valve pump : Nat) (hk : x0.Keeps s) :
    x0.Keeps (State.driveDuties s valve pump) := by
  unfold State.driveDuties
  with_reducible repeat' (first
    | exact hk | assumption | apply keeps_pump | apply keeps_drive | apply keeps_ite | split | (intro _)
    | simp (disch := (apply State.SameBut.mk <;> first | exact Base.Has.no | exact fun _ => rfl)) only [keeps_mk])

theorem keeps_manualDuty {x0 : Base} [x0.Has .regs] [x0.Has .power] [x0.Has .out] (s : State) (hk : x0.Keeps s) :
    x0.Keeps (State.manualDuty s) := by
  unfold State.manualDuty
  with_reducible repeat' (first | exact hk | assumption | apply keeps_driveDuties)

theorem keeps_plantFault {x0 : Base} [x0.Has .raises] (s : State) (cause : Nat) (hk : x0.Keeps s) :
    x0.Keeps (State.plantFault s cause) := by
  unfold State.plantFault
  with_reducible repeat' (first
    | exact hk | assumption | apply keeps_raise | (intro _)
    | simp (disch := (apply State.SameBut.mk <;> first | exact Base.Has.no | exact fun _ => rfl)) only [keeps_mk])

theorem keeps_modelDev {x0 : Base} [x0.Has .regs] [x0.Has .plant] [x0.Has .raises] (s : State) (pred : Int) (hk : x0.Keeps s) :
    x0.Keeps (State.modelDev s pred) := by
  unfold State.modelDev
  with_reducible repeat' (first
    | exact hk | assumption | apply keeps_wr | apply keeps_plantFault | apply keeps_foldl_fst | apply keeps_foldl
    | apply keeps_ite | split | (intro _)
    | simp (disch := (apply State.SameBut.mk <;> first | exact Base.Has.no | exact fun _ => rfl)) only [keeps_mk]
    | (apply State.SameBut.mk <;> first | exact Base.Has.no | exact fun _ => rfl))

theorem keeps_execPlantStep {x0 : Base} [x0.Has .regs] [x0.Has .plant] [x0.Has .power] [x0.Has .raises] [x0.Has .free]
    [x0.Has .out]
    (pred : Int) (s : State) (hk : x0.Keeps s) :
    KeepsRes x0 (execPlantStep pred s) := by
  unfold execPlantStep
  with_reducible repeat' (first
    | exact hk | assumption | apply keepsRes_next | apply keepsRes_ite | apply keeps_dutyOf | apply keeps_modelDev
    | apply keeps_driveDuties | apply keeps_ite | split | (intro _)
    | simp (disch := (apply State.SameBut.mk <;> first | exact Base.Has.no | exact fun _ => rfl)) only [keeps_mk]
    | (apply State.SameBut.mk <;> first | exact Base.Has.no | exact fun _ => rfl))

theorem keeps_execPlantEnWrite {x0 : Base} [x0.Has .regs] [x0.Has .plant] [x0.Has .power] [x0.Has .out] (value : Nat) (s : State) (hk : x0.Keeps s) :
    KeepsRes x0 (execPlantEnWrite value s) := by
  unfold execPlantEnWrite
  with_reducible repeat' (first
    | exact hk | assumption | apply keepsRes_next | apply keepsRes_ite | apply keeps_manualDuty | apply keeps_wr
    | apply keeps_ite | split | (intro _)
    | simp (disch := (apply State.SameBut.mk <;> first | exact Base.Has.no | exact fun _ => rfl)) only [keeps_mk]
    | (apply State.SameBut.mk <;> first | exact Base.Has.no | exact fun _ => rfl))

theorem keeps_execPlantSensorRead {x0 : Base} [x0.Has .regs] [x0.Has .plant] [x0.Has .power] [x0.Has .out] (tin tout : Option Int) (s : State) (hk : x0.Keeps s) :
    KeepsRes x0 (execPlantSensorRead tin tout s) := by
  unfold execPlantSensorRead
  with_reducible repeat' (first
    | exact hk | assumption | apply keepsRes_next | apply keepsRes_ite | apply keeps_manualDuty | apply keeps_wr
    | apply keeps_ite | split | (intro _)
    | simp (disch := (apply State.SameBut.mk <;> first | exact Base.Has.no | exact fun _ => rfl)) only [keeps_mk]
    | (apply State.SameBut.mk <;> first | exact Base.Has.no | exact fun _ => rfl))

theorem keeps_execPlantSensorLost {x0 : Base} [x0.Has .regs] [x0.Has .plant] [x0.Has .power] [x0.Has .raises] [x0.Has .out] (s : State) (hk : x0.Keeps s) :
    KeepsRes x0 (execPlantSensorLost s) := by
  unfold execPlantSensorLost
  with_reducible repeat' (first
    | exact hk | assumption | apply keepsRes_next | apply keepsRes_ite | apply keeps_wr | apply keeps_plantFault
    | apply keeps_driveDuties | apply keeps_ite | split | (intro _)
    | simp (disch := (apply State.SameBut.mk <;> first | exact Base.Has.no | exact fun _ => rfl)) only [keeps_mk]
    | (apply State.SameBut.mk <;> first | exact Base.Has.no | exact fun _ => rfl))

theorem keeps_execFlowWindow {x0 : Base} [x0.Has .regs] [x0.Has .plant] [x0.Has .power] [x0.Has .raises] [x0.Has .free]
    [x0.Has .out]
    (pulses : Nat) (s : State) (hk : x0.Keeps s) :
    KeepsRes x0 (execFlowWindow pulses s) := by
  unfold execFlowWindow
  with_reducible repeat' (first
    | exact hk | assumption | apply keepsRes_next | apply keepsRes_ite | apply keeps_manualDuty | apply keeps_wr
    | apply keeps_pump | apply keeps_plantFault | apply keeps_driveDuties | apply keeps_ite | split | (intro _)
    | simp (disch := (apply State.SameBut.mk <;> first | exact Base.Has.no | exact fun _ => rfl)) only [keeps_mk]
    | apply keeps_mk_free | (apply State.SameBut.mk <;> first | exact Base.Has.no | exact fun _ => rfl))

theorem keeps_fenceArrayNow {x0 : Base} [x0.Has .regs] [x0.Has .hbm] [x0.Has .arrs] [x0.Has .staged] [x0.Has .regions]
    [x0.Has .loader] [x0.Has .faults] [x0.Has .raises]
    (s : State) (pf a : Nat) (hk : x0.Keeps s) :
    x0.Keeps (State.fenceArrayNow s pf a) := by
  unfold State.fenceArrayNow
  with_reducible repeat' (first
    | exact hk | assumption | apply keeps_setRegion | apply keeps_requestTakeover | apply keeps_raise | apply keeps_setParr
    | apply keeps_fenceArray | apply keeps_ite | split | (intro _)
    | simp (disch := (apply State.SameBut.mk <;> first | exact Base.Has.no | exact fun _ => rfl)) only [keeps_mk]
    | (apply State.SameBut.mk <;> first | exact Base.Has.no | exact fun _ => rfl))

theorem keeps_loseFacet {x0 : Base} [x0.Has .regs] [x0.Has .facets] [x0.Has .staged] [x0.Has .noc] [x0.Has .serve] (s : State) (pf : Nat) (hk : x0.Keeps s) :
    x0.Keeps (State.loseFacet s pf) := by
  unfold State.loseFacet
  with_reducible repeat' (first
    | exact hk | assumption | apply keeps_failSteps | apply keeps_wr | apply keeps_dropStaged | apply keeps_setFacet
    | apply keeps_setFacet | apply keeps_ite | split | (intro _)
    | simp (disch := (apply State.SameBut.mk <;> first | exact Base.Has.no | exact fun _ => rfl)) only [keeps_mk]
    | (apply State.SameBut.mk <;> first | exact Base.Has.no | exact fun _ => rfl))

theorem keeps_loseFacets {x0 : Base} [x0.Has .regs] [x0.Has .hbm] [x0.Has .facets] [x0.Has .staged] [x0.Has .faults]
    [x0.Has .noc] [x0.Has .serve] [x0.Has .raises]
    (s : State) (desc : Nat) (pfs : List Nat) (hk : x0.Keeps s) :
    x0.Keeps (State.loseFacets s desc pfs) := by
  unfold State.loseFacets
  with_reducible repeat' (first
    | exact hk | assumption | apply keeps_raise | apply keeps_recordFence | apply keeps_loseFacet | apply keeps_foldl_fst
    | apply keeps_foldl | (intro _)
    | simp (disch := (apply State.SameBut.mk <;> first | exact Base.Has.no | exact fun _ => rfl)) only [keeps_mk])

theorem keeps_fenceRegion {x0 : Base} [x0.Has .regs] [x0.Has .hbm] [x0.Has .facets] [x0.Has .staged] [x0.Has .regions]
    [x0.Has .faults] [x0.Has .noc] [x0.Has .serve] [x0.Has .raises]
    (s : State) (g : Nat) (hk : x0.Keeps s) :
    x0.Keeps (State.fenceRegion s g) := by
  unfold State.fenceRegion
  with_reducible repeat' (first | exact hk | assumption | apply keeps_dropRun | apply keeps_loseFacets)

theorem keeps_loseHbm {x0 : Base} [x0.Has .hbm] (s : State) (a n : Nat) (hk : x0.Keeps s) : x0.Keeps (s.loseHbm a n) := by
  unfold State.loseHbm
  refine keeps_mk_hbm hk ?_ ?_
  · exact id
  · apply State.SameBut.mk <;> first | exact Base.Has.no | exact fun _ => rfl
theorem keeps_fenceDie {x0 : Base} [x0.Has .regs] [x0.Has .hbm] [x0.Has .facets] [x0.Has .staged] [x0.Has .regions]
    [x0.Has .faults] [x0.Has .vault] [x0.Has .noc] [x0.Has .serve] [x0.Has .raises]
    (s : State) (d : Nat) (hk : x0.Keeps s) :
    x0.Keeps (State.fenceDie s d) := by
  unfold State.fenceDie
  with_reducible repeat' (first
    | exact hk | assumption | apply keeps_dropRun | apply keeps_loseHbm | apply keeps_vaultDieLost | apply keeps_loseFacets
    | apply keeps_foldl_fst | apply keeps_foldl | (intro _)
    | simp (disch := (apply State.SameBut.mk <;> first | exact Base.Has.no | exact fun _ => rfl)) only [keeps_mk])

theorem keeps_hubPorts {x0 : Base} [x0.Has .regs] [x0.Has .boot] [x0.Has .raises] (s : State) (h : Nat) (hk : x0.Keeps s) :
    x0.Keeps (State.hubPorts s h) := by
  unfold State.hubPorts
  with_reducible repeat' (first
    | exact hk | assumption | apply keeps_wr | apply keeps_raise | apply keeps_ite | split | (intro _)
    | simp (disch := (apply State.SameBut.mk <;> first | exact Base.Has.no | exact fun _ => rfl)) only [keeps_mk]
    | apply keeps_mk_hub_setPoison | apply keeps_mk_hub_write2 | apply keeps_mk_hub_writeByte | apply keeps_mk_hub_write
    | (apply State.SameBut.mk <;> first | exact Base.Has.no | exact fun _ => rfl))

theorem keeps_hubCores {x0 : Base} [x0.Has .regs] [x0.Has .boot] [x0.Has .ctl] [x0.Has .raises] [x0.Has .out] (s : State) (h : Nat) (hk : x0.Keeps s) :
    x0.Keeps (State.hubCores s h) := by
  unfold State.hubCores
  with_reducible repeat' (first
    | exact hk | assumption | apply keeps_setCoreState | apply keeps_rehome | apply keeps_foldl_fst | apply keeps_foldl
    | (intro _)
    | simp (disch := (apply State.SameBut.mk <;> first | exact Base.Has.no | exact fun _ => rfl)) only [keeps_mk])

theorem keeps_fenceHub {x0 : Base} [x0.Has .regs] [x0.Has .hbm] [x0.Has .faults] [x0.Has .boot] [x0.Has .ctl]
    [x0.Has .raises] [x0.Has .out]
    (s : State) (h : Nat) (hk : x0.Keeps s) : x0.Keeps (s.fenceHub h) :=
  keeps_ite (keeps_setCtl _ _ hk) (keeps_hubCores _ _ (keeps_hubPorts _ _ (keeps_recordFence _ _ _ _ _ hk)))
theorem keeps_fenceChannel {x0 : Base} [x0.Has .regs] [x0.Has .hbm] [x0.Has .faults] [x0.Has .raises] (s : State) (k c : Nat) (hk : x0.Keeps s) :
    x0.Keeps (State.fenceChannel s k c) := by
  unfold State.fenceChannel
  with_reducible repeat' (first | exact hk | assumption | apply keeps_loseHbm | apply keeps_recordFence)

theorem keeps_fenceD2d {x0 : Base} [x0.Has .regs] [x0.Has .hbm] [x0.Has .faults] [x0.Has .raises] (s : State) (desc cause : Nat) (hk : x0.Keeps s) :
    x0.Keeps (State.fenceD2d s desc cause) := by
  unfold State.fenceD2d
  with_reducible repeat' (first | exact hk | assumption | apply keeps_recordFence)

theorem keeps_fenceSensor {x0 : Base} [x0.Has .regs] [x0.Has .hbm] [x0.Has .faults] [x0.Has .raises] (s : State) (g i : Nat) (hk : x0.Keeps s) :
    x0.Keeps (State.fenceSensor s g i) := by
  unfold State.fenceSensor
  with_reducible repeat' (first
    | exact hk | assumption | apply keeps_wr | apply keeps_replaceSensor | apply keeps_recordFence | apply keeps_ite
    | split | (intro _)
    | simp (disch := (apply State.SameBut.mk <;> first | exact Base.Has.no | exact fun _ => rfl)) only [keeps_mk])

theorem keeps_clockLost {x0 : Base} [x0.Has .ctl] [x0.Has .raises] (s : State) (c : Nat) (hk : x0.Keeps s) : x0.Keeps (s.clockLost c) := by
  delta State.clockLost
  refine keeps_ite hk (keeps_ite (keeps_setCtl _ _ hk) ?_)
  generalize h : execRefclkFail s = r
  cases r with
  | next t => exact keeps_execRefclkFail _ hk _ h
  | fault f => exact hk
  | refused f => exact hk
theorem keeps_fenceUnit {x0 : Base} [x0.Has .regs] [x0.Has .hbm] [x0.Has .facets] [x0.Has .arrs] [x0.Has .staged]
    [x0.Has .regions] [x0.Has .loader] [x0.Has .faults] [x0.Has .vault] [x0.Has .boot] [x0.Has .link]
    [x0.Has .noc] [x0.Has .serve] [x0.Has .ctl] [x0.Has .raises] [x0.Has .out]
    (s : State) (d : Nat) (hk : x0.Keeps s) :
    x0.Keeps (State.fenceUnit s d) := by
  unfold State.fenceUnit
  with_reducible repeat' (first
    | exact hk | assumption | apply keeps_fenceArrayNow | apply keeps_fenceCore | apply keeps_fenceDie
    | apply keeps_clockLost | apply keeps_fenceShadow | apply keeps_recordFence | apply keeps_fenceHub
    | apply keeps_laneLost | apply keeps_fenceD2d | apply keeps_fenceFacet | apply keeps_queueFence
    | apply keeps_fenceSensor | apply keeps_fenceChannel | apply keeps_fenceRegion | apply keeps_ite | split | (intro _)
    | simp (disch := (apply State.SameBut.mk <;> first | exact Base.Has.no | exact fun _ => rfl)) only [keeps_mk]
    | (apply State.SameBut.mk <;> first | exact Base.Has.no | exact fun _ => rfl))

theorem keeps_keepCounts {x0 : Base} [x0.Has .regs] (s r : State) (hk : x0.Keeps r) : x0.Keeps (s.keepCounts r) := by
  unfold State.keepCounts
  with_reducible repeat' (first | exact hk | assumption | apply keeps_wr | apply keeps_setReg | apply keeps_setFacet | apply keeps_foldl_fst | apply keeps_foldl | apply keeps_ite | split | (intro _) | simp (disch := (apply State.SameBut.mk <;> first | exact Base.Has.no | exact fun _ => rfl)) only [keeps_mk] | apply keeps_mk_free | apply keeps_mk_hbm_setPoison | apply keeps_mk_hub_setPoison | apply keeps_mk_hub_write2 | apply keeps_mk_hub_writeByte | apply keeps_mk_hub_write | (apply State.SameBut.mk <;> first | exact Base.Has.no | exact fun _ => rfl))
theorem keeps_resetKept {x0 : Base} [x0.Has .regs] [x0.Has .hbm] [x0.Has .facets] [x0.Has .arrs] [x0.Has .larrs]
    [x0.Has .outJobs] [x0.Has .fbPlaces] [x0.Has .staged] [x0.Has .regions] [x0.Has .calStore]
    [x0.Has .loader] [x0.Has .faults] [x0.Has .vault] [x0.Has .boot] [x0.Has .sec] [x0.Has .link]
    [x0.Has .plant] [x0.Has .power] [x0.Has .tap] [x0.Has .noc] [x0.Has .serve] [x0.Has .kv]
    [x0.Has .hub] [x0.Has .ctl] [x0.Has .raises] [x0.Has .free] [x0.Has .out]
    (s : State) (porst : Bool) (hk : x0.Keeps s) : x0.Keeps (s.resetKept porst) :=
  hk.trans ⟨rfl, rfl, rfl, Nat.le_refl _, fun _ => rfl, fun _ => rfl, fun w => by
    rw [Tab.sorted_iff] at *
    exact w.filter _, fun _ => rfl⟩ (by apply State.SameBut.mk <;> first | exact Base.Has.no | exact fun _ => rfl)
theorem keeps_afterReset {x0 : Base} [x0.Has .regs] [x0.Has .hbm] [x0.Has .facets] [x0.Has .arrs] [x0.Has .larrs]
    [x0.Has .outJobs] [x0.Has .fbPlaces] [x0.Has .staged] [x0.Has .regions] [x0.Has .calStore]
    [x0.Has .loader] [x0.Has .faults] [x0.Has .vault] [x0.Has .boot] [x0.Has .sec] [x0.Has .link]
    [x0.Has .plant] [x0.Has .power] [x0.Has .tap] [x0.Has .noc] [x0.Has .serve] [x0.Has .kv]
    [x0.Has .hub] [x0.Has .ctl] [x0.Has .raises] [x0.Has .free] [x0.Has .out]
    (s : State) (porst : Bool) (hk : x0.Keeps s) : x0.Keeps (s.afterReset porst) := by
  delta State.afterReset
  have h1 : x0.Keeps (s.resetKept porst) := keeps_resetKept _ _ hk
  have h2 : ∀ t, x0.Keeps t → x0.Keeps (s.calStore.foldl (fun r e =>
      (r.setReg (.CONV_SETLO (e.1 / 512 / 256) (e.1 / 512 % 256) (e.1 % 512)) e.2.1).setReg (.CONV_SETHI (e.1 / 512 / 256) (e.1 / 512 % 256) (e.1 % 512)) e.2.2) t) :=
    fun t ht => keeps_foldl ht _ _ (fun t ht e => keeps_setReg (keeps_setReg ht _ _) _ _)
  have h3 := keeps_wr _ .SEC_STAT F.SEC_STAT.erase_pending (s.rd .SEC_STAT F.SEC_STAT.erase_pending)
    (keeps_wr _ .SEC_STAT F.SEC_STAT.id_state (s.rd .SEC_STAT F.SEC_STAT.id_state) (h2 _ h1))
  have h4 := keeps_ite (c := porst = true) h3 (keeps_wr _ .SEC_STAT F.SEC_STAT.locked (s.rd .SEC_STAT F.SEC_STAT.locked) (keeps_keepCounts s _ h3))
  refine keeps_wr _ _ _ _ (keeps_wr _ _ _ _ (keeps_ite h4 (keeps_foldl h4 _ _ (fun t ht n => keeps_wr _ _ _ _ ht))))
theorem keeps_applyUnits {x0 : Base} [x0.Has .regs] [x0.Has .hbm] [x0.Has .facets] [x0.Has .arrs] [x0.Has .staged]
    [x0.Has .regions] [x0.Has .loader] [x0.Has .faults] [x0.Has .vault] [x0.Has .boot] [x0.Has .link]
    [x0.Has .noc] [x0.Has .serve] [x0.Has .ctl] [x0.Has .raises] [x0.Has .out]
    (s : State) (hk : x0.Keeps s) : x0.Keeps s.applyUnits := by
  delta State.applyUnits
  extract_lets +onlyGivenNames t
  have ht : x0.Keeps t := keeps_foldl hk _ _ (fun s hs d => keeps_fenceUnit _ _ hs)
  clear_value t
  have hu : x0.Keeps { t with raises := s.raises, hbm := { s.hbm with lost := t.hbm.lost }, faults := { s.faults with active := t.faults.active } } :=
    ⟨⟨ht.1.1, ht.1.2.1, ht.1.2.2.1, ht.1.2.2.2.1, hk.1.2.2.2.2.1, ht.1.2.2.2.2.2⟩,
      ht.2.trans (by apply State.SameBut.mk <;> first | exact Base.Has.no | exact fun _ => rfl)⟩
  exact keeps_setReg (keeps_setReg hu _ _) _ _
theorem keeps_beginSeq {x0 : Base} [x0.Has .power] (s : State) (hk : x0.Keeps s) :
    x0.Keeps (State.beginSeq s) := by
  unfold State.beginSeq
  with_reducible repeat' (first
    | exact hk | assumption
    | simp (disch := (apply State.SameBut.mk <;> first | exact Base.Has.no | exact fun _ => rfl)) only [keeps_mk]
    | (apply State.SameBut.mk <;> first | exact Base.Has.no | exact fun _ => rfl))

theorem keeps_enterReset {x0 : Base} [x0.Has .regs] [x0.Has .hbm] [x0.Has .facets] [x0.Has .arrs] [x0.Has .larrs]
    [x0.Has .outJobs] [x0.Has .fbPlaces] [x0.Has .staged] [x0.Has .regions] [x0.Has .calStore]
    [x0.Has .loader] [x0.Has .faults] [x0.Has .vault] [x0.Has .boot] [x0.Has .sec] [x0.Has .link]
    [x0.Has .plant] [x0.Has .power] [x0.Has .tap] [x0.Has .noc] [x0.Has .serve] [x0.Has .kv]
    [x0.Has .hub] [x0.Has .ctl] [x0.Has .raises] [x0.Has .free] [x0.Has .out]
    (s : State) (porst : Bool) (phase : Nat) (hk : x0.Keeps s) :
    x0.Keeps (State.enterReset s porst phase) := by
  unfold State.enterReset
  with_reducible repeat' (first
    | exact hk | assumption | apply keeps_afterReset | (intro _)
    | simp (disch := (apply State.SameBut.mk <;> first | exact Base.Has.no | exact fun _ => rfl)) only [keeps_mk]
    | (apply State.SameBut.mk <;> first | exact Base.Has.no | exact fun _ => rfl))

theorem keeps_execPorstAssert {x0 : Base} [x0.Has .regs] [x0.Has .hbm] [x0.Has .facets] [x0.Has .arrs] [x0.Has .larrs]
    [x0.Has .outJobs] [x0.Has .fbPlaces] [x0.Has .staged] [x0.Has .regions] [x0.Has .calStore]
    [x0.Has .loader] [x0.Has .faults] [x0.Has .vault] [x0.Has .boot] [x0.Has .sec] [x0.Has .link]
    [x0.Has .plant] [x0.Has .power] [x0.Has .tap] [x0.Has .noc] [x0.Has .serve] [x0.Has .kv]
    [x0.Has .hub] [x0.Has .ctl] [x0.Has .raises] [x0.Has .free] [x0.Has .out]
    (ns : Nat) (s : State) (hk : x0.Keeps s) :
    KeepsRes x0 (execPorstAssert ns s) := by
  unfold execPorstAssert
  with_reducible repeat' (first
    | exact hk | assumption | apply keepsRes_next | apply keepsRes_ite | apply keeps_enterReset | apply keeps_ite | split
    | (intro _)
    | simp (disch := (apply State.SameBut.mk <;> first | exact Base.Has.no | exact fun _ => rfl)) only [keeps_mk]
    | (apply State.SameBut.mk <;> first | exact Base.Has.no | exact fun _ => rfl))

theorem keeps_execPorstRelease {x0 : Base} [x0.Has .regs] [x0.Has .faults] [x0.Has .boot] [x0.Has .power] (s : State) (hk : x0.Keeps s) :
    KeepsRes x0 (execPorstRelease s) := by
  unfold execPorstRelease
  with_reducible repeat' (first
    | exact hk | assumption | apply keepsRes_next | apply keepsRes_ite | apply keeps_setReg | apply keeps_beginSeq
    | apply keeps_setReg | apply keeps_ite | split | (intro _)
    | simp (disch := (apply State.SameBut.mk <;> first | exact Base.Has.no | exact fun _ => rfl)) only [keeps_mk]
    | (apply State.SameBut.mk <;> first | exact Base.Has.no | exact fun _ => rfl))

theorem keeps_execRailPgRise {x0 : Base} [x0.Has .regs] [x0.Has .hbm] [x0.Has .facets] [x0.Has .arrs] [x0.Has .staged]
    [x0.Has .regions] [x0.Has .loader] [x0.Has .faults] [x0.Has .vault] [x0.Has .boot] [x0.Has .link]
    [x0.Has .power] [x0.Has .noc] [x0.Has .serve] [x0.Has .ctl] [x0.Has .raises] [x0.Has .out]
    (n : Nat) (s : State) (hk : x0.Keeps s) :
    KeepsRes x0 (execRailPgRise n s) := by
  unfold execRailPgRise
  with_reducible repeat' (first
    | exact hk | assumption | apply keepsRes_next | apply keepsRes_ite | apply keeps_applyUnits | apply keeps_ite | split
    | (intro _)
    | simp (disch := (apply State.SameBut.mk <;> first | exact Base.Has.no | exact fun _ => rfl)) only [keeps_mk]
    | (apply State.SameBut.mk <;> first | exact Base.Has.no | exact fun _ => rfl))

theorem keeps_failSeq {x0 : Base} [x0.Has .regs] [x0.Has .hbm] [x0.Has .facets] [x0.Has .arrs] [x0.Has .larrs]
    [x0.Has .outJobs] [x0.Has .fbPlaces] [x0.Has .staged] [x0.Has .regions] [x0.Has .calStore]
    [x0.Has .loader] [x0.Has .faults] [x0.Has .vault] [x0.Has .boot] [x0.Has .sec] [x0.Has .link]
    [x0.Has .plant] [x0.Has .power] [x0.Has .tap] [x0.Has .noc] [x0.Has .serve] [x0.Has .kv]
    [x0.Has .hub] [x0.Has .ctl] [x0.Has .raises] [x0.Has .free] [x0.Has .out]
    (s : State) (n : Nat) (hk : x0.Keeps s) :
    x0.Keeps (State.failSeq s n) := by
  unfold State.failSeq
  with_reducible repeat' (first
    | exact hk | assumption | apply keeps_wr | apply keeps_bump | apply keeps_enterReset | apply keeps_ite | split
    | (intro _)
    | simp (disch := (apply State.SameBut.mk <;> first | exact Base.Has.no | exact fun _ => rfl)) only [keeps_mk]
    | (apply State.SameBut.mk <;> first | exact Base.Has.no | exact fun _ => rfl))

theorem keeps_execRailPgTimeout {x0 : Base} [x0.Has .regs] [x0.Has .hbm] [x0.Has .facets] [x0.Has .arrs] [x0.Has .larrs]
    [x0.Has .outJobs] [x0.Has .fbPlaces] [x0.Has .staged] [x0.Has .regions] [x0.Has .calStore]
    [x0.Has .loader] [x0.Has .faults] [x0.Has .vault] [x0.Has .boot] [x0.Has .sec] [x0.Has .link]
    [x0.Has .plant] [x0.Has .power] [x0.Has .tap] [x0.Has .noc] [x0.Has .serve] [x0.Has .kv]
    [x0.Has .hub] [x0.Has .ctl] [x0.Has .raises] [x0.Has .free] [x0.Has .out]
    (n : Nat) (s : State) (hk : x0.Keeps s) :
    KeepsRes x0 (execRailPgTimeout n s) := by
  unfold execRailPgTimeout
  with_reducible repeat' (first
    | exact hk | assumption | apply keepsRes_next | apply keepsRes_ite | apply keeps_failSeq | apply keeps_ite | split
    | (intro _)
    | simp (disch := (apply State.SameBut.mk <;> first | exact Base.Has.no | exact fun _ => rfl)) only [keeps_mk])

theorem keeps_execRailPgDrop {x0 : Base} [x0.Has .regs] [x0.Has .hbm] [x0.Has .facets] [x0.Has .arrs] [x0.Has .larrs]
    [x0.Has .outJobs] [x0.Has .fbPlaces] [x0.Has .staged] [x0.Has .regions] [x0.Has .calStore]
    [x0.Has .loader] [x0.Has .faults] [x0.Has .vault] [x0.Has .boot] [x0.Has .sec] [x0.Has .link]
    [x0.Has .plant] [x0.Has .power] [x0.Has .tap] [x0.Has .noc] [x0.Has .serve] [x0.Has .kv]
    [x0.Has .hub] [x0.Has .ctl] [x0.Has .raises] [x0.Has .free] [x0.Has .out]
    (n ns : Nat) (s : State) (hk : x0.Keeps s) :
    KeepsRes x0 (execRailPgDrop n ns s) := by
  unfold execRailPgDrop
  with_reducible repeat' (first
    | exact hk | assumption | apply keepsRes_next | apply keepsRes_ite | apply keeps_failSeq | apply keeps_ite | split
    | (intro _)
    | simp (disch := (apply State.SameBut.mk <;> first | exact Base.Has.no | exact fun _ => rfl)) only [keeps_mk])

theorem keeps_execSeqRestartTimer {x0 : Base} [x0.Has .power] (s : State) (hk : x0.Keeps s) :
    KeepsRes x0 (execSeqRestartTimer s) := by
  unfold execSeqRestartTimer
  with_reducible repeat' (first
    | exact hk | assumption | apply keepsRes_next | apply keepsRes_ite | apply keeps_beginSeq | apply keeps_ite | split)

theorem keeps_packageTrip {x0 : Base} [x0.Has .regs] [x0.Has .hbm] [x0.Has .facets] [x0.Has .arrs] [x0.Has .larrs]
    [x0.Has .outJobs] [x0.Has .fbPlaces] [x0.Has .staged] [x0.Has .regions] [x0.Has .calStore]
    [x0.Has .loader] [x0.Has .faults] [x0.Has .vault] [x0.Has .boot] [x0.Has .sec] [x0.Has .link]
    [x0.Has .plant] [x0.Has .power] [x0.Has .tap] [x0.Has .noc] [x0.Has .serve] [x0.Has .kv]
    [x0.Has .hub] [x0.Has .ctl] [x0.Has .raises] [x0.Has .free] [x0.Has .out]
    (s : State) (detector : Nat) (hk : x0.Keeps s) :
    x0.Keeps (State.packageTrip s detector) := by
  unfold State.packageTrip
  with_reducible repeat' (first
    | exact hk | assumption | apply keeps_enterReset | (intro _)
    | simp (disch := (apply State.SameBut.mk <;> first | exact Base.Has.no | exact fun _ => rfl)) only [keeps_mk]
    | (apply State.SameBut.mk <;> first | exact Base.Has.no | exact fun _ => rfl))

theorem keeps_execPkgSensorTrip {x0 : Base} [x0.Has .regs] [x0.Has .hbm] [x0.Has .facets] [x0.Has .arrs] [x0.Has .larrs]
    [x0.Has .outJobs] [x0.Has .fbPlaces] [x0.Has .staged] [x0.Has .regions] [x0.Has .calStore]
    [x0.Has .loader] [x0.Has .faults] [x0.Has .vault] [x0.Has .boot] [x0.Has .sec] [x0.Has .link]
    [x0.Has .plant] [x0.Has .power] [x0.Has .tap] [x0.Has .noc] [x0.Has .serve] [x0.Has .kv]
    [x0.Has .hub] [x0.Has .ctl] [x0.Has .raises] [x0.Has .free] [x0.Has .out]
    (n : Nat) (t : Int) (s : State) (hk : x0.Keeps s) :
    KeepsRes x0 (execPkgSensorTrip n t s) := by
  unfold execPkgSensorTrip
  with_reducible repeat' (first
    | exact hk | assumption | apply keepsRes_next | apply keepsRes_ite | apply keeps_wr | apply keeps_packageTrip
    | apply keeps_ite | split | (intro _)
    | simp (disch := (apply State.SameBut.mk <;> first | exact Base.Has.no | exact fun _ => rfl)) only [keeps_mk]
    | (apply State.SameBut.mk <;> first | exact Base.Has.no | exact fun _ => rfl))

theorem keeps_execPkgTripRestart {x0 : Base} [x0.Has .regs] [x0.Has .faults] [x0.Has .boot] [x0.Has .power] (temps : List Int) (s : State) (hk : x0.Keeps s) :
    KeepsRes x0 (execPkgTripRestart temps s) := by
  unfold execPkgTripRestart
  with_reducible repeat' (first
    | exact hk | assumption | apply keepsRes_next | apply keepsRes_ite | apply keeps_wr | apply keeps_setReg
    | apply keeps_beginSeq | apply keeps_setReg | apply keeps_foldl_fst | apply keeps_foldl | apply keeps_ite | split
    | (intro _)
    | simp (disch := (apply State.SameBut.mk <;> first | exact Base.Has.no | exact fun _ => rfl)) only [keeps_mk]
    | (apply State.SameBut.mk <;> first | exact Base.Has.no | exact fun _ => rfl))

theorem keeps_execHbmTemp {x0 : Base} [x0.Has .regs] [x0.Has .hbm] [x0.Has .facets] [x0.Has .arrs] [x0.Has .larrs]
    [x0.Has .outJobs] [x0.Has .fbPlaces] [x0.Has .staged] [x0.Has .regions] [x0.Has .calStore]
    [x0.Has .loader] [x0.Has .faults] [x0.Has .vault] [x0.Has .boot] [x0.Has .sec] [x0.Has .link]
    [x0.Has .plant] [x0.Has .power] [x0.Has .tap] [x0.Has .noc] [x0.Has .serve] [x0.Has .kv]
    [x0.Has .hub] [x0.Has .ctl] [x0.Has .raises] [x0.Has .free] [x0.Has .out]
    (k : Nat) (t : Int) (cat : Bool) (s : State) (hk : x0.Keeps s) :
    KeepsRes x0 (execHbmTemp k t cat s) := by
  unfold execHbmTemp
  with_reducible repeat' (first
    | exact hk | assumption | apply keepsRes_next | apply keepsRes_ite | apply keeps_packageTrip | apply keeps_hbmTemp
    | apply keeps_ite | split)

theorem keeps_execVddAonLoss {x0 : Base} [x0.Has .regs] [x0.Has .hbm] [x0.Has .facets] [x0.Has .arrs] [x0.Has .larrs]
    [x0.Has .outJobs] [x0.Has .fbPlaces] [x0.Has .staged] [x0.Has .regions] [x0.Has .calStore]
    [x0.Has .loader] [x0.Has .faults] [x0.Has .vault] [x0.Has .boot] [x0.Has .sec] [x0.Has .link]
    [x0.Has .plant] [x0.Has .power] [x0.Has .tap] [x0.Has .noc] [x0.Has .serve] [x0.Has .kv]
    [x0.Has .hub] [x0.Has .ctl] [x0.Has .raises] [x0.Has .free] [x0.Has .out]
    (s : State) (hk : x0.Keeps s) :
    KeepsRes x0 (execVddAonLoss s) := by
  unfold execVddAonLoss
  with_reducible repeat' (first
    | exact hk | assumption | apply keepsRes_next | apply keeps_wr | apply keeps_setReg | apply keeps_enterReset
    | apply keeps_setReg | (intro _)
    | simp (disch := (apply State.SameBut.mk <;> first | exact Base.Has.no | exact fun _ => rfl)) only [keeps_mk]
    | (apply State.SameBut.mk <;> first | exact Base.Has.no | exact fun _ => rfl))

theorem keeps_secEvent {x0 : Base} [x0.Has .raises] (s : State) (code : Nat) (fields : List Nat) (hk : x0.Keeps s) :
    x0.Keeps (State.secEvent s code fields) := by
  unfold State.secEvent
  with_reducible repeat' (first | exact hk | assumption | apply keeps_raise)

theorem keeps_execNonceDraw {x0 : Base} [x0.Has .regs] [x0.Has .sec] [x0.Has .out] (s : State) (hk : x0.Keeps s) :
    KeepsRes x0 (execNonceDraw s) := by
  unfold execNonceDraw
  with_reducible repeat' (first
    | exact hk | assumption | apply keepsRes_next | apply keeps_emit | apply keeps_setReg | apply keeps_setReg
    | apply keeps_foldl_fst | apply keeps_foldl | (intro _)
    | simp (disch := (apply State.SameBut.mk <;> first | exact Base.Has.no | exact fun _ => rfl)) only [keeps_mk]
    | (apply State.SameBut.mk <;> first | exact Base.Has.no | exact fun _ => rfl))

theorem keeps_wrapSeed {x0 : Base} [x0.Has .regs] [x0.Has .vault] [x0.Has .sec] (s : State) (h gen : Nat) (seed : List Byte) (hk : x0.Keeps s) :
    x0.Keeps (State.wrapSeed s h gen seed) := by
  unfold State.wrapSeed
  with_reducible repeat' (first
    | exact hk | assumption | apply keeps_vput | (intro _)
    | simp (disch := (apply State.SameBut.mk <;> first | exact Base.Has.no | exact fun _ => rfl)) only [keeps_mk]
    | (apply State.SameBut.mk <;> first | exact Base.Has.no | exact fun _ => rfl))

theorem keeps_execPufUnwrap {x0 : Base} [x0.Has .regs] [x0.Has .vault] [x0.Has .sec] (failed : List Nat) (s : State) (hk : x0.Keeps s) :
    KeepsRes x0 (execPufUnwrap failed s) := by
  unfold execPufUnwrap
  with_reducible repeat' (first
    | exact hk | assumption | apply keepsRes_next | apply keepsRes_ite | apply keeps_wr | apply keeps_wrapSeed
    | apply keeps_ite | split | (intro _)
    | simp (disch := (apply State.SameBut.mk <;> first | exact Base.Has.no | exact fun _ => rfl)) only [keeps_mk]
    | (apply State.SameBut.mk <;> first | exact Base.Has.no | exact fun _ => rfl))

theorem keeps_startCmd {x0 : Base} [x0.Has .regs] [x0.Has .sec] (s : State) (op : Nat) (status : Option Nat) (waits : List (Nat × Nat)) (fields : List Nat) (hk : x0.Keeps s) :
    x0.Keeps (State.startCmd s op status waits fields) := by
  unfold State.startCmd
  with_reducible repeat' (first
    | exact hk | assumption | apply keeps_wr
    | simp (disch := (apply State.SameBut.mk <;> first | exact Base.Has.no | exact fun _ => rfl)) only [keeps_mk]
    | (apply State.SameBut.mk <;> first | exact Base.Has.no | exact fun _ => rfl))

theorem keeps_enroll {x0 : Base} [x0.Has .regs] [x0.Has .vault] [x0.Has .sec] (s : State) (t : List Byte) (hk : x0.Keeps s) :
    x0.Keeps (State.enroll s t) := by
  unfold State.enroll
  with_reducible repeat' (first
    | exact hk | assumption | apply keeps_startCmd | apply keeps_wrapSeed | apply keeps_vput | apply keeps_ite | split
    | (intro _)
    | simp (disch := (apply State.SameBut.mk <;> first | exact Base.Has.no | exact fun _ => rfl)) only [keeps_mk]
    | (apply State.SameBut.mk <;> first | exact Base.Has.no | exact fun _ => rfl))

theorem keeps_svnCommit {x0 : Base} [x0.Has .regs] [x0.Has .vault] [x0.Has .sec] (s : State) (hk : x0.Keeps s) :
    x0.Keeps (State.svnCommit s) := by
  unfold State.svnCommit
  with_reducible repeat' (first
    | exact hk | assumption | apply keeps_startCmd | apply keeps_vput | apply keeps_ite | split | (intro _)
    | simp (disch := (apply State.SameBut.mk <;> first | exact Base.Has.no | exact fun _ => rfl)) only [keeps_mk]
    | (apply State.SameBut.mk <;> first | exact Base.Has.no | exact fun _ => rfl))

theorem keeps_secGo {x0 : Base} [x0.Has .regs] [x0.Has .vault] [x0.Has .sec] (s : State) (op : Nat) (hk : x0.Keeps s) :
    x0.Keeps (State.secGo s op) := by
  unfold State.secGo
  with_reducible repeat' (first
    | exact hk | assumption | apply keeps_svnCommit | apply keeps_wr | apply keeps_enroll | apply keeps_startCmd
    | apply keeps_vput | apply keeps_ite | split | (intro _)
    | simp (disch := (apply State.SameBut.mk <;> first | exact Base.Has.no | exact fun _ => rfl)) only [keeps_mk]
    | (apply State.SameBut.mk <;> first | exact Base.Has.no | exact fun _ => rfl))

theorem keeps_secCmdWrite {x0 : Base} [x0.Has .regs] [x0.Has .vault] [x0.Has .sec] (s : State) (op : Nat) (hk : x0.Keeps s) :
    x0.Keeps (State.secCmdWrite s op) := by
  unfold State.secCmdWrite
  with_reducible repeat' (first | exact hk | assumption | apply keeps_wr | apply keeps_secGo | apply keeps_ite | split)

theorem keeps_execAttest {x0 : Base} [x0.Has .regs] [x0.Has .vault] [x0.Has .sec] (s : State) (hk : x0.Keeps s) :
    KeepsRes x0 (execAttest s) := by
  unfold execAttest
  with_reducible repeat' (first | exact hk | assumption | apply keepsRes_next | apply keeps_secCmdWrite)

theorem keeps_execEnroll {x0 : Base} [x0.Has .regs] [x0.Has .vault] [x0.Has .sec] (s : State) (hk : x0.Keeps s) :
    KeepsRes x0 (execEnroll s) := by
  unfold execEnroll
  with_reducible repeat' (first | exact hk | assumption | apply keepsRes_next | apply keeps_secCmdWrite)

theorem keeps_execSvnCommit {x0 : Base} [x0.Has .regs] [x0.Has .vault] [x0.Has .sec] (s : State) (hk : x0.Keeps s) :
    KeepsRes x0 (execSvnCommit s) := by
  unfold execSvnCommit
  with_reducible repeat' (first | exact hk | assumption | apply keepsRes_next | apply keeps_secCmdWrite)

theorem keeps_execUnlock {x0 : Base} [x0.Has .regs] [x0.Has .vault] [x0.Has .sec] (s : State) (hk : x0.Keeps s) :
    KeepsRes x0 (execUnlock s) := by
  unfold execUnlock
  with_reducible repeat' (first | exact hk | assumption | apply keepsRes_next | apply keeps_secCmdWrite)

theorem keeps_execOwner {x0 : Base} [x0.Has .regs] [x0.Has .vault] [x0.Has .sec] (s : State) (hk : x0.Keeps s) :
    KeepsRes x0 (execOwner s) := by
  unfold execOwner
  with_reducible repeat' (first | exact hk | assumption | apply keepsRes_next | apply keeps_secCmdWrite)

theorem keeps_secResult {x0 : Base} [x0.Has .hbm] (s : State) (bs : List Byte) (hk : x0.Keeps s) :
    x0.Keeps (State.secResult s bs) := by
  unfold State.secResult
  with_reducible repeat' (first | exact hk | assumption | apply keeps_hbmWrite)

theorem keeps_endCmd {x0 : Base} [x0.Has .regs] [x0.Has .sec] [x0.Has .raises] (s : State) (op status : Nat) (hk : x0.Keeps s) :
    x0.Keeps (State.endCmd s op status) := by
  unfold State.endCmd
  with_reducible repeat' (first
    | exact hk | assumption | apply keeps_secEvent | apply keeps_wr | (intro _)
    | simp (disch := (apply State.SameBut.mk <;> first | exact Base.Has.no | exact fun _ => rfl)) only [keeps_mk]
    | (apply State.SameBut.mk <;> first | exact Base.Has.no | exact fun _ => rfl))

theorem keeps_cmdEffect {x0 : Base} [x0.Has .regs] [x0.Has .hbm] [x0.Has .sec] [x0.Has .raises] (s : State) (c : SecCmd) (hk : x0.Keeps s) :
    x0.Keeps (State.cmdEffect s c) := by
  unfold State.cmdEffect
  with_reducible repeat' (first
    | exact hk | assumption | apply keeps_wr | apply keeps_secResult | apply keeps_secEvent | apply keeps_ite | split
    | (intro _)
    | simp (disch := (apply State.SameBut.mk <;> first | exact Base.Has.no | exact fun _ => rfl)) only [keeps_mk]
    | (apply State.SameBut.mk <;> first | exact Base.Has.no | exact fun _ => rfl))

theorem keeps_execSecCmdComplete {x0 : Base} [x0.Has .regs] [x0.Has .hbm] [x0.Has .sec] [x0.Has .raises] (s : State) (hk : x0.Keeps s) :
    KeepsRes x0 (execSecCmdComplete s) := by
  unfold execSecCmdComplete
  with_reducible repeat' (first
    | exact hk | assumption | apply keepsRes_next | apply keepsRes_ite | apply keeps_endCmd | apply keeps_cmdEffect
    | apply keeps_ite | split
    | simp (disch := (apply State.SameBut.mk <;> first | exact Base.Has.no | exact fun _ => rfl)) only [keeps_mk]
    | (apply State.SameBut.mk <;> first | exact Base.Has.no | exact fun _ => rfl))

theorem keeps_showValid {x0 : Base} [x0.Has .regs] (s : State) (hk : x0.Keeps s) :
    x0.Keeps (State.showValid s) := by
  unfold State.showValid
  with_reducible repeat' (first | exact hk | assumption | apply keeps_wr)

theorem keeps_keyWrite {x0 : Base} [x0.Has .regs] [x0.Has .sec] (s : State) (slot : Nat) (commit : Bool) (hk : x0.Keeps s) :
    x0.Keeps (State.keyWrite s slot commit) := by
  unfold State.keyWrite
  with_reducible repeat' (first
    | exact hk | assumption | apply keeps_showValid | apply keeps_wr | apply keeps_setReg | apply keeps_setReg
    | apply keeps_foldl_fst | apply keeps_foldl | apply keeps_ite | split | (intro _)
    | simp (disch := (apply State.SameBut.mk <;> first | exact Base.Has.no | exact fun _ => rfl)) only [keeps_mk]
    | (apply State.SameBut.mk <;> first | exact Base.Has.no | exact fun _ => rfl))

theorem keeps_execKeyCommit {x0 : Base} [x0.Has .regs] [x0.Has .sec] (slot : Nat) (s : State) (hk : x0.Keeps s) :
    KeepsRes x0 (execKeyCommit slot s) := by
  unfold execKeyCommit
  with_reducible repeat' (first | exact hk | assumption | apply keepsRes_next | apply keeps_keyWrite)

theorem keeps_execKeyClear {x0 : Base} [x0.Has .regs] [x0.Has .sec] (slot : Nat) (s : State) (hk : x0.Keeps s) :
    KeepsRes x0 (execKeyClear slot s) := by
  unfold execKeyClear
  with_reducible repeat' (first | exact hk | assumption | apply keepsRes_next | apply keeps_keyWrite)

theorem keeps_alarmA1 {x0 : Base} [x0.Has .regs] [x0.Has .raises] (s : State) (n cls : Nat) (injected : Bool) (hk : x0.Keeps s) :
    x0.Keeps (State.alarmA1 s n cls injected) := by
  unfold State.alarmA1
  with_reducible repeat' (first
    | exact hk | assumption | apply keeps_wr | apply keeps_secEvent | apply keeps_bump | (intro _)
    | simp (disch := (apply State.SameBut.mk <;> first | exact Base.Has.no | exact fun _ => rfl)) only [keeps_mk])

theorem keeps_abortCmd {x0 : Base} [x0.Has .regs] [x0.Has .vault] [x0.Has .sec] [x0.Has .raises] (s : State) (hk : x0.Keeps s) :
    x0.Keeps (State.abortCmd s) := by
  unfold State.abortCmd
  with_reducible repeat' (first
    | exact hk | assumption | apply keeps_wr | apply keeps_endCmd | split | (intro _)
    | simp (disch := (apply State.SameBut.mk <;> first | exact Base.Has.no | exact fun _ => rfl)) only [keeps_mk]
    | (apply State.SameBut.mk <;> first | exact Base.Has.no | exact fun _ => rfl))

theorem keeps_lock {x0 : Base} [x0.Has .regs] [x0.Has .hbm] [x0.Has .vault] [x0.Has .sec] [x0.Has .noc] [x0.Has .serve]
    [x0.Has .kv] [x0.Has .hub] [x0.Has .raises]
    (s : State) (n : Nat) (hk : x0.Keeps s) :
    x0.Keeps (State.lock s n) := by
  unfold State.lock
  with_reducible repeat' (first
    | exact hk | assumption | apply keeps_wr | apply keeps_chanDown | apply keeps_secEvent | apply keeps_abortCmd
    | apply keeps_foldl_fst | apply keeps_foldl | (intro _)
    | simp (disch := (apply State.SameBut.mk <;> first | exact Base.Has.no | exact fun _ => rfl)) only [keeps_mk]
    | (apply State.SameBut.mk <;> first | exact Base.Has.no | exact fun _ => rfl))

theorem keeps_eraseAll {x0 : Base} [x0.Has .regs] [x0.Has .hbm] [x0.Has .facets] [x0.Has .arrs] [x0.Has .larrs]
    [x0.Has .outJobs] [x0.Has .fbPlaces] [x0.Has .staged] [x0.Has .regions] [x0.Has .calStore]
    [x0.Has .loader] [x0.Has .faults] [x0.Has .vault] [x0.Has .boot] [x0.Has .sec] [x0.Has .link]
    [x0.Has .plant] [x0.Has .power] [x0.Has .tap] [x0.Has .noc] [x0.Has .serve] [x0.Has .kv]
    [x0.Has .hub] [x0.Has .ctl] [x0.Has .raises] [x0.Has .free] [x0.Has .out]
    (s : State) (n : Nat) (hk : x0.Keeps s) :
    x0.Keeps (State.eraseAll s n) := by
  unfold State.eraseAll
  with_reducible repeat' (first
    | exact hk | assumption | apply keeps_showValid | apply keeps_wr | apply keeps_setReg | apply keeps_vput
    | apply keeps_enterReset | apply keeps_beginSeq | apply keeps_setReg | apply keeps_foldl_fst | apply keeps_foldl
    | apply keeps_ite | split | (intro _)
    | simp (disch := (apply State.SameBut.mk <;> first | exact Base.Has.no | exact fun _ => rfl)) only [keeps_mk]
    | (apply State.SameBut.mk <;> first | exact Base.Has.no | exact fun _ => rfl))

theorem keeps_alarm {x0 : Base} [x0.Has .regs] [x0.Has .hbm] [x0.Has .facets] [x0.Has .arrs] [x0.Has .larrs]
    [x0.Has .outJobs] [x0.Has .fbPlaces] [x0.Has .staged] [x0.Has .regions] [x0.Has .calStore]
    [x0.Has .loader] [x0.Has .faults] [x0.Has .vault] [x0.Has .boot] [x0.Has .sec] [x0.Has .link]
    [x0.Has .plant] [x0.Has .power] [x0.Has .tap] [x0.Has .noc] [x0.Has .serve] [x0.Has .kv]
    [x0.Has .hub] [x0.Has .ctl] [x0.Has .raises] [x0.Has .free] [x0.Has .out]
    (s : State) (n : Nat) (injected dry : Bool) (hk : x0.Keeps s) :
    x0.Keeps (State.alarm s n injected dry) := by
  unfold State.alarm
  with_reducible repeat' (first
    | exact hk | assumption | apply keeps_eraseAll | apply keeps_lock | apply keeps_alarmA1 | apply keeps_ite | split
    | (intro _)
    | simp (disch := (apply State.SameBut.mk <;> first | exact Base.Has.no | exact fun _ => rfl)) only [keeps_mk])

theorem keeps_sensor {x0 : Base} [x0.Has .regs] [x0.Has .hbm] [x0.Has .facets] [x0.Has .arrs] [x0.Has .larrs]
    [x0.Has .outJobs] [x0.Has .fbPlaces] [x0.Has .staged] [x0.Has .regions] [x0.Has .calStore]
    [x0.Has .loader] [x0.Has .faults] [x0.Has .vault] [x0.Has .boot] [x0.Has .sec] [x0.Has .link]
    [x0.Has .plant] [x0.Has .power] [x0.Has .tap] [x0.Has .noc] [x0.Has .serve] [x0.Has .kv]
    [x0.Has .hub] [x0.Has .ctl] [x0.Has .raises] [x0.Has .free] [x0.Has .out]
    (s : State) (n : Nat) (present : Bool) (hk : x0.Keeps s) :
    x0.Keeps (State.sensor s n present) := by
  unfold State.sensor
  with_reducible repeat' (first
    | exact hk | assumption | apply keeps_wr | apply keeps_alarm | apply keeps_ite | split | (intro _)
    | simp (disch := (apply State.SameBut.mk <;> first | exact Base.Has.no | exact fun _ => rfl)) only [keeps_mk])

theorem keeps_execSensorAlarm {x0 : Base} [x0.Has .regs] [x0.Has .hbm] [x0.Has .facets] [x0.Has .arrs] [x0.Has .larrs]
    [x0.Has .outJobs] [x0.Has .fbPlaces] [x0.Has .staged] [x0.Has .regions] [x0.Has .calStore]
    [x0.Has .loader] [x0.Has .faults] [x0.Has .vault] [x0.Has .boot] [x0.Has .sec] [x0.Has .link]
    [x0.Has .plant] [x0.Has .power] [x0.Has .tap] [x0.Has .noc] [x0.Has .serve] [x0.Has .kv]
    [x0.Has .hub] [x0.Has .ctl] [x0.Has .raises] [x0.Has .free] [x0.Has .out]
    (n : Nat) (present : Bool) (s : State) (hk : x0.Keeps s) :
    KeepsRes x0 (execSensorAlarm n present s) := by
  unfold execSensorAlarm
  with_reducible repeat' (first
    | exact hk | assumption | apply keepsRes_next | apply keepsRes_ite | apply keeps_sensor | apply keeps_ite | split)

theorem keeps_execEraseComplete {x0 : Base} [x0.Has .regs] [x0.Has .sec] [x0.Has .raises] (s : State) (hk : x0.Keeps s) :
    KeepsRes x0 (execEraseComplete s) := by
  unfold execEraseComplete
  with_reducible repeat' (first
    | exact hk | assumption | apply keepsRes_next | apply keepsRes_ite | apply keeps_wr | apply keeps_secEvent
    | apply keeps_ite | split | (intro _)
    | simp (disch := (apply State.SameBut.mk <;> first | exact Base.Has.no | exact fun _ => rfl)) only [keeps_mk]
    | (apply State.SameBut.mk <;> first | exact Base.Has.no | exact fun _ => rfl))

theorem keeps_execSecAlarmClassWrite {x0 : Base} [x0.Has .regs] (n value : Nat) (s : State) (hk : x0.Keeps s) :
    KeepsRes x0 (execSecAlarmClassWrite n value s) := by
  unfold execSecAlarmClassWrite
  with_reducible repeat' (first
    | exact hk | assumption | apply keepsRes_next | apply keepsRes_ite | apply keeps_wr | apply keeps_ite | split
    | (intro _)
    | simp (disch := (apply State.SameBut.mk <;> first | exact Base.Has.no | exact fun _ => rfl)) only [keeps_mk])

theorem keeps_execD2dChallenge {x0 : Base} [x0.Has .regs] [x0.Has .hbm] [x0.Has .facets] [x0.Has .arrs] [x0.Has .larrs]
    [x0.Has .outJobs] [x0.Has .fbPlaces] [x0.Has .staged] [x0.Has .regions] [x0.Has .calStore]
    [x0.Has .loader] [x0.Has .faults] [x0.Has .vault] [x0.Has .boot] [x0.Has .sec] [x0.Has .link]
    [x0.Has .plant] [x0.Has .power] [x0.Has .tap] [x0.Has .noc] [x0.Has .serve] [x0.Has .kv]
    [x0.Has .hub] [x0.Has .ctl] [x0.Has .raises] [x0.Has .free] [x0.Has .out]
    (h : Nat) (failing : List Nat) (s : State) (hk : x0.Keeps s) :
    KeepsRes x0 (execD2dChallenge h failing s) := by
  unfold execD2dChallenge
  with_reducible repeat' (first
    | exact hk | assumption | apply keepsRes_next | apply keepsRes_ite | apply keeps_sensor | apply keeps_ite | split)

theorem keeps_execFltFenceWrite {x0 : Base} [x0.Has .regs] [x0.Has .hbm] [x0.Has .facets] [x0.Has .arrs] [x0.Has .staged]
    [x0.Has .regions] [x0.Has .loader] [x0.Has .faults] [x0.Has .vault] [x0.Has .boot] [x0.Has .link]
    [x0.Has .noc] [x0.Has .serve] [x0.Has .ctl] [x0.Has .raises] [x0.Has .out]
    (value : Nat) (s : State) (hk : x0.Keeps s) :
    KeepsRes x0 (execFltFenceWrite value s) := by
  unfold execFltFenceWrite
  with_reducible repeat' (first
    | exact hk | assumption | apply keepsRes_next | apply keepsRes_ite | apply keeps_wr | apply keeps_fenceUnit
    | apply keeps_ite | split)

theorem keeps_execMapAppendTimeout {x0 : Base} [x0.Has .regs] [x0.Has .faults] (s : State) (hk : x0.Keeps s) :
    KeepsRes x0 (execMapAppendTimeout s) := by
  unfold execMapAppendTimeout
  with_reducible repeat' (first
    | exact hk | assumption | apply keepsRes_next | apply keeps_appendMap | apply keeps_foldl_fst | apply keeps_foldl
    | (intro _)
    | simp (disch := (apply State.SameBut.mk <;> first | exact Base.Has.no | exact fun _ => rfl)) only [keeps_mk]
    | (apply State.SameBut.mk <;> first | exact Base.Has.no | exact fun _ => rfl))

theorem keeps_execMrRunStart {x0 : Base} [x0.Has .regions] (g : Nat) (s : State) (hk : x0.Keeps s) :
    KeepsRes x0 (execMrRunStart g s) := by
  unfold execMrRunStart
  with_reducible repeat' (first
    | exact hk | assumption | apply keepsRes_next | apply keepsRes_ite | apply keeps_setRegion | apply keeps_ite | split
    | (intro _)
    | simp (disch := (apply State.SameBut.mk <;> first | exact Base.Has.no | exact fun _ => rfl)) only [keeps_mk]
    | (apply State.SameBut.mk <;> first | exact Base.Has.no | exact fun _ => rfl))

theorem keeps_execMrSnapshotDone {x0 : Base} [x0.Has .regions] (g : Nat) (s : State) (hk : x0.Keeps s) :
    KeepsRes x0 (execMrSnapshotDone g s) := by
  unfold execMrSnapshotDone
  with_reducible repeat' (first
    | exact hk | assumption | apply keepsRes_next | apply keepsRes_ite | apply keeps_setRegion | apply keeps_ite | split
    | simp (disch := (apply State.SameBut.mk <;> first | exact Base.Has.no | exact fun _ => rfl)) only [keeps_mk]
    | (apply State.SameBut.mk <;> first | exact Base.Has.no | exact fun _ => rfl))

theorem keeps_runPassed {x0 : Base} [x0.Has .regs] [x0.Has .regions] (s : State) (g slot : Nat) (hk : x0.Keeps s) :
    x0.Keeps (State.runPassed s g slot) := by
  unfold State.runPassed
  with_reducible repeat' (first
    | exact hk | assumption | apply keeps_setRegion | apply keeps_bump | apply keeps_ite | split | (intro _)
    | simp (disch := (apply State.SameBut.mk <;> first | exact Base.Has.no | exact fun _ => rfl)) only [keeps_mk]
    | (apply State.SameBut.mk <;> first | exact Base.Has.no | exact fun _ => rfl))

theorem keeps_execMrMirrorStepEnd {x0 : Base} [x0.Has .regs] [x0.Has .regions] [x0.Has .raises] (g : Nat) (overflow : Bool) (first diff : Option MOut) (s : State) (hk : x0.Keeps s) :
    KeepsRes x0 (execMrMirrorStepEnd g overflow first diff s) := by
  unfold execMrMirrorStepEnd
  with_reducible repeat' (first
    | exact hk | assumption | apply keepsRes_next | apply keepsRes_ite | apply keeps_setRegion | apply keeps_injDone
    | apply keeps_voidRun | apply keeps_runPassed | apply keeps_ite | split | (intro _)
    | simp (disch := (apply State.SameBut.mk <;> first | exact Base.Has.no | exact fun _ => rfl)) only [keeps_mk]
    | (apply State.SameBut.mk <;> first | exact Base.Has.no | exact fun _ => rfl))

theorem keeps_countConf {x0 : Base} [x0.Has .regs] (s : State) (g slot : Nat) (hk : x0.Keeps s) :
    x0.Keeps (State.countConf s g slot) := by
  unfold State.countConf
  with_reducible repeat' (first
    | exact hk | assumption | apply keeps_wr | (intro _)
    | simp (disch := (apply State.SameBut.mk <;> first | exact Base.Has.no | exact fun _ => rfl)) only [keeps_mk])

theorem keeps_putFocus {x0 : Base} [x0.Has .regions] (s : State) (g slot : Nat) (hk : x0.Keeps s) :
    x0.Keeps (State.putFocus s g slot) := by
  unfold State.putFocus
  with_reducible repeat' (first
    | exact hk | assumption | apply keeps_setRegion | (intro _)
    | simp (disch := (apply State.SameBut.mk <;> first | exact Base.Has.no | exact fun _ => rfl)) only [keeps_mk]
    | (apply State.SameBut.mk <;> first | exact Base.Has.no | exact fun _ => rfl))

theorem keeps_execMrReplayDone {x0 : Base} [x0.Has .regs] [x0.Has .hbm] [x0.Has .facets] [x0.Has .staged] [x0.Has .regions]
    [x0.Has .faults] [x0.Has .noc] [x0.Has .serve] [x0.Has .raises]
    (g : Nat) (before : Bool) (replay : List Byte) (s : State) (hk : x0.Keeps s) :
    KeepsRes x0 (execMrReplayDone g before replay s) := by
  unfold execMrReplayDone
  with_reducible repeat' (first
    | exact hk | assumption | apply keepsRes_next | apply keepsRes_ite | apply keeps_dropRun | apply keeps_countConf
    | apply keeps_replay | apply keeps_raise | apply keeps_cper | apply keeps_putFocus | apply keeps_fenceFacet
    | apply keeps_bump | apply keeps_ite | split | (intro _)
    | simp (disch := (apply State.SameBut.mk <;> first | exact Base.Has.no | exact fun _ => rfl)) only [keeps_mk]
    | (apply State.SameBut.mk <;> first | exact Base.Has.no | exact fun _ => rfl))

theorem keeps_hubUe {x0 : Base} [x0.Has .regs] [x0.Has .hbm] [x0.Has .faults] [x0.Has .hub] [x0.Has .raises] (s : State) (a : Nat) (inj : Bool) (hk : x0.Keeps s) :
    x0.Keeps (State.hubUe s a inj) := by
  unfold State.hubUe
  with_reducible repeat' (first
    | exact hk | assumption | apply keeps_cper | apply keeps_bump | apply keeps_ite | split | (intro _)
    | simp (disch := (apply State.SameBut.mk <;> first | exact Base.Has.no | exact fun _ => rfl)) only [keeps_mk]
    | apply keeps_mk_hub_setPoison | apply keeps_mk_hub_write2 | apply keeps_mk_hub_writeByte | apply keeps_mk_hub_write
    | (apply State.SameBut.mk <;> first | exact Base.Has.no | exact fun _ => rfl))

theorem keeps_injectNow {x0 : Base} [x0.Has .regs] [x0.Has .hbm] [x0.Has .facets] [x0.Has .arrs] [x0.Has .larrs]
    [x0.Has .outJobs] [x0.Has .fbPlaces] [x0.Has .staged] [x0.Has .regions] [x0.Has .calStore]
    [x0.Has .loader] [x0.Has .faults] [x0.Has .vault] [x0.Has .boot] [x0.Has .sec] [x0.Has .link]
    [x0.Has .plant] [x0.Has .power] [x0.Has .tap] [x0.Has .noc] [x0.Has .serve] [x0.Has .kv]
    [x0.Has .hub] [x0.Has .ctl] [x0.Has .raises] [x0.Has .free] [x0.Has .out]
    (s : State) (kind : Nat) (hk : x0.Keeps s) : KeepsOpt x0 (s.injectNow kind) := by
  delta State.injectNow
  refine keepsOpt_ite (keepsOpt_some (keeps_asyncCore _ _ _ hk)) (keepsOpt_ite (keepsOpt_some (keeps_asyncCore _ _ _ hk))
    (keepsOpt_ite (keepsOpt_some (keeps_asyncCore _ _ _ hk)) (keepsOpt_ite (keepsOpt_some ((keeps_mk (by apply State.SameBut.mk <;> first | exact Base.Has.no | exact fun _ => rfl)).2 hk))
    (keepsOpt_ite (keepsOpt_some ((keeps_mk (by apply State.SameBut.mk <;> first | exact Base.Has.no | exact fun _ => rfl)).2 hk)) (keepsOpt_ite (keepsOpt_some (keeps_hubUe _ _ _ hk))
    (keepsOpt_ite (keepsOpt_some ?_) (keepsOpt_ite (keepsOpt_some (keeps_ite (keeps_cper _ _ hk) (keeps_ite hk (keeps_fenceD2d _ _ _ hk))))
    (keepsOpt_ite ?_ (keepsOpt_ite (keepsOpt_some (keeps_alarm _ _ _ _ hk)) (keepsOpt_none _))))))))))
  · have h := keeps_ite (c := s.rd (.CORE_STAT (descMajor (s.reg .FLT_INJ_SEL))) F.CORE_STAT.lc < 16)
      (keeps_raise _ ⟨2 ^ 16 + s.rd (.CORE_STAT (descMajor (s.reg .FLT_INJ_SEL))) F.CORE_STAT.lc * 64 + 32, 0, 0xFFFF, 0xFFFF, []⟩ hk) hk
    exact keeps_ite (keeps_cper _ _ h) (keeps_fenceCore _ _ _ _ h)
  · generalize h : execRefclkFail s = r
    cases r with
    | next t => exact keepsOpt_some (keeps_execRefclkFail _ hk _ h)
    | fault f => exact keepsOpt_none _
    | refused f => exact keepsOpt_none _
theorem keeps_execFltInjArm {x0 : Base} [x0.Has .regs] [x0.Has .hbm] [x0.Has .facets] [x0.Has .arrs] [x0.Has .larrs]
    [x0.Has .outJobs] [x0.Has .fbPlaces] [x0.Has .staged] [x0.Has .regions] [x0.Has .calStore]
    [x0.Has .loader] [x0.Has .faults] [x0.Has .vault] [x0.Has .boot] [x0.Has .sec] [x0.Has .link]
    [x0.Has .plant] [x0.Has .power] [x0.Has .tap] [x0.Has .noc] [x0.Has .serve] [x0.Has .kv]
    [x0.Has .hub] [x0.Has .ctl] [x0.Has .raises] [x0.Has .free] [x0.Has .out]
    (value : Nat) (s : State) (hk : x0.Keeps s) : KeepsRes x0 (execFltInjArm value s) := by
  delta execFltInjArm
  extract_lets +onlyGivenNames r kind s1 s2 s3
  have h1 : x0.Keeps s1 := keeps_wr _ _ _ _ (keeps_wr _ _ _ _ (keeps_wr _ _ _ _ hk))
  have h2 : x0.Keeps s2 := keeps_ite (keeps_wr _ _ _ _ h1) h1
  have h3 : x0.Keeps s3 := keeps_ite (keeps_wr _ _ _ _ h2) h2
  clear_value s3
  refine keepsRes_ite (keepsRes_next h3) (keepsRes_ite (keepsRes_next (keeps_wr _ _ _ _ h3)) ?_)
  extract_lets +onlyGivenNames s4
  have h4 : x0.Keeps s4 := keeps_wr _ _ _ _ h3
  generalize h : s4.injDone.injectNow kind = o
  cases o with
  | none => exact keepsRes_next h4
  | some t => exact keepsRes_next (keeps_injectNow _ _ (keeps_injDone _ h4) _ h)
theorem keeps_sendSlot {x0 : Base} [x0.Has .out] (s : State) (k : Nat) (hk : x0.Keeps s) :
    x0.Keeps (State.sendSlot s k) := by
  unfold State.sendSlot
  with_reducible repeat' (first
    | exact hk | assumption | apply keeps_emit | apply keeps_cper | (intro _)
    | simp (disch := (apply State.SameBut.mk <;> first | exact Base.Has.no | exact fun _ => rfl)) only [keeps_mk])

theorem keeps_execCperExport {x0 : Base} [x0.Has .faults] [x0.Has .out] (s : State) (hk : x0.Keeps s) :
    KeepsRes x0 (execCperExport s) := by
  unfold execCperExport
  with_reducible repeat' (first
    | exact hk | assumption | apply keepsRes_next | apply keepsRes_ite | apply keeps_sendSlot | apply keeps_ite | split
    | simp (disch := (apply State.SameBut.mk <;> first | exact Base.Has.no | exact fun _ => rfl)) only [keeps_mk]
    | (apply State.SameBut.mk <;> first | exact Base.Has.no | exact fun _ => rfl))

theorem keeps_execCperResend {x0 : Base} [x0.Has .regs] [x0.Has .faults] [x0.Has .out] (value : Nat) (s : State) (hk : x0.Keeps s) :
    KeepsRes x0 (execCperResend value s) := by
  unfold execCperResend
  with_reducible repeat' (first
    | exact hk | assumption | apply keepsRes_next | apply keepsRes_ite | apply keeps_wr | apply keeps_sendSlot
    | apply keeps_ite | split | (intro _)
    | simp (disch := (apply State.SameBut.mk <;> first | exact Base.Has.no | exact fun _ => rfl)) only [keeps_mk]
    | (apply State.SameBut.mk <;> first | exact Base.Has.no | exact fun _ => rfl))

theorem keeps_execTimeInEdge {x0 : Base} [x0.Has .regs] [x0.Has .raises] (ns : Nat) (s : State) (hk : x0.Keeps s) :
    KeepsRes x0 (execTimeInEdge ns s) := by
  unfold execTimeInEdge
  with_reducible repeat' (first
    | exact hk | assumption | apply keepsRes_next | apply keepsRes_ite | apply keeps_wr | apply keeps_raise
    | apply keeps_ite | split | (intro _)
    | simp (disch := (apply State.SameBut.mk <;> first | exact Base.Has.no | exact fun _ => rfl)) only [keeps_mk])

theorem keeps_execFrameToSoftware {x0 : Base} [x0.Has .regs] [x0.Has .hbm] [x0.Has .raises] (p : Nat) (frame : List Byte) (fcs poison : Bool) (s : State) (hk : x0.Keeps s) :
    KeepsRes x0 (execFrameToSoftware p frame fcs poison s) := by
  unfold execFrameToSoftware
  with_reducible repeat' (first
    | exact hk | assumption | apply keepsRes_next | apply keepsRes_ite | apply keeps_wr | apply keeps_hbmWrite
    | apply keeps_raise | apply keeps_bump | apply keeps_ite | split | (intro _)
    | simp (disch := (apply State.SameBut.mk <;> first | exact Base.Has.no | exact fun _ => rfl)) only [keeps_mk])

theorem keeps_execNetTxSend {x0 : Base} [x0.Has .regs] [x0.Has .hbm] [x0.Has .raises] [x0.Has .out] (k : Nat) (s : State) (hk : x0.Keeps s) :
    KeepsRes x0 (execNetTxSend k s) := by
  unfold execNetTxSend
  with_reducible repeat' (first
    | exact hk | assumption | apply keepsRes_next | apply keepsRes_ite | apply keeps_wr | apply keeps_hbmWrite
    | apply keeps_emit | apply keeps_poisonSeen | apply keeps_ite | split | (intro _)
    | simp (disch := (apply State.SameBut.mk <;> first | exact Base.Has.no | exact fun _ => rfl)) only [keeps_mk])

theorem keeps_execSportEnable {x0 : Base} [x0.Has .regs] [x0.Has .raises] (q value lanes : Nat) (s : State) (hk : x0.Keeps s) :
    KeepsRes x0 (execSportEnable q value lanes s) := by
  unfold execSportEnable
  with_reducible repeat' (first
    | exact hk | assumption | apply keepsRes_next | apply keepsRes_ite | apply keeps_wr | apply keeps_raise
    | apply keeps_ite | split | (intro _)
    | simp (disch := (apply State.SameBut.mk <;> first | exact Base.Has.no | exact fun _ => rfl)) only [keeps_mk])

theorem keeps_execMgmtPortEnable {x0 : Base} [x0.Has .regs] [x0.Has .raises] (value : Nat) (ok : Bool) (s : State) (hk : x0.Keeps s) :
    KeepsRes x0 (execMgmtPortEnable value ok s) := by
  unfold execMgmtPortEnable
  with_reducible repeat' (first
    | exact hk | assumption | apply keepsRes_next | apply keepsRes_ite | apply keeps_wr | apply keeps_raise
    | apply keeps_ite | split | (intro _)
    | simp (disch := (apply State.SameBut.mk <;> first | exact Base.Has.no | exact fun _ => rfl)) only [keeps_mk])

theorem keeps_execPcieEnable {x0 : Base} [x0.Has .regs] [x0.Has .raises] (h value speed width : Nat) (s : State) (hk : x0.Keeps s) :
    KeepsRes x0 (execPcieEnable h value speed width s) := by
  unfold execPcieEnable
  with_reducible repeat' (first
    | exact hk | assumption | apply keepsRes_next | apply keepsRes_ite | apply keeps_wr | apply keeps_raise
    | apply keeps_ite | split | (intro _)
    | simp (disch := (apply State.SameBut.mk <;> first | exact Base.Has.no | exact fun _ => rfl)) only [keeps_mk])

theorem keeps_bytesWrite {x0 : Base} [x0.Has .regs] [x0.Has .hbm] (s : State) (a : Nat) (bs : List Byte) (poison : Bool) (hk : x0.Keeps s) :
    x0.Keeps (State.bytesWrite s a bs poison) := by
  unfold State.bytesWrite
  with_reducible repeat' (first
    | exact hk | assumption | apply keeps_sectorWrite | apply keeps_foldl_fst | apply keeps_foldl | (intro _)
    | simp (disch := (apply State.SameBut.mk <;> first | exact Base.Has.no | exact fun _ => rfl)) only [keeps_mk])

theorem keeps_execPcieInbound {x0 : Base} [x0.Has .regs] [x0.Has .hbm] [x0.Has .faults] [x0.Has .raises] [x0.Has .out] (h addr n : Nat) (data : Option (List Byte)) (ep : Bool) (s : State) (hk : x0.Keeps s) :
    KeepsRes x0 (execPcieInbound h addr n data ep s) := by
  unfold execPcieInbound
  with_reducible repeat' (first
    | exact hk | assumption | apply keepsRes_next | apply keepsRes_ite | apply keeps_sectorsRead | apply keeps_bytesWrite
    | apply keeps_emit | apply keeps_raise | apply keeps_bump | apply keeps_ite | split | (intro _)
    | simp (disch := (apply State.SameBut.mk <;> first | exact Base.Has.no | exact fun _ => rfl)) only [keeps_mk]
    | (apply State.SameBut.mk <;> first | exact Base.Has.no | exact fun _ => rfl))

theorem keeps_execPcieObAccess {x0 : Base} [x0.Has .regs] [x0.Has .out] (h : Nat) (write : Option Nat) (answer : Option Nat) (s : State) (hk : x0.Keeps s) :
    KeepsRes x0 (execPcieObAccess h write answer s) := by
  unfold execPcieObAccess
  with_reducible repeat' (first
    | exact hk | assumption | apply keepsRes_next | apply keepsRes_ite | apply keeps_wr | apply keeps_emit
    | apply keeps_ite | split | (intro _)
    | simp (disch := (apply State.SameBut.mk <;> first | exact Base.Has.no | exact fun _ => rfl)) only [keeps_mk]
    | (apply State.SameBut.mk <;> first | exact Base.Has.no | exact fun _ => rfl))

theorem keeps_tapIr {x0 : Base} [x0.Has .tap] (s : State) (ir : Nat) (hk : x0.Keeps s) :
    x0.Keeps (State.tapIr s ir) := by
  unfold State.tapIr
  with_reducible repeat' (first
    | exact hk | assumption | apply keeps_ite | split | (intro _)
    | simp (disch := (apply State.SameBut.mk <;> first | exact Base.Has.no | exact fun _ => rfl)) only [keeps_mk]
    | (apply State.SameBut.mk <;> first | exact Base.Has.no | exact fun _ => rfl))

theorem keeps_execTapBypass {x0 : Base} [x0.Has .tap] [x0.Has .out] (s : State) (hk : x0.Keeps s) :
    KeepsRes x0 (execTapBypass s) := by
  unfold execTapBypass
  with_reducible repeat' (first | exact hk | assumption | apply keepsRes_next | apply keeps_tapIr | apply keeps_emit)

theorem keeps_execTapIdcode {x0 : Base} [x0.Has .tap] [x0.Has .out] (s : State) (hk : x0.Keeps s) :
    KeepsRes x0 (execTapIdcode s) := by
  unfold execTapIdcode
  with_reducible repeat' (first | exact hk | assumption | apply keepsRes_next | apply keeps_tapIr | apply keeps_emit)

theorem keeps_execTapSamplePreload {x0 : Base} [x0.Has .tap] [x0.Has .out] (pins load : List Bool) (s : State) (hk : x0.Keeps s) :
    KeepsRes x0 (execTapSamplePreload pins load s) := by
  unfold execTapSamplePreload
  with_reducible repeat' (first
    | exact hk | assumption | apply keepsRes_next | apply keeps_emit | apply keeps_tapIr | (intro _)
    | simp (disch := (apply State.SameBut.mk <;> first | exact Base.Has.no | exact fun _ => rfl)) only [keeps_mk]
    | (apply State.SameBut.mk <;> first | exact Base.Has.no | exact fun _ => rfl))

theorem keeps_execTapExtest {x0 : Base} [x0.Has .tap] [x0.Has .out] (pins load : List Bool) (s : State) (hk : x0.Keeps s) :
    KeepsRes x0 (execTapExtest pins load s) := by
  unfold execTapExtest
  with_reducible repeat' (first
    | exact hk | assumption | apply keepsRes_next | apply keepsRes_ite | apply keeps_emit | apply keeps_tapIr
    | apply keeps_ite | split | (intro _)
    | simp (disch := (apply State.SameBut.mk <;> first | exact Base.Has.no | exact fun _ => rfl)) only [keeps_mk]
    | (apply State.SameBut.mk <;> first | exact Base.Has.no | exact fun _ => rfl))

theorem keeps_execTapClamp {x0 : Base} [x0.Has .tap] [x0.Has .out] (s : State) (hk : x0.Keeps s) :
    KeepsRes x0 (execTapClamp s) := by
  unfold execTapClamp
  with_reducible repeat' (first | exact hk | assumption | apply keepsRes_next | apply keeps_emit | apply keeps_tapIr)

theorem keeps_execTapHighz {x0 : Base} [x0.Has .tap] [x0.Has .out] (s : State) (hk : x0.Keeps s) :
    KeepsRes x0 (execTapHighz s) := by
  unfold execTapHighz
  with_reducible repeat' (first | exact hk | assumption | apply keepsRes_next | apply keeps_tapIr | apply keeps_emit)

theorem keeps_execTapReset {x0 : Base} [x0.Has .tap] (s : State) (hk : x0.Keeps s) :
    KeepsRes x0 (execTapReset s) := by
  unfold execTapReset
  with_reducible repeat' (first
    | exact hk | assumption | apply keepsRes_next
    | simp (disch := (apply State.SameBut.mk <;> first | exact Base.Has.no | exact fun _ => rfl)) only [keeps_mk]
    | (apply State.SameBut.mk <;> first | exact Base.Has.no | exact fun _ => rfl))

theorem keeps_execLoupeTrigIn {x0 : Base} [x0.Has .ctl] (s : State) (hk : x0.Keeps s) :
    KeepsRes x0 (execLoupeTrigIn s) := by
  unfold execLoupeTrigIn
  with_reducible repeat' (first
    | exact hk | assumption | apply keepsRes_next | apply keepsRes_ite | apply keeps_setCtl | apply keeps_ite | split
    | simp (disch := (apply State.SameBut.mk <;> first | exact Base.Has.no | exact fun _ => rfl)) only [keeps_mk]
    | (apply State.SameBut.mk <;> first | exact Base.Has.no | exact fun _ => rfl))

theorem keeps_execLoupeSample {x0 : Base} [x0.Has .regs] [x0.Has .out] (s : State) (hk : x0.Keeps s) :
    KeepsRes x0 (execLoupeSample s) := by
  unfold execLoupeSample
  with_reducible repeat' (first
    | exact hk | assumption | apply keepsRes_next | apply keepsRes_ite | apply keeps_loupeSend | apply keeps_ite | split
    | (intro _)
    | simp (disch := (apply State.SameBut.mk <;> first | exact Base.Has.no | exact fun _ => rfl)) only [keeps_mk])

theorem keeps_execHubLinkLoss {x0 : Base} [x0.Has .regs] [x0.Has .hbm] [x0.Has .faults] [x0.Has .boot] [x0.Has .ctl]
    [x0.Has .raises] [x0.Has .out]
    (h : Nat) (s : State) (hk : x0.Keeps s) :
    KeepsRes x0 (execHubLinkLoss h s) := by
  unfold execHubLinkLoss
  with_reducible repeat' (first
    | exact hk | assumption | apply keepsRes_next | apply keepsRes_ite | apply keeps_fenceHub | apply keeps_ite | split)

theorem keeps_execD2dLaneFailure {x0 : Base} [x0.Has .regs] [x0.Has .hbm] [x0.Has .facets] [x0.Has .staged] [x0.Has .regions]
    [x0.Has .faults] [x0.Has .vault] [x0.Has .noc] [x0.Has .serve] [x0.Has .raises]
    (die hub lane : Nat) (group : Bool) (s : State) (hk : x0.Keeps s) :
    KeepsRes x0 (execD2dLaneFailure die hub lane group s) := by
  unfold execD2dLaneFailure
  with_reducible repeat' (first
    | exact hk | assumption | apply keepsRes_next | apply keepsRes_ite | apply keeps_fenceDie | apply keeps_fenceD2d
    | apply keeps_ite | split | (intro _)
    | simp (disch := (apply State.SameBut.mk <;> first | exact Base.Has.no | exact fun _ => rfl)) only [keeps_mk])

theorem keeps_execHbmChannelRetrainFail {x0 : Base} [x0.Has .regs] [x0.Has .hbm] [x0.Has .faults] [x0.Has .raises] (k c : Nat) (s : State) (hk : x0.Keeps s) :
    KeepsRes x0 (execHbmChannelRetrainFail k c s) := by
  unfold execHbmChannelRetrainFail
  with_reducible repeat' (first
    | exact hk | assumption | apply keepsRes_next | apply keepsRes_ite | apply keeps_fenceChannel | apply keeps_ite
    | split)

theorem keeps_store {x0 : Base} [x0.Has .regs] (s : State) (r : Reg) (value : Nat) (but : List String := []) (hk : x0.Keeps s) :
    x0.Keeps (State.store s r value but) := by
  unfold State.store
  with_reducible repeat' (first
    | exact hk | assumption | apply keeps_setReg | apply keeps_setReg | apply keeps_foldl_fst | apply keeps_foldl
    | apply keeps_ite | split | (intro _))

theorem keeps_svcStore {x0 : Base} [x0.Has .regs] (s : State) (sv : Nat) (r : Reg) (value : Nat) (hk : x0.Keeps s) :
    x0.Keeps (State.svcStore s sv r value) := by
  unfold State.svcStore
  with_reducible repeat' (first
    | exact hk | assumption | apply keeps_store | apply keeps_bump | apply keeps_ite | split)

theorem keeps_plainWrite {x0 : Base} [x0.Has .regs] [x0.Has .power] [x0.Has .ctl] [x0.Has .out] (s : State) (r : Reg) (value : Nat) (hk : x0.Keeps s) :
    x0.Keeps (State.plainWrite s r value) := by
  unfold State.plainWrite
  with_reducible repeat' (first
    | exact hk | assumption | apply keeps_settleIrq | apply keeps_manualDuty | apply keeps_wr | apply keeps_store
    | apply keeps_setCtl | apply keeps_svcStore | apply keeps_ite | split | (intro _)
    | simp (disch := (apply State.SameBut.mk <;> first | exact Base.Has.no | exact fun _ => rfl)) only [keeps_mk]
    | (apply State.SameBut.mk <;> first | exact Base.Has.no | exact fun _ => rfl))

theorem keeps_poolCfgWrite {x0 : Base} [x0.Has .regs] [x0.Has .hbm] [x0.Has .kv] (s : State) (sv value : Nat) (hk : x0.Keeps s) :
    KeepsRes x0 (State.poolCfgWrite s sv value) := by
  unfold State.poolCfgWrite
  with_reducible repeat' (first
    | exact hk | assumption | apply keepsRes_next | apply keepsRes_ite | apply keeps_wr | apply keeps_store
    | apply keeps_execKvPoolEnable | apply keeps_execKvPoolDisable | apply keeps_ite | split | (intro _)
    | simp (disch := (apply State.SameBut.mk <;> first | exact Base.Has.no | exact fun _ => rfl)) only [keeps_mk])

theorem keeps_andThen {x0 : Base} {r : Res} {f : State → Res} (hr : KeepsRes x0 r) (hf : ∀ t, x0.Keeps t → KeepsRes x0 (f t)) :
    KeepsRes x0 (r.andThen f) := by
  unfold Res.andThen
  split
  · exact hf _ (hr _ rfl)
  · exact hr

theorem keeps_svcCtlWrite {x0 : Base} [x0.Has .regs] [x0.Has .hbm] [x0.Has .serve] [x0.Has .kv] [x0.Has .hub] [x0.Has .raises] (s : State) (sv value : Nat) (hk : x0.Keeps s) : KeepsRes x0 (s.svcCtlWrite sv value) := by
  unfold State.svcCtlWrite
  extract_lets +onlyGivenNames r s1 a
  have h1 : x0.Keeps s1 := keeps_wr _ _ _ _ hk
  clear_value s1
  refine keeps_andThen ?_ (fun t ht => ?_)
  · simp only [a]
    split
    · exact keeps_execServiceEnable _ _ h1
    · exact keeps_execServiceDisable _ _ h1
  · split
    · exact keeps_execSvcReadmit _ _ ht
    · exact keepsRes_next ht
theorem keeps_facCtlWrite {x0 : Base} [x0.Has .regs] [x0.Has .facets] (s : State) (pf value : Nat) (hk : x0.Keeps s) : KeepsRes x0 (s.facCtlWrite pf value) := by
  unfold State.facCtlWrite
  extract_lets +onlyGivenNames s1 a
  have h1 : x0.Keeps s1 := keeps_store _ _ _ _ hk
  clear_value s1
  split
  · exact keeps_execFacReset _ _ h1
  · refine keeps_andThen ?_ (fun t ht => ?_)
    · simp only [a]
      split
      · exact keeps_execFacRun _ _ h1
      · exact keepsRes_next h1
    · split
      · exact keeps_execFacStop _ _ ht
      · exact keepsRes_next ht
theorem keeps_keySelWrite {x0 : Base} [x0.Has .regs] [x0.Has .sec] (s : State) (value : Nat) (hk : x0.Keeps s) :
    x0.Keeps (State.keySelWrite s value) := by
  unfold State.keySelWrite
  with_reducible repeat' (first
    | exact hk | assumption | apply keeps_showValid | apply keeps_wr | apply keeps_keyWrite | apply keeps_ite | split
    | (intro _)
    | simp (disch := (apply State.SameBut.mk <;> first | exact Base.Has.no | exact fun _ => rfl)) only [keeps_mk])

theorem keeps_freeOutcome {x0 : Base} [x0.Has .free] (s : State) (hk : x0.Keeps s) :
    x0.Keeps (State.freeOutcome s).1 := by
  unfold State.freeOutcome
  with_reducible repeat' (first
    | exact hk | assumption
    | simp (disch := (apply State.SameBut.mk <;> first | exact Base.Has.no | exact fun _ => rfl)) only [keeps_mk]
    | apply keeps_mk_free | (apply State.SameBut.mk <;> first | exact Base.Has.no | exact fun _ => rfl))

theorem keeps_regWrite {x0 : Base} [x0.Has .regs] [x0.Has .hbm] [x0.Has .facets] [x0.Has .arrs] [x0.Has .larrs]
    [x0.Has .outJobs] [x0.Has .fbPlaces] [x0.Has .staged] [x0.Has .regions] [x0.Has .calStore]
    [x0.Has .loader] [x0.Has .faults] [x0.Has .vault] [x0.Has .boot] [x0.Has .sec] [x0.Has .link]
    [x0.Has .plant] [x0.Has .power] [x0.Has .tap] [x0.Has .noc] [x0.Has .serve] [x0.Has .kv]
    [x0.Has .hub] [x0.Has .ctl] [x0.Has .raises] [x0.Has .free] [x0.Has .out]
    (s : State) (r : Reg) (value : Nat) (hk : x0.Keeps s) :
    KeepsRes x0 (State.regWrite s r value) := by
  unfold State.regWrite
  with_reducible repeat' (first
    | exact hk | assumption | apply keepsRes_next | apply keepsRes_ite | apply keeps_execFwUpdate
    | apply keeps_execFacLoadGo | apply keeps_execCperResend | apply keeps_execTenShadowWrite | apply keeps_freeOutcome
    | apply keeps_secCmdWrite | apply keeps_execAcc16CtlWrite | apply keeps_execEvSrcWrite | apply keeps_facCtlWrite
    | apply keeps_execLfMapWrite | apply keeps_execSecAlarmClassWrite | apply keeps_execFacEpochWrite
    | apply keeps_execPcieEnable | apply keeps_execArrMapWrite | apply keeps_execEvRaiseWrite | apply keeps_execNwClear
    | apply keeps_svcCtlWrite | apply keeps_plainWrite | apply keeps_execMgmtPortEnable | apply keeps_execArrWinSelWrite
    | apply keeps_execEvComplete | apply keeps_execConvMapWrite | apply keeps_execSportEnable
    | apply keeps_execKvPoolStrideWrite | apply keeps_wr | apply keeps_poolCfgWrite | apply keeps_execFacBindWrite
    | apply keeps_execBudCfgWrite | apply keeps_execLinkCfgWrite | apply keeps_execChkWinSelWrite
    | apply keeps_execApCeilingWrite | apply keeps_execLinkPortEnable | apply keeps_execPrismRangeEnable
    | apply keeps_execPlantEnWrite | apply keeps_execConvFenceWrite | apply keeps_execEpochSwitch | apply keeps_store
    | apply keeps_execRegionClkWrite | apply keeps_execCoreHandover | apply keeps_execBarArm | apply keeps_execPcieObAccess
    | apply keeps_execFltInjArm | apply keeps_execSigWindowRelease | apply keeps_keySelWrite | apply keeps_ite | split
    | (intro _)
    | simp (disch := (apply State.SameBut.mk <;> first | exact Base.Has.no | exact fun _ => rfl)) only [keeps_mk]
    | (apply State.SameBut.mk <;> first | exact Base.Has.no | exact fun _ => rfl))

theorem keeps_hubStore {x0 : Base} [x0.Has .regs] [x0.Has .hub] [x0.Has .raises] (s : State) (o value : Nat) (hk : x0.Keeps s) : x0.Keeps (s.hubStore o value) := by
  unfold State.hubStore
  split
  · exact keeps_swReject _ hk
  · split
    · exact hk
    · refine keeps_mk_hub hk (fun w => ?_) (by apply State.SameBut.mk <;> first | exact Base.Has.no | exact fun _ => rfl)
      split
      · exact Mem.wf_setPoison _ _ _ (Mem.wf_writeNat _ _ _ _ w)
      · exact Mem.wf_writeNat _ _ _ _ w
theorem keeps_execRegisterWrite {x0 : Base} [x0.Has .regs] [x0.Has .hbm] [x0.Has .facets] [x0.Has .arrs] [x0.Has .larrs]
    [x0.Has .outJobs] [x0.Has .fbPlaces] [x0.Has .staged] [x0.Has .regions] [x0.Has .calStore]
    [x0.Has .loader] [x0.Has .faults] [x0.Has .vault] [x0.Has .boot] [x0.Has .sec] [x0.Has .link]
    [x0.Has .plant] [x0.Has .power] [x0.Has .tap] [x0.Has .noc] [x0.Has .serve] [x0.Has .kv]
    [x0.Has .hub] [x0.Has .ctl] [x0.Has .raises] [x0.Has .free] [x0.Has .out]
    (addr value : Nat) (s : State) (hk : x0.Keeps s) :
    KeepsRes x0 (execRegisterWrite addr value s) := by
  unfold execRegisterWrite
  with_reducible repeat' (first
    | exact hk | assumption | apply keepsRes_next | apply keepsRes_fault | apply keepsRes_ite | apply keeps_bytesWrite
    | apply keeps_execWindowWrite | apply keeps_regWrite | apply keeps_execCoreStart | apply keeps_execFltFenceWrite
    | apply keeps_execCheckWindowWrite | apply keeps_hubStore | apply keeps_ite | split | (intro _)
    | simp (disch := (apply State.SameBut.mk <;> first | exact Base.Has.no | exact fun _ => rfl)) only [keeps_mk]
    | (apply State.SameBut.mk <;> first | exact Base.Has.no | exact fun _ => rfl))

end Sys2Proof.Machine
end

