-- ==== Sys2Proof/Laws/Slots.lean ====
section
/-! SUPPORT. What a slot of a bundle does, said once: a slot that meets nothing leaves its working core in the bundle, a slot that
meets a cause records it. -/

namespace Sys2Proof.Machine

/-- The guard of a slot that executes lets its rule decide. -/
theorem guarded_of_goes {h : Hdr} {cls : List Nat} {dests : List (Nat × Nat)} {s : State} (g : SlotGoes h cls dests s)
    (run : FCore → FCore → SlotRes) :
    guarded h (s.facet h.pf).core (openBundle s h.pf).work run = run (s.facet h.pf).core (openBundle s h.pf).work := by
  obtain ⟨-, -, -, -, -, g6, g7, g8, g9⟩ := g
  have hr : ((s.facet h.pf).core.recvBad.contains h.pred && decide (h.pred ≠ 0)) = false := by
    cases hc : (s.facet h.pf).core.recvBad.contains h.pred
    · rfl
    · simp [g7 hc]
  have hv : (((s.facet h.pf).core.rdP h.pred).v != h.pneg) = true := by simpa using g9
  unfold guarded
  rw [g6]
  simp only [hr, g8, hv]
  rfl

/-- A slot that executes and whose rule gives a working core. -/
theorem slotStep_ok {h : Hdr} {cls : List Nat} {dests : List (Nat × Nat)} {run : State → FCore → FCore → SlotRes} {s : State}
    {w : FCore} (g : SlotGoes h cls dests s) (r : run s (s.facet h.pf).core (openBundle s h.pf).work = .ok w) :
    slotStep h cls dests false run s = slotDone h dests w s := by
  have hg := (guarded_of_goes g (run s)).trans r
  obtain ⟨g1, g2, g3, g4, g5, -⟩ := g
  have hf : decide ((s.facet h.pf).core.nBundles ≤ (s.facet h.pf).core.pc) = false := by simpa using g2
  unfold realDests openBundle at g5
  unfold openBundle at hg
  unfold slotStep
  simp only [g1, if_true, hg, g3, g4, hf, g5, Bool.not_true, Bool.or_false]
  rfl

/-- A slot that executes and whose rule raises a cause. -/
theorem slotStep_exc {h : Hdr} {cls : List Nat} {dests : List (Nat × Nat)} {run : State → FCore → FCore → SlotRes} {s : State}
    {code : Nat} (g : SlotGoes h cls dests s) (r : run s (s.facet h.pf).core (openBundle s h.pf).work = .exc code) :
    slotStep h cls dests false run s = slotRaises h dests code s := by
  have hg := (guarded_of_goes g (run s)).trans r
  obtain ⟨g1, g2, g3, g4, g5, -⟩ := g
  have hf : decide ((s.facet h.pf).core.nBundles ≤ (s.facet h.pf).core.pc) = false := by simpa using g2
  unfold realDests openBundle at g5
  unfold openBundle at hg
  unfold slotStep
  simp only [g1, if_true, hg, g3, g4, hf, g5, Bool.not_true, Bool.or_false]
  rfl

/-- A slot whose own fields make the bundle illegal (R178). -/
theorem slotStep_illegal {h : Hdr} {cls : List Nat} {dests : List (Nat × Nat)} {run : State → FCore → FCore → SlotRes} {s : State}
    (g : SlotGoes h cls dests s) : slotStep h cls dests true run s = slotRaises h dests 1 s := by
  obtain ⟨g1, g2, g3, g4, -⟩ := g
  unfold slotStep
  simp only [g1, if_true, g3, Bool.or_true, Bool.true_or]
  rfl

theorem coreSlot_ok {h : Hdr} {cls : List Nat} {dests : List (Nat × Nat)} {run : FCore → FCore → SlotRes} {s : State}
    {w : FCore} (g : SlotGoes h cls dests s) (r : run (s.facet h.pf).core (openBundle s h.pf).work = .ok w) :
    coreSlot h cls dests false run s = slotDone h dests w s := slotStep_ok (run := fun _ => run) g r

theorem coreSlot_exc {h : Hdr} {cls : List Nat} {dests : List (Nat × Nat)} {run : FCore → FCore → SlotRes} {s : State}
    {code : Nat} (g : SlotGoes h cls dests s) (r : run (s.facet h.pf).core (openBundle s h.pf).work = .exc code) :
    coreSlot h cls dests false run s = slotRaises h dests code s := slotStep_exc (run := fun _ => run) g r

theorem coreSlot_illegal {h : Hdr} {cls : List Nat} {dests : List (Nat × Nat)} {run : FCore → FCore → SlotRes} {s : State}
    (g : SlotGoes h cls dests s) : coreSlot h cls dests true run s = slotRaises h dests 1 s := slotStep_illegal g

/-- The rules of a slot that waits for nothing and meets no cause. -/
theorem waitFor_none {l : List (Option Nat)} (h : NoWait l) (k : SlotRes) : waitFor l k = k := by
  unfold waitFor; rw [h]

@[simp] theorem raiseIf_nil (k : SlotRes) : raiseIf [] k = k := rfl

/-- A first cause that does not hold is passed over. -/
@[simp] theorem raiseIf_false (n : Nat) (l : List (Bool × Nat)) (k : SlotRes) : raiseIf ((false, n) :: l) k = raiseIf l k := rfl

@[simp] theorem raiseIf_one (n : Nat) (k : SlotRes) : raiseIf [(true, n)] k = .exc n := rfl

/-- What a register form of the scalar slots does. -/
theorem srSlot_ok {h : Hdr} {rd ra rb : Nat} {ctl : Bool} {op : Word64 → Word64 → Word64} {s : State}
    (g : SlotGoes h [1, 2] [(0, rd)] s) (c : FCore) (ec : c = (s.facet h.pf).core) (nw : NoWait [c.pendS ra, c.pendS rb, c.pendS rd])
    (hc : (ctl && (c.rdS rb).p) = false) :
    srSlot h rd ra rb ctl op s =
      slotDone h [(0, rd)] ((openBundle s h.pf).work.wrS rd ⟨op (c.rdS ra).v (c.rdS rb).v, (c.rdS ra).p || (c.rdS rb).p⟩) s := by
  subst ec
  unfold srSlot
  refine coreSlot_ok g ?_
  rw [waitFor_none nw, hc, raiseIf_false, raiseIf_nil]

/-- What an immediate form of the scalar slots does. -/
theorem siSlot_ok {h : Hdr} {rd ra imm : Nat} {op : Word64 → Word64 → Word64} {s : State}
    (g : SlotGoes h [1, 2] [(0, rd)] s) (c : FCore) (ec : c = (s.facet h.pf).core) (nw : NoWait [c.pendS ra, c.pendS rd]) :
    siSlot h rd ra imm false op s =
      slotDone h [(0, rd)] ((openBundle s h.pf).work.wrS rd ⟨op (c.rdS ra).v (BitVec.ofInt 64 (sext 32 imm)), (c.rdS ra).p⟩) s := by
  subst ec
  unfold siSlot
  refine coreSlot_ok g ?_
  rw [waitFor_none nw]

/-- What a predicate result does. -/
theorem predSlot_ok {h : Hdr} {pd : Nat} {waits : FCore → List (Option Nat)} {bad : FCore → Bool} {val : FCore → PReg} {s : State}
    (g : SlotGoes h [1, 2] [(1, pd)] s) (c : FCore) (ec : c = (s.facet h.pf).core) (nw : NoWait (waits c ++ [c.pendP pd]))
    (hb : bad c = false) :
    predSlot h pd false waits bad val s = slotDone h [(1, pd)] ((openBundle s h.pf).work.wrP pd (val c)) s := by
  subst ec
  unfold predSlot
  refine coreSlot_ok g ?_
  rw [waitFor_none nw, hb, raiseIf_false, raiseIf_nil]

/-- Data SRAM without latent errors reads without an ECC action (R175). -/
theorem eccRange_none (pf : Nat) (c : FCore) (a n : Nat) (h1 : c.latentCe = []) (h2 : c.latentUe = []) : c.eccRange pf a n = c := by
  unfold FCore.eccRange
  generalize List.range _ = l
  induction l with
  | nil => rfl
  | cons x t ih => simp only [List.foldl_cons]; unfold FCore.eccRead; simp only [h1, h2, List.contains_nil]; exact ih

/-- INT32 saturation and its flag (R72). -/
theorem sat32_eq (i : Int) : (sat32 i).1 = max (-2 ^ 31) (min (2 ^ 31 - 1) i) ∧ (sat32 i).2 = decide (i < -2 ^ 31 ∨ 2 ^ 31 - 1 < i) := by
  unfold sat32 clampI
  by_cases h1 : i < -2147483648
  · simp [h1]; omega
  · by_cases h2 : 2147483647 < i <;> simp [h1, h2] <;> omega

/-- What an elementwise vector instruction does. -/
theorem vaSlot_ok {h : Hdr} {vd : Nat} {srcs : List Nat} {typ : Nat} {fpOnly : Bool} {fp : List Nat → Nat} {int : List Int → Int}
    {s : State} (g : SlotGoes h [3] [(2, vd)] s) (c : FCore) (ec : c = (s.facet h.pf).core)
    (nw : NoWait (srcs.map c.pendV ++ [c.pendV vd])) (hb : badTyp fpOnly typ = false) :
    vaSlot h vd srcs typ fpOnly fp int s =
      slotDone h [(2, vd)] ((openBundle s h.pf).work.putLanes h.pf vd ((c.laneTuples srcs).map (laneOp typ fp int))) s := by
  subst ec
  unfold vaSlot
  refine coreSlot_ok g ?_
  rw [waitFor_none nw, hb, raiseIf_false, raiseIf_nil]

/-- An elementwise vector instruction of a type it does not take. -/
theorem vaSlot_format {h : Hdr} {vd : Nat} {srcs : List Nat} {typ : Nat} {fpOnly : Bool} {fp : List Nat → Nat} {int : List Int → Int}
    {s : State} (g : SlotGoes h [3] [(2, vd)] s) (c : FCore) (ec : c = (s.facet h.pf).core)
    (nw : NoWait (srcs.map c.pendV ++ [c.pendV vd])) (hb : badTyp fpOnly typ = true) :
    vaSlot h vd srcs typ fpOnly fp int s = slotRaises h [(2, vd)] 2 s := by
  subst ec
  unfold vaSlot
  refine coreSlot_exc g ?_
  rw [waitFor_none nw, hb]
  rfl

/-- An elementwise FP32 instruction, lane by lane. -/
theorem vaSlot_fp {h : Hdr} {vd : Nat} {srcs : List Nat} {fpOnly : Bool} {fp : List Nat → Nat} {int : List Int → Int} {s : State}
    (g : SlotGoes h [3] [(2, vd)] s) (c : FCore) (ec : c = (s.facet h.pf).core) (nw : NoWait (srcs.map c.pendV ++ [c.pendV vd]))
    (lane : Nat → LaneRes)
    (hl : ∀ k, lane k = ⟨fp (srcs.map (fun v => (c.lane v k).1)), srcs.any (fun v => (c.lane v k).2), false⟩) :
    vaSlot h vd srcs 10 fpOnly fp int s =
      slotDone h [(2, vd)] ((openBundle s h.pf).work.putLanes h.pf vd ((List.range 128).map lane)) s := by
  rw [vaSlot_ok g c ec nw (by cases fpOnly <;> rfl)]
  unfold FCore.laneTuples
  rw [List.map_map]
  congr 2
  refine List.map_congr_left fun k _ => ?_
  rw [hl]
  unfold laneOp
  simp only [Function.comp_apply, if_true, List.map_map, List.any_map]
  rfl

/-- An elementwise INT32 instruction, lane by lane. -/
theorem vaSlot_int {h : Hdr} {vd : Nat} {srcs : List Nat} {fp : List Nat → Nat} {int : List Int → Int} {s : State}
    (g : SlotGoes h [3] [(2, vd)] s) (c : FCore) (ec : c = (s.facet h.pf).core) (nw : NoWait (srcs.map c.pendV ++ [c.pendV vd]))
    (lane : Nat → LaneRes)
    (hl : ∀ k, lane k = (let x := int (srcs.map (fun v => sext 32 (c.lane v k).1))
      ⟨toCode 32 (max (-2 ^ 31) (min (2 ^ 31 - 1) x)), srcs.any (fun v => (c.lane v k).2), decide (x < -2 ^ 31 ∨ 2 ^ 31 - 1 < x)⟩)) :
    vaSlot h vd srcs 4 false fp int s =
      slotDone h [(2, vd)] ((openBundle s h.pf).work.putLanes h.pf vd ((List.range 128).map lane)) s := by
  rw [vaSlot_ok g c ec nw rfl]
  unfold FCore.laneTuples
  rw [List.map_map]
  congr 2
  refine List.map_congr_left fun k _ => ?_
  rw [hl]
  unfold laneOp
  simp only [Function.comp_apply, List.map_map, List.any_map, (sat32_eq _).1, (sat32_eq _).2]
  rfl

end Sys2Proof.Machine
end

