-- ==== Sys2Proof/Tests/Slice0.lean ====
section
/-! SUPPORT. The model's own tests: for every statement with hypotheses a state and operands that meet them, clause by clause, with a result worked
out by hand from the rule the statement cites where the kernel evaluates it in a few seconds; where a premise names a constant of Config that
has no value, the theorem takes that one fact as its hypothesis; and an ill-formed command for each kind of check of WellFormed. -/

open Sys2Proof Sys2Proof.Machine
namespace Sys2Proof.Tests
set_option Elab.async false

/-- A command answers a next state that passes a check. -/
def holds (r : Res) (p : State → Bool) : Bool := match r with | .next t => p t | _ => false

/-- Facet 3 runs with a core, at a program of 8 bundles. -/
def running (c : FCore) : State :=
  (State.reset.wr (.FAC_STAT 3) F.FAC_STAT.state 3).setFacet 3 { Facet.reset with core := { c with nBundles := 8 } }

/-- A slot of facet 3, the only one of its bundle. -/
def slot (k : Nat) : Hdr := ⟨3, k, 0, false, true⟩

/-- A slot of facet 3 leaves its bundle's working core `w`. -/
def done (k : Nat) (dests : List (Nat × Nat)) (w : FCore → FCore) (i : Hdr → Instr) (s : State) : Bool :=
  holds (exec (i (slot k)) s) (fun t => decide (t = slotDone (slot k) dests (w (openBundle s 3).work) s))

/-- A slot of facet 3 raises a cause. -/
def raises (k : Nat) (dests : List (Nat × Nat)) (code : Nat) (i : Hdr → Instr) (s : State) : Bool :=
  holds (exec (i (slot k)) s) (fun t => decide (t = slotRaises (slot k) dests code s))

/-- Facet 3 with S1 = 7, S2 = 5, S4 = 0x40 poisoned. -/
def alu : State := running { FCore.reset with s := [(1, ⟨7, false⟩), (2, ⟨5, false⟩), (4, ⟨0x40, true⟩), (5, ⟨64, false⟩)] }

theorem test_scalar_results :
    (SlotGoes (slot 1) [1, 2] [(0, 3)] alu ∧ NoWait [(alu.facet 3).core.pendS 1, (alu.facet 3).core.pendS 2, (alu.facet 3).core.pendS 3])
    ∧ [ (fun h => Instr.add h 3 1 2, 12), (fun h => .sub h 3 2 1, 2 ^ 64 - 2), (fun h => .and h 3 1 2, 5), (fun h => .or h 3 1 2, 7),
        (fun h => .xor h 3 1 2, 2), (fun h => .mul h 3 1 2, 35), (fun h => .mulhu h 3 1 2, 0), (fun h => .div h 3 1 2, 1),
        (fun h => .divu h 3 1 0, 2 ^ 64 - 1), (fun h => .rem h 3 1 2, 2), (fun h => .remu h 3 1 0, 7), (fun h => .min h 3 1 2, 5),
        (fun h => .max h 3 1 2, 7), (fun h => .minu h 3 1 2, 5), (fun h => .maxu h 3 1 2, 7), (fun h => .shl h 3 1 5, 7),
        (fun h => .shr h 3 1 2, 0), (fun h => .sra h 3 1 2, 0), (fun h => .addi h 3 1 0xFFFFFFFF, 6), (fun h => .andi h 3 1 0xFFFFFFFE, 6),
        (fun h => .ori h 3 1 8, 15), (fun h => .xori h 3 1 1, 6), (fun h => .muli h 3 1 0xFFFFFFFF, 2 ^ 64 - 7), (fun h => .shli h 3 1 63, 2 ^ 63),
        (fun h => .shri h 3 1 1, 3), (fun h => .srai h 3 1 2, 1), (fun h => .li h 3 (2 ^ 46), 2 ^ 46), (fun h => .lis h 3 (2 ^ 46), 2 ^ 64 - 2 ^ 46),
        (fun h => .lih h 3 0x1FFFF, (2 ^ 17 - 1) * 2 ^ 47) ].all
        (fun (q : (Hdr → Instr) × Nat) => done 1 [(0, 3)] (fun w => w.wrS 3 ⟨BitVec.ofNat 64 q.2, false⟩) q.1 alu) = true
    ∧ raises 1 [(0, 3)] 6 (.shl · 3 1 4) alu = true ∧ done 1 [(0, 3)] (fun w => w.wrS 3 ⟨0x45, true⟩) (.add · 3 2 4) alu = true := by
  unfold SlotGoes NoWait; decide +kernel

theorem test_predicate_results :
    (SlotGoes (slot 2) [1, 2] [(1, 3)] alu ∧ NoWait [(alu.facet 3).core.pendS 1, (alu.facet 3).core.pendS 2, (alu.facet 3).core.pendP 3]
      ∧ (alu.facet 3).core.recvBad = [])
    ∧ [ (fun h => Instr.cmp h 3 1 2 0, false), (fun h => .cmp h 3 1 2 1, true), (fun h => .cmp h 3 2 1 2, true), (fun h => .cmp h 3 1 1 3, true),
        (fun h => .cmpi h 3 1 4 8, true), (fun h => .cmpi h 3 1 5 0xFFFFFFFF, false), (fun h => .cmpi h 3 1 3 0xFFFFFFFF, true),
        (fun h => .plog h 3 0 1 4, true), (fun h => .plog h 3 0 1 11, false) ].all
        (fun (q : (Hdr → Instr) × Bool) => done 2 [(1, 3)] (fun w => w.wrP 3 ⟨q.2, false⟩) q.1 alu) = true
    ∧ raises 2 [(1, 3)] 1 (.cmp · 3 1 2 6) alu = true ∧ raises 2 [(1, 3)] 1 (.cmpi · 3 1 6 0) alu = true := by
  unfold SlotGoes NoWait; decide +kernel

/-- S5 and P2 are pending: a comparison into P0 waits, its bundle stays where it was. -/
theorem test_predicate_waits :
    let s := running { FCore.reset with drains := [⟨0, 0, false, 24, 0, 1, true, 5, false, false⟩], recvs := [⟨2, 0, 64, 7, 0⟩] }
    let c := (s.facet 3).core
    let waits := fun (i : Instr) => holds (exec i s) (fun t => decide ((t.facet 3).core = c ∧ (t.facet 3).bun = none ∧ t.raises = []))
    (SlotGoes (slot 2) [1, 2] [(1, 0)] s ∧ firstWait [c.pendS 5, c.pendS 1] = some 0 ∧ firstWait [c.pendS 5] = some 0 ∧ firstWait [c.pendP 2, c.pendP 1] = some 3)
    ∧ waits (.cmp (slot 2) 0 5 1 5) = true ∧ waits (.cmpi (slot 2) 0 5 5 0) = true ∧ waits (.plog (slot 2) 0 2 1 8) = true := by
  unfold SlotGoes; decide +kernel

/-- Bundle 3 of facet 3, inside a loop body of bundles 2 to 5 with 2 iterations left. -/
def looping : State := running { FCore.reset with s := [(1, ⟨3, false⟩)], pc := 3, loops := [⟨2, 2, 5⟩] }

theorem test_control_slot :
    (SlotGoes (slot 0) [0] [] looping ∧ NoWait [(looping.facet 3).core.pendS 1])
    ∧ done 0 [] id .nop looping = true ∧ done 0 [] (fun w => { w with next := some 4 }) (.br · 4) looping = true
    ∧ done 0 [] (fun w => { w with next := some 6, loops := [] }) (.br · 6) looping = true ∧ raises 0 [] 5 (.br · 8) looping = true
    ∧ done 0 [] (fun w => { w with loops := [⟨3, 4, 5⟩, ⟨2, 2, 5⟩] }) (.loop · 1 5) looping = true
    ∧ done 0 [] (fun w => { w with next := some 2, loops := [⟨1, 2, 5⟩] }) (.loop · 0 5) looping = true
    ∧ raises 0 [] 7 (.loop · 1 3) looping = true ∧ done 0 [] (fun w => { w with haltReq := true, loops := [] }) .halt looping = true := by
  unfold SlotGoes NoWait; decide +kernel

/-- Facet 3 with word 2 of its data SRAM holding 0x80 in byte 3, and S1 = 16. -/
def mem3 : State := running { FCore.reset with s := [(1, ⟨16, false⟩), (2, ⟨0x1FF, false⟩), (3, ⟨0, true⟩)], sram := ⟨[(19, 0x80)], [3], []⟩ }

theorem test_load_store :
    (SlotGoes (slot 1) [1, 2] [(0, 4)] mem3 ∧ SlotGoes (slot 1) [1, 2] [] mem3
      ∧ NoWait [(mem3.facet 3).core.pendS 1, (mem3.facet 3).core.pendS 4, (mem3.facet 3).core.pendMem 19 1]
      ∧ NoWait [(mem3.facet 3).core.pendS 1, (mem3.facet 3).core.pendS 2] ∧ (mem3.facet 3).core.latentCe = [] ∧ (mem3.facet 3).core.latentUe = [])
    ∧ done 1 [(0, 4)] (fun w => w.wrS 4 ⟨2 ^ 64 - 128, false⟩) (.ld · 4 1 0 true 3) mem3 = true
    ∧ done 1 [(0, 4)] (fun w => w.wrS 4 ⟨0x80, false⟩) (.ld · 4 1 0 false 3) mem3 = true
    ∧ done 1 [(0, 4)] (fun w => w.wrS 4 ⟨0, true⟩) (.ld · 4 1 3 false 8) mem3 = true
    ∧ raises 1 [(0, 4)] 4 (.ld · 4 1 1 false 1) mem3 = true ∧ raises 1 [(0, 4)] 4 (.ld · 4 0 3 false 0x600000) mem3 = true
    ∧ raises 1 [(0, 4)] 6 (.ld · 4 3 0 false 0) mem3 = true
    ∧ done 1 [] (fun w => w.sramStore 0x5FFFFE [0xFF, 0x01] []) (.st · 2 0 1 false 0x5FFFFE) mem3 = true
    ∧ done 1 [] (fun w => w.sramStore 24 [0xFF] [3]) (.st · 2 1 0 false 8) mem3 = true
    ∧ raises 1 [] 4 (.st · 2 1 2 false 2) mem3 = true ∧ raises 1 [] 1 (.st · 2 1 0 true 0) mem3 = true := by
  unfold SlotGoes NoWait; decide +kernel

theorem test_counter_reads :
    (SlotGoes (slot 1) [1, 2] [(0, 4)] alu ∧ NoWait [(alu.facet 3).core.pendS 4])
    ∧ done 1 [(0, 4)] (fun w => w.wrS 4 ⟨3, false⟩) (.rdc · 4 2) alu = true
    ∧ done 1 [(0, 4)] (fun w => w.wrS 4 ⟨0, false⟩) (.rdc · 4 1) alu = true
    ∧ done 1 [(0, 4)] (fun w => w.wrS 4 ⟨0, false⟩) (.rdc · 4 3) alu = true ∧ raises 1 [(0, 4)] 1 (.rdc · 4 4) alu = true := by
  unfold SlotGoes NoWait; decide +kernel

/-- Facet 3 with lane 0 of V1 holding 2.0, of V2 1.0 and of V3 a poisoned 2.0; S1 = 64, S2 = 0x40400000. -/
def vec : State := running { FCore.reset with
  s := [(1, ⟨64, false⟩), (2, ⟨0x40400000, false⟩)], v := ⟨[(515, 0x40), (1026, 0x80), (1027, 0x3F), (1539, 0x40)], [1536], []⟩ }

/-- Lane 0 of V4 after an instruction of slot 3. -/
def lane0 (i : Hdr → Instr) (x : Nat × Bool) : Bool := holds (exec (i (slot 3)) vec) (fun t => decide ((t.facet 3).core.lane 4 0 = x ∧ (t.facet 3).core.pc = 1))

theorem test_vector_lanes :
    (SlotGoes (slot 3) [3] [(2, 4)] vec ∧ NoWait [(vec.facet 3).core.pendV 1, (vec.facet 3).core.pendV 2, (vec.facet 3).core.pendV 3, (vec.facet 3).core.pendV 4])
    ∧ lane0 (.vadd · 4 1 2 10) (0x40400000, false) = true
    ∧ raises 3 [(2, 4)] 2 (.vadd · 4 1 2 5) vec = true ∧ raises 3 [(2, 4)] 2 (.vexp2 · 4 1 4) vec = true := by
  unfold SlotGoes NoWait; decide +kernel

theorem test_vector_selects :
    (SlotGoes (slot 3) [3] [(2, 4)] vec ∧ SlotGoes (slot 3) [3] [] vec ∧ SlotGoes (slot 3) [3] [(0, 4)] vec
      ∧ NoWait [(vec.facet 3).core.pendS 1, (vec.facet 3).core.pendV 4, (vec.facet 3).core.pendMem 64 512]
      ∧ NoWait [(vec.facet 3).core.pendV 1, (vec.facet 3).core.pendS 4])
    ∧ raises 3 [(2, 4)] 1 (.vcmp · 4 1 2 4 4) vec = true ∧ raises 3 [(2, 4)] 4 (.vld · 4 1 1) vec = true ∧ raises 3 [] 4 (.vst · 1 1 8) vec = true
    ∧ done 3 [(0, 4)] (fun w => w.wrS 4 ⟨0x3F800000, false⟩) (.vmovs · 4 2 0 true) vec = true
    ∧ done 3 [(0, 4)] (fun w => w.wrS 4 ⟨0x40000000, true⟩) (.vmovs · 4 3 0 false) vec = true := by
  unfold SlotGoes NoWait; decide +kernel

/-- A step in progress: 1 batch slot. -/
def desc1 : Desc := ⟨0, 9, 1, (List.replicate 8 0 ++ [1] ++ List.replicate 503 0)⟩

theorem test_vector_reductions :
    (SlotGoes (slot 3) [3] [(2, 4)] vec ∧ NoWait [(vec.facet 3).core.pendV 1, (vec.facet 3).core.pendV 4]
      ∧ SlotGoes (slot 3) [3] (vGroup 4 (cvtRegs 10)) vec ∧ SlotGoes (slot 3) [3] (vGroup 30 (cvtRegs 10)) vec
      ∧ NoWait ((List.range (cvtRegs 10)).map (fun i => (vec.facet 3).core.pendV (1 + i)) ++ (List.range (cvtRegs 10)).map (fun i => (vec.facet 3).core.pendV (4 + i)))
      ∧ SlotGoes (slot 3) [3] (vGroup 8 2 ++ [(2, 10)] ++ [(0, 4)]) vec ∧ SlotGoes (slot 3) [3] (vGroup 8 2 ++ [(2, 10)] ++ []) vec
      ∧ NoWait ((List.range 8).map (fun i => (vec.facet 3).core.pendV (0 + i)) ++ (List.range 2).map (fun i => (vec.facet 3).core.pendV (8 + i))
          ++ [(vec.facet 3).core.pendV 10, (vec.facet 3).core.pendS 4]))
    ∧ raises 3 [(2, 4)] 1 (.vred · 4 1 10 0 5) vec = true ∧ raises 3 (vGroup 30 4) 1 (.vcvt · 30 1 10 10 0) vec = true
    ∧ raises 3 (vGroup 8 2 ++ [(2, 10)] ++ [(0, 4)]) 2 (.vquant · 8 0 10 4 9 false 0) vec = true
    ∧ raises 3 (vGroup 8 2 ++ [(2, 10)] ++ []) 2 (.vquant · 8 0 10 4 2 true 1) vec = true := by
  unfold SlotGoes NoWait; decide +kernel

theorem test_vwatch :
    let s := running { (vec.facet 3).core with step := some desc1 }
    (SlotGoes (slot 3) [3] [] s ∧ NoWait [(s.facet 3).core.pendV 1] ∧ (s.facet 3).core.step = some desc1 ∧ 0 < desc1.count
      ∧ ((s.facet 3).core.lane 1 0).2 = false ∧ ((s.facet 3).core.lane 3 0).2 = true)
    ∧ holds (exec (.vwatch (slot 3) 1 5 false false) s) (fun t => decide (t.noc.watches.map (fun w => (w.step, w.lf, w.layer, w.slot, w.value)) = [(9, 3, 5, 0, 0x40000000)])) = true := by
  unfold SlotGoes NoWait; decide +kernel

/-- A handle of one logical array, number 0, with INT4 rows in 3 planes (R171). -/
def hval : BitVec 64 := BitVec.ofNat 64 (2 ^ 63 + 0x100 + 0x10000 + 3 * 2 ^ 20)

/-- Facet 3 in a region that is not cold, with H1 valid, S1 a handle, S2 = 7 and S3 = 128. -/
def arrs : State := (running { FCore.reset with s := [(1, ⟨hval, false⟩), (2, ⟨7, false⟩), (3, ⟨128, false⟩)], h := [(1, ⟨hval, false⟩)] }).wr
  (.REGION_THERM 0) F.REGION_THERM.state 0

theorem test_handles_and_drains :
    (SlotGoes (slot 4) [4] [(4, 2)] arrs ∧ SlotGoes (slot 4) [4] (vGroup 24 8 ++ [(0, 5)]) arrs ∧ SlotGoes (slot 4) [4] [] arrs
      ∧ NoWait [(arrs.facet 3).core.pendS 1] ∧ NoWait ((List.range 8).map (fun i => (arrs.facet 3).core.pendV (24 + i)) ++ [(arrs.facet 3).core.pendS 5])
      ∧ NoWait [(arrs.facet 3).core.pendS 3] ∧ handleValid .zlp440 hval.toNat = true ∧ (arrs.facet 3).core.drains.length < 8)
    ∧ done 4 [(4, 2)] (fun w => w.wrH 2 ⟨hval, false⟩) (.hset · 2 1) arrs = true ∧ raises 4 [(4, 2)] 3 (.hset · 2 2) arrs = true
    ∧ done 4 (vGroup 24 8 ++ [(0, 5)]) (fun w => { w with seq := 1, drains := [⟨0, hval.toNat, false, 24, 0, 1, true, 5, false, false⟩] })
        (.adrnv · 24 1 0 1 true 5) arrs = true
    ∧ raises 4 (vGroup 24 8 ++ [(0, 5)]) 3 (.adrnv · 24 1 1 1 true 5) arrs = true
    ∧ done 4 [] (fun w => { w with seq := 1, drains := [⟨0, hval.toNat, true, 128, 0, 0, false, 0, false, false⟩] }) (.adrnm · 1 0 false 3) arrs = true
    ∧ raises 4 [] 4 (.adrnm · 1 0 false 2) arrs = true := by
  unfold SlotGoes NoWait; decide +kernel

theorem test_array_issue :
    (SlotGoes (slot 4) [4] [] arrs ∧ handleValid arrs.variant hval.toNat = true ∧ bits hval.toNat 23 20 = planesOf (bits hval.toNat 19 16)
      ∧ NoWait ((List.range (aissRegs 1)).map (fun i => (arrs.facet 3).core.pendV (0 + i)) ++ [(arrs.facet 3).core.pendS 2, none])
      ∧ arrs.rowBuffersFree 3 0 1 = true ∧ arrs.regionCold (regionOf 3) = false
      ∧ (arrs.wr (.REGION_THERM 0) F.REGION_THERM.state 1).regionCold (regionOf 3) = true)
    ∧ holds (exec (.aiss (slot 4) 1 0 2 1 true false 0 0) arrs) (fun t => decide ((t.parr 3 0).queue.map (fun i => (i.bank, i.acc, i.planes, i.scale, i.bad))
        = [(1, true, 3, 7, false)] ∧ t.rd (.ARR_STAT 3 0) F.ARR_STAT.inflight = 1)) = true := by
  unfold SlotGoes NoWait; decide +kernel

/-- Facet 3 with a TMM's registers: S1 and S2 dense BF16 operands at 0 and 64, S3 = 32, S4 = 0x600000 - 256. -/
def ten : State := running { FCore.reset with
  s := [(1, ⟨0, false⟩), (2, ⟨64, false⟩), (3, ⟨32, false⟩), (4, ⟨0x600000 - 256, false⟩)] }

theorem test_tensor_issue :
    (SlotGoes (slot 5) [5] [] ten ∧ NoWait [(ten.facet 3).core.pendS 1, (ten.facet 3).core.pendS 2, (ten.facet 3).core.pendS 3, none]
      ∧ NoWait [(ten.facet 3).core.pendV 7] ∧ tmmPair 9 9 = some (true, 1024, none) ∧ opFormatBad false 0 9 = false ∧ opFormatBad true 64 9 = false
      ∧ opAddrBad 0 9 32 1 = false ∧ opAddrBad 64 9 32 1 = false ∧ (ten.facet 3).core.tq.length < 4 ∧ (ten.facet 3).core.kinds.getD 2 0 = 0
      ∧ SlotGoes (slot 5) [5] (vGroup 16 1) ten ∧ tmmPair 9 8 = none)
    ∧ holds (exec (.tmm (slot 5) 2 9 9 false false 1 2 3 1 1 false 0) ten) (fun t => decide ((t.facet 3).core.kinds = [0, 0, 1, 0] ∧ (t.facet 3).core.pc = 1
        ∧ (t.facet 3).core.tq.map (fun o => match o with | .tmm o => (o.td, o.da, o.db, o.k, o.m, o.n) | _ => (9, 0, 0, 0, 0, 0)) = [(2, 0, 64, 32, 1, 1)])) = true
    ∧ raises 5 [] 2 (.tmm · 2 9 8 false false 1 2 3 1 1 false 0) ten = true
    ∧ done 5 [] (fun w => { w with seq := 1, tq := [.tclr 3] }) (.tclr · 3) ten = true
    ∧ done 5 [] (fun w => { w with seq := 1, tq := [.drain ⟨1, 10, 1, true, true, 0x600000 - 256, 0⟩] }) (.tdrnm · 4 1 10 1 true) ten = true
    ∧ done 5 (vGroup 16 1) (fun w => { w with seq := 1, tq := [.drain ⟨1, 9, 1, false, false, 16, 0⟩] }) (.tdrnv · 16 1 9 1 false) ten = true
    ∧ raises 5 [] 2 (.tdrnm · 4 1 5 1 false) ten = true
    ∧ holds (exec (.tmsk (slot 5) 7) ten) (fun t => decide ((t.facet 3).core.tq = [.tmsk (List.replicate 512 0) false])) = true := by
  unfold SlotGoes NoWait; decide +kernel

/-- Facet 3 with S1 = 0x5FFFC0, S2 = 64, S3 = 4096, S4 = 1 and V0 an MPAGE descriptor of one 64-byte copy in 16-token pages. -/
def mov : State := running { FCore.reset with
  s := [(1, ⟨0x5FFFC0, false⟩), (2, ⟨64, false⟩), (3, ⟨4096, false⟩), (4, ⟨1, false⟩)], mfault := [5]
  v := ⟨[(20, 1), (28, 4), (40, 64)], [], []⟩ }

theorem test_movement_issue :
    (SlotGoes (slot 6) [6] [] mov ∧ NoWait [(mov.facet 3).core.pendS 1, (mov.facet 3).core.pendS 2, (mov.facet 3).core.pendS 3]
      ∧ NoWait [(mov.facet 3).core.pendS 1, (mov.facet 3).core.pendV 0])
    ∧ done 6 [] (fun w => { w with seq := 1, mq := [⟨3, true, none, .copy 1 0x5FFFC0 64 64, 0, 0⟩] }) (.mcpy · 3 1 true 1 2 2) mov = true
    ∧ done 6 [] id (.mcpy · 3 1 true 1 2 0) mov = true ∧ raises 6 [] 4 (.mcpy · 3 0 false 1 2 3) mov = true
    ∧ done 6 [] (fun w => { w with seq := 1, mq := [⟨3, false, none, .dec 0 4096 1, 0, 0⟩] }) (.mdec · 3 0 3 4) mov = true
    ∧ (let k := walkOf (((mov.facet 3).core.vBytes 0 512).map Prod.fst)
       (k.count = 1 ∧ k.ptLog = 4 ∧ k.len = 64 ∧ k.stride = 0 ∧ k.off = 0)
       ∧ holds (exec (.mpage (slot 6) 3 1 true 1 0) mov) (fun t => decide ((t.facet 3).core.mq.map (fun o => (o.tag, o.posted, o.kind))
           = [(3, true, .page 1 0x5FFFC0 (((mov.facet 3).core.vBytes 0 512).map Prod.fst))])) = true)
    ∧ raises 6 [] 4 (.mdec · 3 2 3 4) mov = true ∧ done 6 [] id (.mwait · 0xFFDF) mov = true ∧ raises 6 [] 8 (.mwait · 0x20) mov = true := by
  unfold SlotGoes NoWait; decide +kernel

/-- Facet 3 whose dispatch queue holds `desc1`, and facet 3 with `desc1` in progress. -/
def queued : State := running { FCore.reset with dq := [desc1] }
def stepping : State := running { FCore.reset with step := some desc1 }

theorem test_step_and_commit :
    (SlotGoes (slot 7) [7] [(2, 4), (0, 5)] queued ∧ SlotGoes (slot 7) [7] [] stepping ∧ NoWait [(queued.facet 3).core.pendV 4, (queued.facet 3).core.pendS 5]
      ∧ desc1.bytes.length = 512 ∧ stepping.arraysQuiet 3 = true ∧ (stepping.facet 3).core.unitsQuiet true = true ∧ (stepping.facet 3).core.recvs = []
      ∧ (stepping.facet 3).core.session.isOpen = false)
    ∧ holds (exec (.step (slot 7) 4 5) queued) (fun t => decide ((t.facet 3).core.rdS 5 = ⟨9, false⟩ ∧ (t.facet 3).core.step = some desc1 ∧ (t.facet 3).core.dq = []
        ∧ (t.facet 3).core.lane 4 2 = (1, false) ∧ t.rd (.FAC_STAT 3) F.FAC_STAT.dq_depth = 0)) = true
    ∧ holds (exec (.scommit (slot 7)) stepping) (fun t => decide ((t.facet 3).core.step = none ∧ t.noc.reports = [(3, 9, true)]
        ∧ t.rd (.FAC_STAT 3) F.FAC_STAT.steps = 1)) = true
    ∧ raises 7 [] 8 .scommit mov = true ∧ raises 7 [] 9 .scommit (running { FCore.reset with recvBad := [2] }) = true := by
  unfold SlotGoes NoWait; decide +kernel

/-- Facet 3 with S1 = a remote system facet, S2 = 64 and S3 = 1. -/
def syn : State := running { FCore.reset with s := [(1, ⟨0x1020005, false⟩), (2, ⟨64, false⟩), (3, ⟨2, false⟩)], sram := ⟨[(64, 7)], [8], []⟩
                                              rxq := [⟨0x1020005, 3, 4, none, [9, 8], [0]⟩] }

theorem test_sync_issue :
    (SlotGoes (slot 7) [7] [] syn ∧ SlotGoes (slot 7) [7] [(1, 6)] syn ∧ NoWait [(syn.facet 3).core.pendS 1, (syn.facet 3).core.pendS 2, none, (syn.facet 3).core.pendMem 64 64]
      ∧ (syn.facet 3).core.sendRoom = true ∧ syn.placed 0 0x1020005 = true ∧ syn.placed 0 5 = false
      ∧ NoWait [(syn.facet 3).core.pendS 2, (syn.facet 3).core.pendS 1, (syn.facet 3).core.pendP 6, none] ∧ (syn.facet 3).core.recvs.length < 4)
    ∧ holds (exec (.send (slot 7) 1 2 2 4) syn) (fun t => decide (t.noc.msgs.map (fun m => (m.src, m.dst, m.chan, m.data.length, m.poison)) = [] ∨
        t.link ≠ syn.link ∨ t.noc ≠ syn.noc)) = true
    ∧ raises 7 [] 9 (.send · 2 2 2 4) syn = true ∧ raises 7 [] 9 (.send · 1 2 0 4) syn = true
    ∧ holds (exec (.recv (slot 7) 6 2 2 1 4) syn) (fun t => decide ((t.facet 3).core.rdP 6 = ⟨true, true⟩ ∧ (t.facet 3).core.sram.readNat 64 2 = 0x809
        ∧ (t.facet 3).core.rxq = [])) = true
    ∧ done 7 [(1, 6)] (fun w => { w with recvs := [⟨6, 64, 64, 0x1020005, 5⟩] }) (.recv · 6 2 2 1 5) syn = true
    ∧ holds (exec (.sout (slot 7) 3 2 2 0) syn) (fun t => decide (t.noc.logits.map (fun l => (l.entry, l.offset, l.pf, l.vals.head?)) = [(2, 0, 3, some (7, true))])) = true
    ∧ raises 7 [] 9 (.sout · 3 2 0 0) syn = true
    ∧ holds (exec (.bar (slot 7) 1 0) syn) (fun t => decide ((t.facet 3).core.pc = 1 ∧ (t.facet 3).bar = none)) = true
    ∧ holds (exec (.bar (slot 7) 1 3) syn) (fun t => decide ((t.facet 3).core.pc = 0 ∧ (t.facet 3).bar = some (1, 2, 0))) = true
    ∧ raises 7 [] 9 (.bar · 1 3) (syn.setFacet 3 { syn.facet 3 with bar := some (1, 2, 2) }) = true
    ∧ holds (exec (.bar (slot 7) 1 3) (syn.setFacet 3 { syn.facet 3 with bar := some (1, 2, 1) })) (fun t => decide ((t.facet 3).core.pc = 1)) = true := by
  unfold SlotGoes NoWait; decide +kernel

theorem test_exception_taken :
    (looping.issuing 3 = true ∧ (looping.facet 3).core.pc < 8192)
    ∧ holds (exec (.exception 3 5 4) looping) (fun t => decide (t.rd (.FAC_EXC 3) F.FAC_EXC.cause = 4 ∧ t.rd (.FAC_EXC 3) F.FAC_EXC.slot = 5
        ∧ t.rd (.FAC_EXC 3) F.FAC_EXC.pc = 3 ∧ t.rd (.FAC_EXC 3) F.FAC_EXC.valid = 1 ∧ (t.facet 3).stop = some (.exc 4) ∧ (t.facet 3).core.loops = []
        ∧ t.raises = [⟨0x403, 0x409, 3, 3, [4, 5, 3, 0]⟩])) = true := by decide +kernel

/-- The bundles of facet 3 in `looping`: one that waits, one that meets causes 6 and 4, one that ends the body of the loop. -/
theorem test_bundle_ends :
    let b : Bundle := (openBundle looping 3)
    let at5 := running { FCore.reset with pc := 5, loops := [⟨2, 2, 5⟩] }
    (b.excs = [] ∧ b.stall = none ∧ b.work.eff = [] ∧ b.work.next = none ∧ b.work.loops = [⟨2, 2, 5⟩])
    ∧ ((finishBundle looping 3 { b with stall := some 2 }).facet 3).core = (looping.facet 3).core
    ∧ finishBundle looping 3 { b with excs := [(4, 6), (6, 1)] } = takeException looping 3 6 4
    ∧ ((finishBundle looping 3 b).facet 3).core.pc = 4
    ∧ ((finishBundle at5 3 (openBundle at5 3)).facet 3).core.pc = 2 ∧ ((finishBundle at5 3 (openBundle at5 3)).facet 3).core.loops = [⟨1, 2, 5⟩]
    ∧ ((finishBundle looping 3 { b with work := { b.work with next := some 7, loops := [] } }).facet 3).core.pc = 7 := by decide +kernel

/-- Facet 3 in a state, program 5 bound, entry 6. -/
def facet3 (st : Nat) : State := ((State.reset.wr (.FAC_STAT 3) F.FAC_STAT.state st).wr (.FAC_BIND 3) F.FAC_BIND.prog_id 5).wr (.FAC_CTL 3) F.FAC_CTL.entry 6

theorem test_facet_control :
    ((facet3 1).facState 3 = 1 ∧ (facet3 1).rd (.FAC_BIND 3) F.FAC_BIND.prog_id ≠ 0 ∧ ((facet3 1).facet 3).stop = none ∧ ((facet3 1).facet 3).fenced = false)
    ∧ holds (exec (.facRun 3) (facet3 1)) (fun t => decide (t.facState 3 = 3 ∧ (t.facet 3).core.pc = 6)) = true
    ∧ holds (exec (.facRun 3) (facet3 5)) (fun t => decide (t.facState 3 = 3)) = true
    ∧ holds (exec (.facStop 3) (facet3 3)) (fun t => t.on (.FAC_CTL 3) F.FAC_CTL.stop) = true
    ∧ holds (exec (.facReset 3) (facet3 3)) (fun t => decide ((t.facet 3).stop = some .reset ∧ t.on (.FAC_CTL 3) F.FAC_CTL.reset = true)) = true
    ∧ holds (exec (.facLoadGo 3) (facet3 0)) (fun t => decide (t.facState 3 = 2 ∧ t.on (.FAC_LOAD_CTL 3) F.FAC_LOAD_CTL.busy = true)) = true
    ∧ holds (exec (.facLoadGo 3) (facet3 3)) (fun t => decide (t.facState 3 = 3 ∧ t.rd (.FAC_LOAD_CTL 3) F.FAC_LOAD_CTL.error = 1)) = true
    ∧ (facet3 2).facState 3 = 2 := by decide +kernel

/-- Facet 3, out of RESET, stopped for a reason. -/
def stopped (st : Nat) (k : Stop) : State := (facet3 st).setFacet 3 { Facet.reset with
  stop := some k, core := { FCore.reset with s := [(1, ⟨7, false⟩)], sram := ⟨[(9, 1)], [], []⟩, dq := [desc1] } }

theorem test_facet_settles :
    ((stopped 3 .reset).arraysQuiet 3 = true ∧ ((stopped 3 .reset).facet 3).core.unitsQuiet false = true ∧ (stopped 3 .reset).facState 3 ≠ 2
      ∧ ((stopped 3 .reset).facet 3).core.session.isOpen = false)
    ∧ holds (exec (.exceptionSettle 3) (stopped 3 .reset)) (fun t => decide (t.facState 3 = 0 ∧ (t.facet 3).core.s = [] ∧ (t.facet 3).core.sram = ⟨[(9, 1)], [], []⟩
        ∧ (t.facet 3).core.dq = [] ∧ (t.facet 3).core.pc = 6)) = true
    ∧ holds (exec (.exceptionSettle 3) (stopped 3 .halt)) (fun t => decide (t.facState 3 = 5 ∧ (t.facet 3).core.s = [(1, ⟨7, false⟩)] ∧ (t.facet 3).core.dq = [desc1])) = true
    ∧ holds (exec (.exceptionSettle 3) ((stopped 3 (.exc 4)).wr (.FAC_CTL 3) F.FAC_CTL.exc_restart 0)) (fun t => decide (t.facState 3 = 5)) = true
    ∧ holds (exec (.exceptionSettle 3) ((stopped 3 (.exc 4)).wr (.FAC_CTL 3) F.FAC_CTL.exc_restart 1)) (fun t => decide (t.facState 3 = 3
        ∧ (t.facet 3).stop = none ∧ (t.facet 3).core.s = [(1, ⟨7, false⟩)])) = true := by decide +kernel

theorem test_facet_registers :
    let live := ((facet3 1).wr (.FAC_EPOCH 3) F.FAC_EPOCH.ep_a 8).wr (.EP_STAT 0) F.EP_STAT.cur 8
    holds (exec (.facBindWrite 3 0x3F) (facet3 1)) (fun t => decide (t.rd (.FAC_BIND 3) F.FAC_BIND.service = 63 ∧ t.on (.FAC_BIND 3) F.FAC_BIND.bound = false)) = true
    ∧ holds (exec (.facBindWrite 3 0xBF) (facet3 3)) (fun t => decide (t.on (.FAC_STAT 3) F.FAC_STAT.bind_reject = true ∧ t.rd (.FAC_BIND 3) F.FAC_BIND.service = 0)) = true
    ∧ holds (exec (.facEpochWrite 3 (9 * 2 ^ 48 + 8 * 2 ^ 32)) live) (fun t => decide (t.rd (.FAC_EPOCH 3) F.FAC_EPOCH.ep_a = 9 ∧ t.rd (.FAC_EPOCH 3) F.FAC_EPOCH.ep_b = 8)) = true
    ∧ holds (exec (.facEpochWrite 3 (9 * 2 ^ 48)) live) (fun t => decide (t.rd (.FAC_EPOCH 3) F.FAC_EPOCH.ep_a = 8 ∧ t.on (.FAC_STAT 3) F.FAC_STAT.bind_reject = true)) = true
    ∧ holds (exec (.acc16CtlWrite 3 2) (facet3 5)) (fun t => decide (t.rd (.ACC16_CTL 3) F.ACC16_CTL.chunk = 2)) = true
    ∧ holds (exec (.acc16CtlWrite 3 2) (facet3 3)) (fun t => decide (t.on (.FAC_STAT 3) F.FAC_STAT.bind_reject = true)) = true
    ∧ holds (exec (.tenShadowWrite 3 (7 * 2 ^ 32 + 5)) ((facet3 1).setFacet 3 { Facet.reset with shadowFenced := true })) (fun t =>
        decide (t.rd (.TEN_SHADOW 3) F.TEN_SHADOW.checks = 7 ∧ t.rd (.TEN_SHADOW 3) F.TEN_SHADOW.enable = (facet3 1).rd (.TEN_SHADOW 3) F.TEN_SHADOW.enable)) = true
    ∧ holds (exec (.sigWindowRelease 3) (((facet3 1).wr (.TEN_SIG_CTL 3) F.TEN_SIG_CTL.full 1).setFacet 3 { Facet.reset with sig := some ⟨[1], [2]⟩ })) (fun t =>
        decide ((t.facet 3).sig = none ∧ t.on (.TEN_SIG_CTL 3) F.TEN_SIG_CTL.full = false)) = true := by decide +kernel

/-- A TMM of one cell of tile 2 with K = 1 on BF16 operands at 0 and 64. -/
def tmm1 : TmmOp := ⟨2, 9, 9, false, false, 0, 64, 1, 1, 1, false, 0, 0, 0⟩
def withCore (c : FCore) : State := State.reset.setFacet 3 { Facet.reset with core := c }

theorem test_tensor_begins :
    let tq := fun l => withCore { FCore.reset with tq := l }
    ((tq [.tmm tmm1] |>.facet 3).core.operandHeld tmm1 = false)
    ∧ holds (exec (.tensorOpBegin 3) (tq [.tmm tmm1, .tclr 1])) (fun t => decide ((t.facet 3).core.exec.map (fun x => x.op) = some tmm1 ∧ (t.facet 3).core.tq = [.tclr 1]
        ∧ (t.facet 3).core.tint = [0, 0, 1, 0])) = true
    ∧ (withCore { FCore.reset with tq := [.tclr 2] } |>.facet 3).core.tq = [.tclr 2]
    ∧ holds (exec (.tensorOpBegin 3) (tq [.drain ⟨2, 10, 1, false, true, 0, 0⟩])) (fun t => decide ((t.facet 3).core.moving = [⟨2, 10, 1, false, true, 0, 0⟩] ∧ (t.facet 3).core.tq = [])) = true
    ∧ holds (exec (.tensorOpBegin 3) (tq [.tmsk [7] true])) (fun t => decide ((t.facet 3).core.mask = [7] ∧ (t.facet 3).core.maskPoison = true
        ∧ (t.facet 3).core.session.isOpen = true)) = true := by decide +kernel

/-- The TMM of `tmm1` in occupancy, over staged operands 2.0 and 3.0. -/
def exec1 : TExec := ⟨tmm1, ⟨0, 9, 1, 1, ⟨[(1, 0x40)], [], []⟩, [], true⟩, ⟨64, 9, 1, 1, ⟨[(0, 0x40), (1, 0x40)], [], []⟩, [], true⟩, [], 0, none, [], none, 0, 0, none⟩

theorem test_tmm_ends :
    let s := withCore { FCore.reset with exec := some exec1 }
    (exec1.todo = [] ∧ exec1.held = none ∧ exec1.col = none ∧ exec1.op.mask = false ∧ exec1.op.m = 1 ∧ exec1.op.n = 1 ∧ exec1.op.k ≠ 0)
    ∧ holds (exec (.tmmComplete 3 [] []) s) (fun t => decide ((t.facet 3).core.exec = none ∧ (t.facet 3).core.cell 2 0 0 = (0x40C00000, false)
        ∧ t.rd (.TEN_STAT 3) F.TEN_STAT.tmm = 1)) = true := by decide +kernel

theorem test_shadow_replays :
    let s := fun (shadow tile : Nat) => withCore { FCore.reset with
      exec := some { exec1 with col := some 0, start := [(0, false)], held := some [(shadow, false)] }, t := (Mem.empty.writeNat (cellIdx 2 0 0 * 4) 4 tile) }
    let e := fun (shadow tile : Nat) => (s shadow tile |>.facet 3).core
    ((s 0x40C00000 5).rd (.TEN_SHADOW 3) F.TEN_SHADOW.confirmed = 0 ∧ (s 5 0x40C00000).rd (.TEN_SHADOW 3) F.TEN_SHADOW.sfaults = 0
      ∧ (e 5 0x40C00000).cell 2 0 0 = (0x40C00000, false) ∧ (tmmCell tmm1 0 (0, false) (exec1.a.row 0) (exec1.b.row 0)).1 = 0x40C00000)
    ∧ holds (exec (.shadowReplayDone 3 []) (s 0x40C00000 5)) (fun t => decide ((t.facet 3).core.exec = none ∧ t.rd (.TEN_SHADOW 3) F.TEN_SHADOW.confirmed = 1
        ∧ (t.raises.map (fun r => (r.code, r.unit, r.fields.take 3))).contains (0x40D, 3, [2, 0, 0]) = true)) = true
    ∧ holds (exec (.shadowReplayDone 3 []) (s 5 0x40C00000)) (fun t => decide ((t.facet 3).core.exec = none ∧ t.rd (.TEN_SHADOW 3) F.TEN_SHADOW.sfaults = 1
        ∧ (t.raises.map (fun r => (r.code, r.fields))).contains (0x40E, [0]) = true)) = true := by decide +kernel

theorem test_facet_completions :
    let drain : TDrain := ⟨2, 10, 1, false, true, 64, 5⟩
    let s := withCore { FCore.reset with moving := [drain], t := Mem.empty.writeNat (cellIdx 2 0 1 * 4) 4 0x40C00000 }
    let c := { withCore { FCore.reset with mq := [⟨1, false, none, .copy 0 128 4096 64, 0, 2⟩] } with hbm := ⟨[(4100, 9)], [], []⟩ }
    let m : SyncMsg := ⟨2 ^ 24, 3, 4, none, [9, 8], []⟩
    let a := { withCore { FCore.reset with recvs := [⟨6, 64, 64, 2 ^ 24, 4⟩] } with noc := { Noc.reset with msgs := [m] } }
    (drain.toMem = true ∧ drain.clr = false ∧ (s.facet 3).core.tint.getD 2 0 ≠ 2 ∧ c.rangeOf 4096 = none ∧ c.pageOf 4096 = none ∧ c.hbmLost 4096 = false
      ∧ c.hbm.isPoison 64 = false ∧ c.faults.hbmCe = [] ∧ c.faults.hbmUe = [] ∧ bitAt m.dst 24 = false ∧ a.pfOf m.dst = some 3 ∧ a.pfOf (2 ^ 24) = none
      ∧ (a.facet 3).core.dropsMsg m.step = false)
    ∧ holds (exec (.tileDrainComplete 3 0) s) (fun t => decide ((t.facet 3).core.moving = [] ∧ (t.facet 3).core.sram.readNat 68 4 = 0x40C00000)) = true
    ∧ holds (exec (.movementOpComplete 3 0) c) (fun t => decide ((t.facet 3).core.mq = [] ∧ (t.facet 3).core.sram.bytes = [(132, 9)])) = true
    ∧ holds (exec (.messageArrive 3 (2 ^ 24) 4) a) (fun t => decide (t.noc.msgs = [] ∧ (t.facet 3).core.recvs = [] ∧ (t.facet 3).core.sram.readNat 64 2 = 0x809
        ∧ (t.facet 3).core.rdP 6 = ⟨true, false⟩)) = true
    ∧ holds (exec (.sendCreditReturn 3 0) (withCore { FCore.reset with sends := [⟨5, 1, true⟩] })) (fun t => decide ((t.facet 3).core.sends = [])) = true := by decide +kernel

theorem test_prism_block :
    let s := withCore { FCore.reset with mq := [⟨1, false, none, .dec 0 8192 1, 0, 2⟩] }
    ((s.facet 3).core.moveHeld ⟨1, false, none, .dec 0 8192 1, 0, 2⟩ = false ∧ s.on .FLT_INJ_CTL F.FLT_INJ_CTL.arm = false
      ∧ (s.facet 3).core.latentCe = [] ∧ (s.facet 3).core.latentUe = []) := by decide +kernel

theorem test_barrier_and_windows :
    let wait : Facet := { Facet.reset with bar := some (1, 2, 0) }
    let s := ((State.reset.wr (.FAC_BIND 3) F.FAC_BIND.bound 1).wr (.FAC_BIND 4) F.FAC_BIND.bound 1).setFacet 3 wait
    let s2 := s.setFacet 4 wait
    let w := withCore { FCore.reset with sram := ⟨[(8, 5)], [], []⟩ }
    let at3 := 0x400000000000 + 3 * 0x800000
    (s2.barWaiters 0 1 0 = [(3, 2), (4, 2)] ∧ Tab.sorted s2.facets = true ∧ s.barWaiters 0 1 0 = [(3, 2)] ∧ w.pfOf 3 = some 3 ∧ (w.region (regionOf 3)).mr = none)
    ∧ holds (exec (.barrierRelease 0 1 0) s2) (fun t => decide ((t.facet 3).bar = some (1, 2, 1) ∧ (t.facet 4).bar = some (1, 2, 1))) = true
    ∧ holds (exec (.barrierRelease 0 1 0) s) (fun t => decide (t = s)) = true
    ∧ holds (exec (.windowRead (at3 + 8) 8) w) (fun t => decide (t.out = [.read 5 false])) = true
    ∧ holds (exec (.windowWrite (at3 + 0x5FFFF8) [1, 2, 3, 4, 5, 6, 7, 8] false) w) (fun t => decide ((t.facet 3).core.sram.readNat 0x5FFFF8 8 = 0x0807060504030201
        ∧ (t.facet 3).core.sram.byte 8 = 5)) = true
    ∧ holds (exec (.windowRead (at3 + 8) 8) (w.wr (.LF_MAP 3) F.LF_MAP.valid 0)) (fun t => decide (t.raises = [⟨0xF, 0x10C, 0xFFFF, 3, [8, 0]⟩] ∧ t.out = [.read 0 true])) = true
    ∧ (match exec (.windowRead 0x3FFFFFFFFFFF 1) w with | .fault f => decide (f = .unmapped 0x3FFFFFFFFFFF) | _ => false) = true := by decide +kernel

/-- An issue of one plane driving row 0 with 1 into array 0 of facet 3, and a product over it. -/
def issue1 : Issue := ⟨1, 0, 0, false, true, 3, 0, [1], false, false, Mem.empty, 0, false, [], 1, 0, 0⟩
def prod1 (settle : Option Settle) (flags : List Nat) (aperture : Nat) : Product := ⟨issue1, 0, aperture, flags, settle, true, false⟩

/-- Physical array 0 of facet 3 with a weight of 1 in row 0, column 0, and with a product or a queue. -/
def parr1 (q : List Issue) (p : Option Product) : State := State.reset.setParr 3 0 { PArr.reset with w := [(0, 1)], queue := q, run := p }

theorem test_product_planes :
    let s := parr1 [issue1] none
    let r := fun ap => parr1 [] (some (prod1 none [] ap))
    let ovr : ConvErr := ⟨0, 0, 0, true⟩
    ((s.larr 3 0).bind = none ∧ ((r 32).facet 3).core.olderDrain 0 0 1 = false ∧ (r 32).on .FLT_INJ_CTL F.FLT_INJ_CTL.arm = false
      ∧ observedResidue (planeSums [(0, 1)] [1] 0) 0 = 1 ∧ (r 64).parr 3 0 ≠ PArr.reset)
    ∧ holds (exec (.productStart 3 0) s) (fun t => decide ((t.parr 3 0).queue = [] ∧ (t.parr 3 0).run.map (fun p => (p.plane, p.issue)) = some (0, issue1))) = true
    ∧ holds (exec (.planeComplete 3 0 [] [] []) (r 0)) (fun t => decide ((t.parr 3 0).run.map (fun p => (p.plane, p.flags)) = some (1, []) ∧ t.raises = [])) = true
    ∧ holds (exec (.planeComplete 3 0 [ovr] [] []) (r 64)) (fun t => decide ((t.parr 3 0).run.map (fun p => (p.plane, p.aperture)) = some (0, 32)
        ∧ t.rd (.ARR_STAT 3 0) F.ARR_STAT.esc_count = 1 ∧ t.raises = [⟨0x403, 0x401, 3, 0xFFFF, [0, 0]⟩])) = true
    ∧ holds (exec (.productComplete 3 0) (parr1 [] (some { prod1 none [] 32 with finished := true }))) (fun t => decide ((t.parr 3 0).run = none
        ∧ (t.parr 3 0).prods = 1)) = true := by decide +kernel

/-- An empty row: every check agrees, and the plane promotes nothing. -/
theorem test_plane_passes :
    let s := State.reset.setParr 3 0 { PArr.reset with run := some (prod1 none [] 32) }
    (∀ g < 4, expectedResidue issue1.entry issue1.xs 0 g = observedResidue (planeSums [] [1] 0) g)
    ∧ holds (exec (.planeComplete 3 0 [] [] []) s) (fun t => decide ((t.parr 3 0).run.map (fun p => (p.plane, p.flags)) = some (1, [])
        ∧ t.rd (.ARR_APCNT 3 1) F.ARR_APCNT.planes = 1 ∧ t.raises = [])) = true := by decide +kernel

theorem test_drains_of_arrays :
    let d : ADrain := ⟨4, hval.toNat, false, 24, 0, 0, false, 5, false, true⟩
    let s := withCore { FCore.reset with drains := [d] }
    (d.launched = true ∧ (s.facet 3).core.drains = [d])
    ∧ holds (exec (.drainRequestLatch 3 0) (withCore { FCore.reset with drains := [{ d with launched := false }] })) (fun t =>
        decide ((t.facet 3).core.drains = [{ d with latched := true }])) = true
    ∧ holds (exec (.drainVectorReturn 3 0) (withCore { FCore.reset with drains := [{ d with launched := false }] })) (fun t =>
        decide ((t.facet 3).core.drains = [{ d with launched := false }])) = true := by decide +kernel

theorem test_replay_and_fallback :
    let s := fun x => State.reset.setParr 3 0 { PArr.reset with run := some (prod1 (some x) [2] 32) }
    let bad := fun x => (parr1 [] (some (prod1 (some x) [0] 32)))
    ((expectedResidue issue1.entry [1] 0 2 = observedResidue (planeSums [] [1] 0) 2) ∧ (expectedResidue issue1.entry [1] 0 0 ≠ observedResidue (planeSums [(0, 1)] [1] 0) 0)
      ∧ (s (.waiting 2 true false)).on (.GOLD_BASE 3 0) F.GOLD_BASE.valid = false)
    ∧ holds (exec (.replayComplete 3 0 []) (s (.replay 2 256))) (fun t => decide (t.rd (.SP_STAT 3) F.SP_STAT.replay_pass = 1
        ∧ (t.parr 3 0).run.map (fun p => (p.plane, p.flags, p.settle)) = some (1, [], none) ∧ t.rd (.CONV_STAT 3 0 256) F.CONV_STAT.role = 1)) = true
    ∧ holds (exec (.replayComplete 3 0 []) (bad (.replay 0 256))) (fun t => decide ((t.parr 3 0).run.map (fun p => (p.plane, p.settle)) = some (0, some (.waiting 0 true false)))) = true
    ∧ holds (exec (.exactFallbackStart 3 0) (s (.waiting 2 true false))) (fun t => decide ((t.parr 3 0).run.map (fun p => p.settle)
        = some (some (.reading 2 true false none)))) = true := by decide +kernel

theorem test_array_bindings :
    let s := State.reset
    let b := (State.reset.setLarr 3 0 { LArr.reset with bind := some (32, false) })
    (s.arrState 3 32 = 2 ∧ s.arrState 3 0 = 1 ∧ 32 < s.variant.arrays ∧ s.physOf 3 0 = 0 ∧ b.betweenProducts 3 0 = true ∧ (b.parr 3 0).lost = false
      ∧ b.rd (.ARR_WEAR 3 0) F.ARR_WEAR.writes < 100000)
    ∧ holds (exec (.arrMapWrite 3 0 32) s) (fun t => decide ((t.larr 3 0).bind = some (32, false) ∧ t.on (.ARR_MAP 3 0) F.ARR_MAP.pending = true ∧ t.physOf 3 0 = 0)) = true
    ∧ holds (exec (.arrMapWrite 3 0 1) s) (fun t => decide (t.on (.ARR_CTL 3) F.ARR_CTL.map_reject = true ∧ t.raises = [⟨0x403, 0x403, 3, 0xFFFF, [0]⟩])) = true
    ∧ holds (exec (.bindingApply 3 0) b) (fun t => decide (t.physOf 3 0 = 32 ∧ t.arrState 3 32 = 1 ∧ t.arrState 3 0 = 2 ∧ (t.larr 3 0).bind = none)) = true
    ∧ holds (exec (.bindingApply 3 0) (b.setArrState 3 32 1)) (fun t => decide (t.physOf 3 0 = 0 ∧ (t.larr 3 0).bind = none ∧ t.on (.ARR_CTL 3) F.ARR_CTL.map_reject = true)) = true
    ∧ holds (exec (.apCeilingWrite 3 2) s) (fun t => decide (t.rd (.ARR_CTL 3) F.ARR_CTL.ap_ceiling = 2)) = true
    ∧ holds (exec (.arrWinSelWrite 3 131) s) (fun t => decide (t.winArr 3 = 131)) = true
    ∧ holds (exec (.arrWinSelWrite 3 132) s) (fun t => decide (t.winArr 3 = 0 ∧ t.raises = [⟨0x403, 0x403, 3, 0xFFFF, [0x1040]⟩])) = true := by decide +kernel

theorem test_converter_control :
    let s := State.reset
    let m := s.setParr 3 0 { PArr.reset with pendMap := [(5, 256)] }
    let f := s.setParr 3 0 { PArr.reset with pendFence := [5] }
    (s.mapWriteOk 3 0 5 256 = true ∧ s.mapWriteOk 3 0 5 6 = false ∧ s.fenceOk 3 0 5 = true ∧ s.rd (.CONV_STAT 3 0 256) F.CONV_STAT.role = 1 ∧ s.srv 3 0 5 = 5
      ∧ s.rd (.CONV_STAT 3 0 5) F.CONV_STAT.serves = 5 ∧ f.freeMirror 3 0 = some 256 ∧ (s.wr (.CONV_STAT 3 0 5) F.CONV_STAT.fence 1).fenceOk 3 0 5 = false)
    ∧ holds (exec (.convMapWrite 3 5 256) s) (fun t => decide ((t.parr 3 0).pendMap = [(5, 256)] ∧ t.on (.CONV_MAP 3 0 5) F.CONV_MAP.pending = true)) = true
    ∧ holds (exec (.convMapWrite 3 5 6) s) (fun t => decide (t.raises = [⟨0x403, 0x403, 3, 0xFFFF, [0x2028]⟩])) = true
    ∧ holds (exec (.convFenceWrite 3 5) s) (fun t => decide ((t.parr 3 0).pendFence = [5])) = true
    ∧ holds (exec (.convFenceWrite 3 5) (s.wr (.CONV_STAT 3 0 5) F.CONV_STAT.fence 1)) (fun t => decide (t.raises = [⟨0x403, 0x403, 3, 0xFFFF, [0x2828]⟩])) = true
    ∧ holds (exec (.convMapApply 3 0) m) (fun t => decide (t.srv 3 0 5 = 256 ∧ t.rd (.CONV_STAT 3 0 256) F.CONV_STAT.role = 2
        ∧ t.rd (.CONV_STAT 3 0 5) F.CONV_STAT.serves = 0x1FF ∧ (t.parr 3 0).pendMap = [])) = true
    ∧ holds (exec (.converterFenceApply 3 0) f) (fun t => decide (t.on (.CONV_STAT 3 0 5) F.CONV_STAT.fence = true ∧ t.rd (.CONV_STAT 3 0 5) F.CONV_STAT.role = 5
        ∧ t.srv 3 0 5 = 256 ∧ (t.raises.map (fun r => (r.code, r.unit, r.fields))).contains (0x402, 3, [0, 5]) = true)) = true := by decide +kernel

theorem test_outliers_and_check_window :
    let j : OutJob := ⟨0, 1, issue1, [(7, 0x3F80)], true, []⟩
    let s := fun j => { State.reset with outJobs := [(3, [j])] }
    (Tab.getD (s j).outJobs 3 [] = [j] ∧ (s j).outHeld 3 j = false ∧ rowOk ((s j).larr 3 0).chk ((s j).cellRow 3 j 0 7) 7 = true ∧ issue1.slices = 1
      ∧ (s j).on (.GOLD_BASE 3 0) F.GOLD_BASE.valid = false ∧ (s j).betweenProducts 3 0 = true ∧ (parr1 [] (some (prod1 none [] 32))).betweenProducts 3 0 = false)
    ∧ holds (exec (.outlierRowRead 3 [] []) (s j)) (fun t => decide (Tab.getD t.outJobs 3 [] = [])) = true
    ∧ holds (exec (.outlierRowRead 3 [0] [0]) (s j)) (fun t => decide (Tab.getD t.outJobs 3 [] = [{ j with gold := [0] }] ∧ t.rd (.SP_ERR 3) F.SP_ERR.row_gold = 1)) = true
    ∧ holds (exec (.outlierGoldRow 3) (s { j with gold := [0] })) (fun t => decide (((t.larr 3 0).bank 0).outBad = true ∧ t.rd (.SP_ERR 3) F.SP_ERR.gold_fail = 1
        ∧ (t.raises.map (fun r => (r.code, r.fields))).contains (0x407, [0, 0xFF]) = true)) = true
    ∧ holds (exec (.chkWinSelWrite 3 127) State.reset) (fun t => decide (t.rd (.CHK_WIN_SEL 3) F.CHK_WIN_SEL.logical = 127)) = true
    ∧ holds (exec (.checkWindowWrite 3 383 (2 ^ 63 + 1)) State.reset) (fun t => decide ((t.larr 3 0).chk.readNat 3064 8 = 2 ^ 63 + 1)) = true
    ∧ holds (exec (.checkWindowWrite 3 383 5) (parr1 [] (some (prod1 none [] 32)))) (fun t => decide ((t.larr 3 0).chkPend = [(383, 5)])) = true := by decide +kernel

/-- Region 0 out of COLD, at a temperature in 1/16 degrees. -/
def warm (temp : Nat) : State := (State.reset.wr (.REGION_THERM 0) F.REGION_THERM.state 0).wr (.CAL_REGION_STAT 0) F.CAL_REGION_STAT.t_now temp
def withRegion (s : State) (r : Region) : State := { s with regions := [(0, r)] }

theorem test_calibration_runs :
    let s := warm 800
    let due := withRegion s { Region.reset with trimSeq := 2, trimTemp := 400 }
    let c : CalRun := ⟨5, [(3, 0)], 1, 0, 0⟩
    let run := (withRegion (s.setReg .SYS_TIME (2 ^ 34 + 5)) { Region.reset with cal := some c })
    (s.calDue 0 = true ∧ State.reset.calDue 0 = false ∧ (due.parr 3 0).trimSeq ≠ (due.region 0).trimSeq ∧ (run.region 0).cal = some c
      ∧ c.start + 2 ^ 34 ≤ run.reg .SYS_TIME)
    ∧ holds (exec (.trimRecompute 0) s) (fun t => decide ((t.region 0).trimTemp = 800 ∧ (t.region 0).trimSeq = 1)) = true
    ∧ holds (exec (.calRunStart 0) State.reset) (fun t => decide (t = State.reset)) = true
    ∧ holds (exec (.calStartWrite 0) s) (fun t => t.on (.CAL_REGION_CTL 0) F.CAL_REGION_CTL.start) = true := by decide +kernel

theorem test_calibration_attempts :
    let full : ConvStat := ⟨0, 0, 4095, 0, 2 ^ 22, false⟩
    let run := withRegion (warm 800) { Region.reset with cal := some ⟨5, [(3, 0)], 0, 0, 0⟩ }
    let at_ := fun c => run.setParr 3 0 { PArr.reset with conv := [(5, c)] }
    let sh : Shadow := ⟨5, 256, 5, 2 ^ 20, false, 7, 9, false, 0⟩
    let shad := fun h => (run.setParr 3 0 { PArr.reset with shadows := [h] })
    let want := run.setParr 3 0 { PArr.reset with wantShadow := [(5, 7, 9)] }
    let pend := (withRegion (warm 800) { Region.reset with storePend := [(3, 0, 5)] }).setReg (.CONV_SETLO 3 0 5) 7
    (run.on (.CAL_REGION_CTL 0) F.CAL_REGION_CTL.hold = false ∧ run.rd (.CONV_STAT 3 0 5) F.CONV_STAT.role = 0 ∧ 3 ≤ (want.mirrorsIn 3 0 1).length
      ∧ want.freeMirror 3 0 = some 256 ∧ (bracket 800).all (plausible 0 0 0 0 0 0) = true ∧ pend.regionTemp 0 = 800 ∧ (warm 239).regionTemp 0 = 239)
    ∧ holds (exec (.calWindowFull 3 0 5) (at_ full)) (fun t => decide (t.rd (.CONV_CAL 3 0 5) F.CONV_CAL.last = 4 ∧ t.rd (.ARR_CAL 3 0) F.ARR_CAL.deferrals = 1)) = true
    ∧ holds (exec (.calWindowFull 3 0 5) (at_ { full with m0 := 4096 })) (fun t => decide ((t.parr 3 0).wantShadow = [(5, 0, 0)])) = true
    ∧ holds (exec (.shadowWindowStart 3 0) want) (fun t => decide ((t.parr 3 0).shadows = [⟨5, 256, 5, 0, false, 7, 9, false, 0⟩] ∧ t.srv 3 0 5 = 256
        ∧ t.rd (.CONV_STAT 3 0 5) F.CONV_STAT.role = 4 ∧ t.rd (.CONV_STAT 3 0 256) F.CONV_STAT.role = 3)) = true
    ∧ holds (exec (.calAttemptEnd 3 0 5) (shad sh)) (fun t => decide (t.reg (.CONV_SETLO 3 0 5) = 7 ∧ t.reg (.CONV_SETHI 3 0 5) = 9 ∧ t.srv 3 0 5 = 5
        ∧ t.rd (.CONV_CAL 3 0 5) F.CONV_CAL.last = 1 ∧ (t.region 0).storePend = [(3, 0, 5)] ∧ (t.parr 3 0).shadows = [])) = true
    ∧ holds (exec (.calAttemptEnd 3 0 5) (shad { sh with differs := true })) (fun t => decide (t.rd (.CONV_CAL 3 0 5) F.CONV_CAL.last = 3
        ∧ t.rd (.CONV_CAL 3 0 5) F.CONV_CAL.fail_consec = 1 ∧ t.reg (.CONV_SETLO 3 0 5) = 0)) = true
    ∧ holds (exec (.calStoreWrite 3 0 5) pend) (fun t => decide ((t.region 0).storePend = [] ∧ Tab.getD t.calStore (storeKey 3 0 5) (0, 0) = (7, 0))) = true
    ∧ holds (exec (.calStoreWrite 3 0 5) (withRegion (warm 239) { Region.reset with storePend := [(3, 0, 5)] })) (fun t => decide ((t.region 0).storePend = [(3, 0, 5)])) = true := by
  decide +kernel

/-- A refresh of array 0 of facet 3 into array 32. -/
def ref1 (phase : Nat) (rows : List Nat) (cycle : Nat) : Refresh := ⟨3, 0, 32, 0, phase, rows, cycle, 0, true, 4⟩
def withRef (r : Refresh) : State := withRegion (warm 800) { Region.reset with refs := [r] }

theorem test_scans_and_refresh :
    let wr := (withRef (ref1 2 [9, 10] 4)).setArrState 3 32 4
    let due := ((warm 800).wr (.SP_ARR 3 0) F.SP_ARR.takeover_req 1).wr (.GOLD_BASE 3 0) F.GOLD_BASE.valid 1
    let b := ((withRef (ref1 2 [] 0)).setLarr 3 0 { LArr.reset with bind := some (32, true) }).setArrState 3 32 4
    let last := (withRef (ref1 4 [] 0)).setArrState 3 0 3
    ((warm 800).arrState 3 0 = 1 ∧ due.dueClass 3 0 = some 1 ∧ due.claimable 3 0 = some 32 ∧ due.regionCold 0 = false
      ∧ wr.refreshAt 3 32 = some (ref1 2 [9, 10] 4) ∧ wr.arrState 3 0 ≠ 5 ∧ (withRef (ref1 2 [9] 0)).mayStartRow 3 32 0 = true ∧ b.physOf 3 0 = 0 ∧ b.arrState 3 0 = 1
      ∧ b.betweenProducts 3 0 = true ∧ last.arrState 3 0 = 3 ∧ (last.parr 3 0).lost = false ∧ last.rd (.ARR_WEAR 3 0) F.ARR_WEAR.writes < 100000)
    ∧ holds (exec (.arrayScanEnd 3 0 [(7, 2, 0), (8, 0, 0), (9, 1, 1)]) (warm 800)) (fun t => decide (t.rd (.ARR_MARGIN 3 0) F.ARR_MARGIN.weak_cells = 4
        ∧ (t.parr 3 0).weakRows = [7, 9] ∧ (t.parr 3 0).flipped = true)) = true
    ∧ holds (exec (.rowWriteCycle 3 32 false true) (withRef (ref1 2 [9, 10] 3))) (fun t => decide ((t.region 0).refs = [ref1 2 [9, 10] 4])) = true
    ∧ holds (exec (.rowWriteCycle 3 32 false true) wr) (fun t => decide ((t.region 0).refs = [] ∧ t.arrState 3 32 = 5
        ∧ (t.raises.map (fun r => (r.code, r.fields))).contains (0x205, [3, 32, 9]) = true)) = true
    ∧ holds (exec (.writeWindowResume 3 32) (withRef (ref1 2 [9] 0))) (fun t => decide ((t.region 0).refs = [ref1 2 [9] 1])) = true
    ∧ holds (exec (.refreshRebind 3 0) b) (fun t => decide (t.physOf 3 0 = 32 ∧ t.arrState 3 32 = 1 ∧ t.arrState 3 0 = 3)) = true
    ∧ holds (exec (.refreshComplete 3 0 []) last) (fun t => decide ((t.region 0).refs = [] ∧ t.arrState 3 0 = 2 ∧ t.raises = [⟨0x40, 0x204, 0, 0xFFFF, [3, 0, 32, 4]⟩])) = true
    ∧ holds (exec (.refreshComplete 3 0 [(6, 0, 1)]) last) (fun t => decide (t.arrState 3 0 = 5 ∧ (t.raises.map (fun r => (r.code, r.fields))).contains (0x205, [3, 0, 6]) = true)) = true := by
  decide +kernel

/-- A loader ring of 16 slots at 0x6000_0000_0000 with a descriptor in slot 0. -/
def ring (b : List Byte) : State := { ((State.reset.wr .LD_CTL F.LD_CTL.enable 1).wr .LD_RING F.LD_RING.tail 1) with
  hub := Mem.empty.write 0 b, hbm := ⟨[(4097, 7)], [], []⟩ }
def pad64 (b : List Byte) : List Byte := b ++ List.replicate (64 - b.length) 0
def copyDesc (kind : Byte) (len : Byte) : List Byte := pad64 ([kind, 0, 5, 0, 0, 0, 0, 0] ++ [0, 16, 0, 0, 0, 0, 0, 0] ++ [0, 32, 0, 0, 0, 0, 0, 0] ++ [len])

theorem test_loader_copies :
    ((ring (copyDesc 1 64)).nextJob = some (0, copyDesc 1 64) ∧ (jobOf 0 (copyDesc 1 64)).kind = 1 ∧ (jobOf 0 (copyDesc 1 64)).len = 64
      ∧ jobBad (copyDesc 1 64) = false ∧ jobBad (copyDesc 1 63) = true ∧ jobBad (copyDesc 2 64) = false ∧ (ring (copyDesc 2 64)).nextJob = some (0, copyDesc 2 64)
      ∧ (ring (copyDesc 1 64)).pageOf 4096 = none ∧ (ring (copyDesc 1 64)).hbmLost 8192 = false ∧ (ring (copyDesc 1 64)).rangeOf 4096 = none)
    ∧ holds (exec .copy (ring (copyDesc 1 64))) (fun t => decide (t.hbm.bytes = [(4097, 7), (8193, 7)] ∧ t.rd .LD_RING F.LD_RING.head = 1
        ∧ t.loader.jobs.map (fun j => (j.slot, j.status)) = [(0, some 1)])) = true
    ∧ holds (exec .mcast (ring (copyDesc 2 64))) (fun t => decide (t.hbm.bytes = [(4097, 7)] ∧ t.rd .LD_RING F.LD_RING.head = 1)) = true
    ∧ holds (exec .copy (ring (copyDesc 1 63))) (fun t => decide (t.hbm.bytes = [(4097, 7)] ∧ t.loader.jobs.map (fun j => (j.slot, j.status)) = [(0, some 0x8001)])) = true := by
  decide +kernel

/-- AWRITE of logical array 0 of facet 3, golden copy at 0x1000. -/
def awriteDesc (rebind : Byte) (epoch : Byte) : List Byte :=
  pad64 ([3, rebind, 5, 0, epoch, 0, 0, 0] ++ [0, 16, 0, 0, 0, 0, 0, 0] ++ [3, 0, 0, 0, 0, 0, 0, 0] ++ [0, 0, 16, 0, 0, 0, 0, 0])

theorem test_loader_writes :
    let d := ring (awriteDesc 0 0)
    let r := ring (awriteDesc 1 6)
    let job : LdJob := { jobOf 0 (awriteDesc 0 0) with phys := 0 }
    let ended := fun (j : LdJob) => { (d.setArrState 3 0 4) with loader := ⟨[j], [], []⟩ }
    let cp : LdJob := { jobOf 0 (copyDesc 1 64) with status := some 0x8002, evt := true }
    (d.nextJob = some (0, awriteDesc 0 0) ∧ jobBad (awriteDesc 0 0) = false ∧ jobBad (awriteDesc 1 6) = false ∧ r.claimable 3 0 = some 32 ∧ job.pf = 3
      ∧ job.logical = 0 ∧ d.arrState 3 0 = 1 ∧ d.betweenProducts 3 0 = true ∧ r.rd (.FAC_EPOCH 3) F.FAC_EPOCH.staged_epoch = 0)
    ∧ holds (exec .awriteDirect d) (fun t => decide (t.arrState 3 0 = 4 ∧ t.rd (.ARR_WEAR 3 0) F.ARR_WEAR.writes = 1
        ∧ t.loader.jobs.map (fun q => (q.slot, q.phys, q.rows.length)) = [(0, 0, 1024)])) = true
    ∧ holds (exec .awriteRebind r) (fun t => decide (t.arrState 3 32 = 4 ∧ t.physOf 3 0 = 0 ∧ t.loader.jobs.map (fun q => (q.slot, q.phys)) = [(0, 32)])) = true
    ∧ holds (exec (.loaderJobEnd 0) (ended cp)) (fun t => decide (t.loader.jobs = [] ∧ t.hub.readNat 6 2 = 0x8002 ∧ t.rd .LD_STAT F.LD_STAT.last_err = 0x8002
        ∧ t.rd .LD_STAT F.LD_STAT.errors = 1 ∧ t.raises = [⟨0, 0x102, 0xFFFF, 0xFFFF, [5, 1, 0x8002]⟩])) = true := by decide +kernel

theorem test_epochs_and_placement :
    let s := State.reset
    let busy := (s.wr (.EP_STAT 5) F.EP_STAT.busy 1).wr (.EP_CTL 5) F.EP_CTL.target 0
    let freed := (s.wr (.LF_MAP 20) F.LF_MAP.valid 0).wr (.FAC_BIND 21) F.FAC_BIND.lf 0x3FF
    (s.oldEpoch 5 = 0 ∧ busy.switchErr 5 Cost.reset = 1 ∧ freed.pfOf 20 = none ∧ freed.lfOf 21 = 0x3FF ∧ freed.idleUnbound 21 = true ∧ (freed.facet 21).fenced = false
      ∧ s.pfOf 20 = some 21 ∧ s.idleUnbound 21 = true)
    ∧ holds (exec (.epochSwitch 5) s) (fun t => t.on (.EP_STAT 5) F.EP_STAT.busy) = true
    ∧ holds (exec (.epochSwitchDone 5 Cost.reset) busy) (fun t => decide (t.on (.EP_STAT 5) F.EP_STAT.busy = false ∧ t.rd (.EP_STAT 5) F.EP_STAT.err = 1
        ∧ t.raises = [⟨1, 0x104, 5, 0xFFFF, [0, 1]⟩])) = true
    ∧ holds (exec (.epochRetire 5) s) (fun t => decide (t = s)) = true
    ∧ holds (exec (.lfMapWrite 20 (2 ^ 63 + 21)) freed) (fun t => decide (t.pfOf 20 = some 21 ∧ t.lfOf 21 = 20)) = true
    ∧ holds (exec (.lfMapWrite 20 0) s) (fun t => decide (t.pfOf 20 = none ∧ t.lfOf 21 = 0x3FF)) = true
    ∧ holds (exec (.lfMapWrite 20 (2 ^ 63 + 22)) (s.wr (.FAC_BIND 21) F.FAC_BIND.bound 1)) (fun t => decide (t.pfOf 20 = some 21 ∧ t.on (.LF_MAP 20) F.LF_MAP.refused = true)) = true := by
  decide +kernel

/-- A channel 5 of peer 7000 at address 1, two messages sent, and its entries. -/
def chan5 : Chan := { Chan.reset with enabled := true, family := 4, retryLimit := 3, peerPort := 7000, peerAddr := 1, rto := 8, rxNext := 1, txNext := 3
                                      sent := [⟨1, 3, 9, []⟩, ⟨2, 3, 9, []⟩] }
def serving (c : Chan) (es : Tab Entry) : State :=
  let s := ((State.reset.wr .RT_CTL F.RT_CTL.enable 1).wr (.SPORT_CTL 0) F.SPORT_CTL.enable 1).setChan 5 c
  let s := ((s.wr (.SVC_CTL 2) F.SVC_CTL.enable 1).wr (.SVC_STAT 2) F.SVC_STAT.admitted 1).wr (.SVC_LEN 2) F.SVC_LEN.max_prompt_bytes 100
  { s.wr (.SVC_LEN 2) F.SVC_LEN.max_len 50 with serve := { s.serve with entries := es } }

/-- A frame of channel 5 and request 9, of a type, sequence number and acknowledgement, with a body. -/
def frame (typ seq ack : Byte) (body : List Byte) : Frame :=
  ⟨0, State.reset.rd .RT_CTL F.RT_CTL.udp_port, 7000, 1, false, false, false, 0, true, true,
    [1, typ, 0, 0, 5, 0, BitVec.ofNat 8 body.length, 0, seq, 0, 0, 0, ack, 0, 0, 0, 9, 0, 0, 0, 0, 0, 0, 0] ++ body⟩

/-- A prompt of two bytes for service 2, of at most 4 tokens. -/
def prompt (limit : Byte) : List Byte :=
  [2, 1, 4, 0, 0, 0, 0, 0, limit, 0, 0, 0, 0, 0, 0, 0, 0, 0, 0, 0, 0, 0, 0x80, 0x3F, 0, 0, 0x80, 0x3F, 2, 0, 0, 0, 65, 66]
def live9 : Entry := { Entry.reset with state := 3, service := 2, channel := 5, reqId := 9 }

theorem test_submit :
    let s := serving chan5 []
    let good := s.ingress (frame 1 1 0 (prompt 4))
    let bad := s.ingress (frame 1 1 0 (prompt 0))
    let h := parseMsg (frame 1 1 0 (prompt 4)).payload
    (good.2 = some (h, prompt 4) ∧ good.1.submitBad h (prompt 4) none = none ∧ good.1.asmOf h.chan h.reqId = none ∧ good.1.freeFor 0 3 = true
      ∧ bad.2 = some (h, prompt 0) ∧ bad.1.submitBad h (prompt 0) none = some (1, 8) ∧ (bad.1.chan 5).room = true)
    ∧ holds (exec (.submit (frame 1 1 0 (prompt 4)) 3) s) (fun t => decide ((t.entry 3).state = 1 ∧ (t.entry 3).received = 2 ∧ (t.entry 3).reqId = 9
        ∧ t.hbm.read (t.areaOf 3) 2 = [65, 66])) = true
    ∧ holds (exec (.submit (frame 1 1 0 (prompt 0)) 3) s) (fun t => decide (t.serve.entries = []
        ∧ (t.chan 5).sent.getLast? = some ⟨3, 5, 9, [1, 0, 0, 0, 8, 0, 0, 0]⟩)) = true := by decide +kernel

theorem test_cancel_and_acknowledge :
    let s := serving chan5 [(3, live9)]
    ((s.ingress (frame 2 1 0 [])).2 = some (parseMsg (frame 2 1 0 []).payload, []) ∧ s.takesFrame (frame 2 0 1 []) = true ∧ s.dropsFrame (frame 2 0 1 []) = false)
    ∧ holds (exec (.cancel (frame 2 1 0 [])) s) (fun t => decide ((t.entry 3).state = 8 ∧ (t.entry 3).endReason = 2)) = true
    ∧ holds (exec (.clientBareAck (frame 2 0 1 [])) s) (fun t => decide ((t.chan 5).txAcked = 1 ∧ (t.chan 5).sent = [⟨2, 3, 9, []⟩] ∧ (t.chan 5).rxNext = 1)) = true := by
  decide +kernel

theorem test_assembly_and_tokens :
    let asm := { Entry.reset with flags := 8, channel := 5, reqId := 9 }
    let s := { serving chan5 [(3, asm)] with time := 10 ^ 12 }
    let v : Vocab := ⟨300, [(65, [65]), (66, [66])], [], []⟩
    let q := { Entry.reset with state := 1, service := 2, head := prompt 4 }
    let k := serving chan5 [(3, q)]
    let k := { k with serve := { k.serve with vocabs := [(0, v)], tok := [(1, 3)] }, hbm := ⟨[(k.areaOf 3, 65), (k.areaOf 3 + 1, 66)], [], []⟩ }
    (asm.flag fAsm = true ∧ s.rd .RT_CTL F.RT_CTL.asm_ms * 1000000 ≤ s.time ∧ k.vocabOf 2 = v ∧ field q.head 28 4 = 2)
    ∧ holds (exec (.asmTimeout 3) s) (fun t => decide (t.entry 3 = Entry.reset ∧ (t.chan 5).sent.getLast? = some ⟨3, 5, 9, [8, 0, 0, 0, 0, 0, 0, 0]⟩)) = true
    ∧ holds (exec (.tokenizeBlock 1) k) (fun t => decide ((t.entry 3).tokReady = true ∧ (t.entry 3).promptLen = 2 ∧ (t.entry 3).maxLen = 6
        ∧ t.tokensOf 3 0 2 = [65, 66])) = true
    ∧ (64 < field ({ q with head := (prompt 4).take 28 ++ [200, 0, 0, 0] }).head 28 4)
    ∧ holds (exec (.tokenizeBlock 1) (k.setEntry 3 { q with head := (prompt 4).take 28 ++ [200, 0, 0, 0] })) (fun t => decide ((t.entry 3).tokBlocks = 1
        ∧ (t.entry 3).tokReady = false)) = true := by decide +kernel

theorem test_egress :
    let x := { live9 with promptLen := 2, genLen := 1, outq := [(0, 1)] }
    let s := serving chan5 [(3, x)]
    let s := { s with hbm := ⟨[(s.tokAt 3 2, 77)], [], []⟩ }
    let e := serving chan5 [(3, { live9 with state := 7, promptLen := 2, genLen := 1 })]
    ((s.chan 5).room = true ∧ (e.entry 3).terminal = true)
    ∧ holds (exec (.egressTokens 3) s) (fun t => decide ((t.entry 3).outq = [] ∧ (t.chan 5).txNext = 4
        ∧ (t.chan 5).sent.getLast? = some ⟨3, 3, 9, [0, 0, 0, 0, 1, 0, 0, 0, 77, 0, 0, 0]⟩)) = true
    ∧ holds (exec (.egressEnd 3) e) (fun t => decide ((t.entry 3).endSeq = some 3
        ∧ (t.chan 5).sent.getLast? = some ⟨3, 4, 9, [0, 0, 0, 0, 1, 0, 0, 0, 0, 0, 0, 0, 2, 0, 0, 0]⟩)) = true := by decide +kernel

theorem test_channel_timers :
    let ack := { serving { chan5 with ackDue := some 0 } [] with time := 10000 }
    let due := fun r => { serving { chan5 with timer := some 7, retries := r } [(3, live9)] with time := 8 }
    let cfg : List Byte := [6, 0x80, 3, 0, 4, 9, 0x58, 0x1B, 10, 0, 0, 1, 0, 0, 0, 0, 0, 0, 0, 0, 0, 0, 0, 0, 50, 0, 0, 0]
    (((due 0).chan 5).timer = some 7 ∧ (due 2).serve.entries = [(3, live9)] ∧ (ack.chan 5).ackDue = some 0)
    ∧ holds (exec (.bareAckTimer 5) ack) (fun t => decide ((t.chan 5).ackDue = none
        ∧ t.out = [.msg 5 [1, 3, 0, 0, 5, 0, 8, 0, 0, 0, 0, 0, 0, 0, 0, 0, 0, 0, 0, 0, 0, 0, 0, 0, 0, 0, 0, 0, 0, 0, 0, 0]])) = true
    ∧ holds (exec (.retransmitTimer 5) (due 0)) (fun t => decide ((t.chan 5).retries = 1 ∧ (t.chan 5).timer = some 8008 ∧ t.out.length = 2)) = true
    ∧ holds (exec (.retransmitTimer 5) (due 2)) (fun t => decide ((t.chan 5).state = 1 ∧ (t.chan 5).sent = [] ∧ t.entry 3 = Entry.reset
        ∧ t.raises = [rtEvent 0])) = true
    ∧ holds (exec (.channelEnable 6 cfg) State.reset) (fun t => decide ((t.chan 6).enabled = true ∧ (t.chan 6).customer = 6 ∧ (t.chan 6).rxNext = 1
        ∧ (t.chan 6).peerPort = 7000 ∧ (t.chan 6).peerAddr = 0x0A000001 ∧ (t.chan 6).rto = 50)) = true
    ∧ holds (exec (.channelEnable 5 []) (due 0)) (fun t => decide ((t.chan 5).enabled = false ∧ (t.chan 5).timer = none)) = true := by decide +kernel

/-- Service 2 placed on facet 3, epoch 7 current, customer 0 without a limit, with entries and steps. -/
def stepped (es : Tab Entry) (rs : List StepRun) : State :=
  let s := (serving chan5 es).wr (.FAC_BIND 3) F.FAC_BIND.bound 1
  let s := ((s.wr (.FAC_BIND 3) F.FAC_BIND.service 2).wr (.FAC_STAT 3) F.FAC_STAT.state 3).wr (.REGION_THERM 0) F.REGION_THERM.state 0
  let s := ((s.wr (.FAC_EPOCH 3) F.FAC_EPOCH.ep_a 7).wr (.EP_STAT 2) F.EP_STAT.cur 7).wr (.BUD_CFG 0) F.BUD_CFG.rate 0xFFFFFFFF
  let s := s.wr (.BUD_CFG 0) F.BUD_CFG.burst 100
  { s with serve := { s.serve with steps := rs, costs := [(2, { Cost.reset with lfs := [3] })], vocabs := [(0, ⟨2, [], [], []⟩)] } }
def dec9 : Entry := { live9 with epoch := 7, promptLen := 2, genLen := 1, maxLen := 6, prefillPos := 2, repPenalty := 0x3F80 }
/-- Step 4 of service 2, one record of entry 3, waiting for the LFs `w`. -/
def step4 (w : List Nat) : StepRun := ⟨2, 4, 7, 0, [⟨3, false, true, false, 1, 2, 0, 0⟩], [3], w, [3], false, [], []⟩
def desc4 : Desc := ⟨2, 4, 7, []⟩

theorem test_step_formed :
    let s := stepped [(3, dec9)] []
    (s.svcOn 2 = true ∧ s.barHeld 2 = false ∧ s.placement 2 = [3] ∧ s.placedAll 2 = true ∧ s.facetReady 3 = true
      ∧ (orderEntries (s.serve.entries.filter (fun p => decide (p.2.service = 2) && s.eligible p))).map Prod.fst = [3]
      ∧ (Forming.take 2 ⟨s, [], [], [], false, none, 0, false⟩ 3).recs.length = 1 ∧ s.lfOf 3 = 3)
    ∧ holds (exec (.formStep 2) s) (fun t => decide (Tab.getD t.serve.nextStep 2 0 = 1 ∧ t.serve.sending.map Sending.pf = [3]
        ∧ t.serve.steps.map (fun r => (r.step, r.wait, r.uncommitted)) = [(0, [3], [3])] ∧ (t.entry 3).step = some 0)) = true := by decide +kernel

theorem test_descriptors_and_reports :
    let s := stepped [(3, { dec9 with step := some 4, prev := 3 })] [step4 [3, 9]]
    let d := { s with serve := { s.serve with sending := [⟨3, desc4⟩], kvReports := [(2, 4)] } }
    let r := fun ok => { s with noc := { Noc.reset with reports := [(3, 4, ok)] } }
    let q := { stepped [] [{ step4 [3] with uncommitted := [] }] with noc := { Noc.reset with reports := [(3, 4, true)] } }
    (d.serve.sending.find? (fun q => decide (q.pf = 3)) = some ⟨3, desc4⟩ ∧ (d.region 0).mr = none
      ∧ (r true).serve.steps.find? (fun q => decide (q.step = 4) && q.wait.contains 3) = some (step4 [3, 9]) ∧ q.kvOpen 2 4 true = false)
    ∧ holds (exec (.descriptorArrive 3) d) (fun t => decide ((t.facet 3).core.dq = [desc4] ∧ t.serve.sending = [] ∧ t.rd (.FAC_STAT 3) F.FAC_STAT.dq_depth = 1)) = true
    ∧ holds (exec (.kvWriteCompletion 2 4) d) (fun t => decide (t.serve.kvReports = [])) = true
    ∧ holds (exec (.scommitReport 3 4) (r true)) (fun t => decide (t.noc.reports = [] ∧ t.stepRun 2 4 = some (step4 [9]))) = true
    ∧ holds (exec (.scommitReport 3 4) q) (fun t => decide (t.stepRun 2 4 = none)) = true
    ∧ holds (exec (.stepFailedReport 3 4) (r false)) (fun t => decide ((t.entry 3).step = none ∧ (t.entry 3).state = 3 ∧ (t.entry 3).flag fRetried = true)) = true := by
  decide +kernel

/-- The sampler of entry 3 has latched 1.0 and 2.0. -/
def sampled (x : Entry) (z : Nat × Bool) : State :=
  let s := stepped [(3, x)] [step4 [3]]
  { s with serve := { s.serve with samplers := [(3, { Sampler.reset with step := 5, logits := [(0, (0x3F800000, false)), (1, z)] })] } }

theorem test_samplers :
    let x := { dec9 with step := some 4, prev := 3 }
    let s := stepped [(3, x)] [step4 [3]]
    let s := { s with noc := { Noc.reset with logits := [⟨3, 1, some 4, 2, 3, [(0x40000000, false)]⟩] } }
    let g := sampled x (0x40000000, false)
    let row := [(0x3F800000, false), (0x40000000, false)]
    ((step4 [3]).samples 3 = true ∧ (s.vocabOf 2).size = 2 ∧ (g.sampler 3).row 0 2 = some row ∧ (g.drawToken 3 x.total [] row).2 = .token 1
      ∧ g.isStop 2 1 = false ∧ g.poolOn 2 = false ∧ g.hbm.isLost (g.tokAt 3 x.total / 64) = false
      ∧ ((sampled x (0, true)).drawToken 3 x.total [] [(0x3F800000, false), (0, true)]).2 = .fail 1)
    ∧ holds (exec (.soutLogits 3 3) s) (fun t => decide (t.noc.logits = [] ∧ (t.sampler 3).step = 5 ∧ Tab.find? (t.sampler 3).logits 1 = some (0x40000000, false))) = true
    ∧ holds (exec (.tokenCommit 3) g) (fun t => decide ((t.entry 3).genLen = 2 ∧ t.tokenOf 3 3 = 1 ∧ (t.entry 3).outq = [(1, 1)]
        ∧ t.rd (.BUD_STAT 0) F.BUD_STAT.charged = 1)) = true
    ∧ holds (exec (.tokenCommit 3) (sampled x (0, true))) (fun t => decide ((t.entry 3).state = 9 ∧ (t.entry 3).endReason = 3 ∧ (t.entry 3).endCause = 1)) = true := by
  decide +kernel

/-- A verify of a tree of one node of token 1, then of token 0. -/
theorem test_verify :
    let x := { dec9 with step := some 4, prev := 3, state := 4, treeNodes := 1 }
    let tree := fun (k : Byte) =>
      (sampled x (0x40000000, false)).hbmWrite (State.reset.treeAt 3) ([1, 0, 0, 0] ++ List.replicate 64 0xFF ++ [k, 0, 0, 0]) false
    (((tree 1).treeOf 3).valid 1 = true ∧ ((tree 1).treeOf 3).child none 1 = some 0 ∧ ((tree 0).treeOf 3).child none 1 = none)
    ∧ holds (exec (.verifySample 3) (tree 1)) (fun t => decide ((t.sampler 3).tokens = [1] ∧ (t.sampler 3).path = [0] ∧ (t.sampler 3).done = false)) = true
    ∧ holds (exec (.verifySample 3) (tree 0)) (fun t => decide ((t.sampler 3).tokens = [1] ∧ (t.sampler 3).path = [] ∧ (t.sampler 3).done = true)) = true := by
  decide +kernel

/-- Service 2 has a pool of three pages at 1 MiB, 16 tokens a page, page 2 drawn. -/
def pooled (es : Tab Entry) (free : List Nat) (k : Kv) : State :=
  let s := (serving chan5 es).wr (.KV_POOL_CFG 2) F.KV_POOL_CFG.pt_log2 4
  let s := ((s.wr (.KV_POOL_CFG 2) F.KV_POOL_CFG.enable 1).wr (.KV_POOL_CFG 2) F.KV_POOL_CFG.pages 3).wr (.KV_POOL_STRIDE 2) F.KV_POOL_STRIDE.pos_stride 64
  { (s.wr (.KV_POOL_BASE 2) F.KV_POOL_BASE.addr 16).wr (.KV_POOL_DESC 2) F.KV_POOL_DESC.addr 1 with kv := { k with free := [(2, free)] } }

theorem test_page_copies_and_seals :
    let x := { live9 with pageList := 0x4000000, pageCount := 1 }
    let cow := pooled [(3, x)] [0] { Kv.reset with copies := [⟨2, 3, 0, 2, 1⟩] }
    let q : Sealing := ⟨2, 3, 0, 2, 1, true⟩
    let swap := pooled [(3, x)] [0] { Kv.reset with seals := [q] }
    let com := pooled [(3, { x with pageCount := 1 })] [0] { Kv.reset with commits := [⟨2, 3, 4, 0, []⟩] }
    (cow.kv.copies[0]? = some ⟨2, 3, 0, 2, 1⟩ ∧ swap.kv.seals[0]? = some q ∧ x.flag fDispatched = false ∧ com.kvOpen 2 4 false = false ∧ com.missing 3 0 0 = [])
    ∧ holds (exec (.copyOnWrite 0) cow) (fun t => decide (t.kv.copies = [] ∧ t.rd (.KV_POOL_STAT 2) F.KV_POOL_STAT.cow = 1 ∧ t.listPage (t.entry 3) 0 = 1
        ∧ t.freeList 2 = [2, 0])) = true
    ∧ holds (exec (.sealSwap 0) swap) (fun t => decide (t.kv.seals = [] ∧ t.freeList 2 = [2, 0] ∧ t.listPage (t.entry 3) 0 = 1 ∧ (t.page 2 1).state = 3)) = true
    ∧ holds (exec (.commitCopy 0) com) (fun t => decide (t.kv.commits = [] ∧ t.serve = com.serve)) = true := by decide +kernel

theorem test_page_waits :
    let w := { live9 with state := 5, promptLen := 2, genLen := 1, prefillPos := 2, waitFrom := 7 }
    let s := pooled [(3, w)] [0, 1] Kv.reset
    let v := { live9 with reqId := 8, pageList := 0x4000000, pageCount := 1 }
    let two := { pooled [(3, w), (4, v)] [0] Kv.reset with time := 10 ^ 12 }
    (s.firstIn 2 5 = some 3 ∧ s.freeBeyond 2 = 2 ∧ s.listPage w (w.nextPos / 16) = 0xFFFFFFFF ∧ (s.setEntry 3 { w with state := 6 }).firstIn 2 6 = some 3
      ∧ w.waitFrom + two.rd (.SVC_CFG 2) F.SVC_CFG.pw_limit * 16000 ≤ two.time)
    ∧ holds (exec (.pageGrant 3) s) (fun t => decide ((t.entry 3).state = 3 ∧ (t.entry 3).waitFrom = 0 ∧ t.freeList 2 = [1])) = true
    ∧ holds (exec (.pageWaitTimer 3) two) (fun t => decide (t.entry 3 = { w with waitFrom := 10 ^ 12 } ∧ (t.entry 4).state = 6 ∧ (t.entry 4).pageCount = 0
        ∧ t.rd (.SVC_MISS 2) F.SVC_MISS.preempted = 1)) = true
    ∧ holds (exec (.pageWaitTimer 3) { s with time := 10 ^ 12 }) (fun t => decide (t.entry 3 = { w with waitFrom := 10 ^ 12 } ∧ t.kv = s.kv)) = true
    ∧ holds (exec (.resumePreempted 3) (s.setEntry 3 { w with state := 6 })) (fun t => decide ((t.entry 3).state = 2 ∧ t.freeList 2 = [0, 1])) = true := by
  decide +kernel

theorem test_pool_configuration :
    let legal := ((pooled [] [] Kv.reset).wr (.KV_POOL_CFG 2) F.KV_POOL_CFG.enable 0).wr (.KV_POOL_CFG 2) F.KV_POOL_CFG.pg_units 1
    let stat := Reg.KV_POOL_STAT 2
    ((∀ x < 64, x = 2 ∨ legal.poolOn x = false) ∧ legal.poolOn 2 = false ∧ State.reset.poolOk 2 = false ∧ (pooled [] [0, 1, 2] Kv.reset).poolPages 2 = 3)
    ∧ holds (exec (.kvPoolEnable 2) legal) (fun t => decide (t.poolOn 2 = true ∧ t.freeList 2 = [0, 1, 2] ∧ (t.page 2 0).link = 1 ∧ (t.page 2 2).link = 0xFFFFFFFF)) = true
    ∧ holds (exec (.kvPoolEnable 2) State.reset) (fun t => decide (t.poolOn 2 = false ∧ t.on stat F.KV_POOL_STAT.cfg_err = true)) = true
    ∧ holds (exec (.kvPoolDisable 2) (pooled [] [0, 1, 2] Kv.reset)) (fun t => decide (t.poolOn 2 = false ∧ t.freeList 2 = [])) = true
    ∧ holds (exec (.kvPoolDisable 2) (pooled [] [0, 1] Kv.reset)) (fun t => decide (t.poolOn 2 = true ∧ t.on stat F.KV_POOL_STAT.cfg_err = true)) = true
    ∧ holds (exec (.kvPoolStrideWrite 2 (2 ^ 20 + 128)) State.reset) (fun t => decide (t.posStride 2 = 128)) = true
    ∧ holds (exec (.kvPoolStrideWrite 2 128) (pooled [] [] Kv.reset)) (fun t => decide (t.posStride 2 = 64 ∧ t.on stat F.KV_POOL_STAT.cfg_err = true)) = true := by
  decide +kernel

theorem test_coded_ranges :
    let r := Reg.PRISM_RANGE_BASE 0 1
    let s := State.reset.wr (.PRISM_RANGE_SLOTS 0 1) F.PRISM_RANGE_SLOTS.slots 2
    let on := (s.wr r F.PRISM_RANGE_BASE.enable 1).wr r F.PRISM_RANGE_BASE.addr 16
    -- a header of coded length 64, and of raw data
    let hd := fun (b : Byte) => { on with hbm := ⟨[(0x12004, 64)] ++ (if b = 0 then [] else [(0x12005, b)]), [], []⟩ }
    let raw := { on with hbm := ⟨[(0x10041, 9), (0x12005, 0x80)], [], []⟩ }
    (raw.rangeOf 0x10040 = some (1, 0, 1) ∧ (parseHdr (raw.hbm.read 0x12000 32)).raw = true ∧ (parseHdr ((hd 0).hbm.read 0x12000 32)).codedLen = 64
      ∧ (parseHdr ((hd 0).hbm.read 0x12000 32)).raw = false ∧ (hd 0).rangeOf 0x10000 = some (1, 0, 0))
    ∧ holds (exec (.codedSectorRead 0 0 0x10040) raw) (fun t => decide (t.out = [.read 0x900 false])) = true
    ∧ holds (exec (.codedSectorRead 0 0 0x10040) (hd 0)) (fun t => decide (t.out = [.read 0 false] ∧ t.rd (.PRISM_RANGE_STAT 0) F.PRISM_RANGE_STAT.skipped = 1)) = true
    ∧ holds (exec (.prismRangeEnable 0 1 (2 ^ 63 + 0x10000)) s) (fun t => decide (t.on r F.PRISM_RANGE_BASE.enable = true ∧ t.rd r F.PRISM_RANGE_BASE.addr = 16)) = true
    ∧ holds (exec (.prismRangeEnable 0 1 (2 ^ 63 + 0x10000)) State.reset) (fun t => decide (t.on r F.PRISM_RANGE_BASE.enable = false
        ∧ t.on (.PRISM_RANGE_STAT 0) F.PRISM_RANGE_STAT.cfg_err = true)) = true
    ∧ holds (exec (.prismRangeEnable 0 1 0x10000) s) (fun t => decide (t.on r F.PRISM_RANGE_BASE.enable = false ∧ t.rd r F.PRISM_RANGE_BASE.addr = 16)) = true
    ∧ holds (exec (.prismRangeEnable 0 1 0x20000) on) (fun t => decide (t.on r F.PRISM_RANGE_BASE.enable = false ∧ t.rd r F.PRISM_RANGE_BASE.addr = 16
        ∧ t.on (.PRISM_RANGE_STAT 0) F.PRISM_RANGE_STAT.cfg_err = true)) = true := by decide +kernel

/-- The bytes of an entry that software queues: for service 2, of a prompt of 3 tokens. -/
def swBytes : List Byte :=
  [1, 4, 0, 8, 0, 0, 0, 0, 3, 0, 0, 0] ++ List.replicate 57 0 ++ [0x80] ++ List.replicate 4 0 ++ [0x80, 0x3F, 0x80, 0x3F] ++ List.replicate 50 0

theorem test_software_entries :
    let s := (serving chan5 [(3, live9), (4, { live9 with state := 7, channel := 0x8000 })]).wr .RT_CTL F.RT_CTL.sw_entries 4000
    let y := entryOf swBytes
    let rejected := fun (t : State) => decide (t.serve = s.serve ∧ t.raises = [rtEvent 2] ∧ t.rd .RT_STAT F.RT_STAT.sw_reject = 1)
    (s.swEntry 200 = true ∧ s.swEntry 3 = false ∧ y.state = 1 ∧ y.service = 2 ∧ y.priority = 4 ∧ y.promptLen = 3 ∧ y.sw = true
      ∧ samplingBad y.temperature y.topP y.topK y.repPenalty = none ∧ (s.entry 4).sw = true ∧ (s.entry 4).terminal = true)
    ∧ holds (exec (.swEntryQueue 200 swBytes) s) (fun t => decide ((t.entry 200).state = 1 ∧ (t.entry 200).service = 2 ∧ (t.entry 200).promptLen = 3
        ∧ (t.entry 200).priority = 4 ∧ t.entry 3 = live9)) = true
    ∧ holds (exec (.swEntryQueue 3 swBytes) s) rejected = true
    ∧ holds (exec (.swEntryCancel 3) s) (fun t => decide ((t.entry 3).state = 8 ∧ (t.entry 3).endReason = 2)) = true
    ∧ holds (exec (.swEntryCancel 200) s) rejected = true
    ∧ holds (exec (.swEntryRelease 4) s) (fun t => decide (t.entry 4 = Entry.reset ∧ t.entry 3 = live9)) = true
    ∧ holds (exec (.swEntryRelease 3) s) rejected = true
    ∧ holds (exec (.swTreeWrite 3 64) s) (fun t => decide (t.entry 3 = { live9 with treeNodes := 64 })) = true
    ∧ holds (exec (.swTreeWrite 3 65) s) rejected = true := by decide +kernel

theorem test_services :
    let r := State.reset
    let s := serving chan5 [(3, live9)]
    let late := (serving chan5 [(3, { live9 with flags := 1, firstDl := 5 })]).setReg .SYS_TIME 6
    let busy := stepped [] [] |> fun s => ((s.wr (.SVC_CTL 2) F.SVC_CTL.enable 0).wr (.SVC_STAT 2) F.SVC_STAT.busy 1).wr (.SVC_STAT 2) F.SVC_STAT.admitted 0
    let cost := { Cost.reset with lfs := [3] }
    ((late.entry 3).flag fDeadline = true ∧ 5 < late.sysTime ∧ (busy.prove 2 2 false cost).1 = 0 ∧ (busy.prove 2 2 false Cost.reset).1 = 2
      ∧ r.svcOn 2 = false ∧ r.on (.SVC_STAT 2) F.SVC_STAT.busy = false ∧ s.serve.steps = [] ∧ (stepped [] [step4 [3]]).serve.steps ≠ [])
    ∧ holds (exec (.deadlineExpire 3) late) (fun t => decide ((t.entry 3).misses = 1 ∧ (t.entry 3).missed = true ∧ t.rd (.SVC_MISS 2) F.SVC_MISS.misses = 1)) = true
    ∧ holds (exec (.serviceEnable 2) r) (fun t => decide (t.on (.SVC_STAT 2) F.SVC_STAT.busy = true ∧ t.svcOn 2 = false)) = true
    ∧ holds (exec (.admissionDone 2 cost) busy) (fun t => decide (t.svcOn 2 = true ∧ t.on (.SVC_STAT 2) F.SVC_STAT.admitted = true
        ∧ t.on (.SVC_STAT 2) F.SVC_STAT.busy = false ∧ t.raises = [{ rtEvent 1 with unit := 2 }])) = true
    ∧ holds (exec (.admissionDone 2 Cost.reset) busy) (fun t => decide (t.svcOn 2 = false ∧ t.rd (.SVC_STAT 2) F.SVC_STAT.reason = 2)) = true
    ∧ holds (exec (.svcReadmit 2) s) (fun t => decide (t.on (.SVC_STAT 2) F.SVC_STAT.busy = true ∧ t.svcOn 2 = true)) = true
    ∧ holds (exec (.serviceDisable 2) (stepped [] [step4 [3]])) (fun t => decide (t.svcOn 2 = true ∧ t.serve.disabling = [2])) = true
    ∧ holds (exec (.serviceDisable 2) s) (fun t => decide (t.svcOn 2 = false ∧ (t.entry 3).state = 9 ∧ (t.entry 3).endCause = 4)) = true
    ∧ holds (exec (.svcStop 2) s) (fun t => decide (t.on (.SVC_CTL 2) F.SVC_CTL.stop = true ∧ t.svcOn 2 = true)) = true
    ∧ holds (exec (.budCfgWrite 7 (9 * 2 ^ 32 + 5)) r) (fun t => decide (t.rd (.BUD_CFG 7) F.BUD_CFG.rate = 9 ∧ t.rd (.BUD_STAT 7) F.BUD_STAT.level = 1280)) = true := by
  decide +kernel

theorem test_clocks :
    let s := State.reset
    let p := { s with regions := [(2, { Region.reset with clkPend := some 1000 })] }
    ((p.region 2).clkPend = some 1000 ∧ s.ctl.refFailed = [])
    ∧ holds (exec (.fclkChange 2) p) (fun t => decide (t.rd (.REGION_CLK 2) F.REGION_CLK.fclk_cur = 1000 ∧ (t.region 2).clkPend = none)) = true
    ∧ holds (exec (.regionClkWrite 2 1049) s) (fun t => decide (t.rd (.REGION_CLK 2) F.REGION_CLK.fclk_design = 1025)) = true
    ∧ holds (exec (.regionClkWrite 2 2000) s) (fun t => decide (t.rd (.REGION_CLK 2) F.REGION_CLK.fclk_design = 1600)) = true
    ∧ holds (exec (.regionClkWrite 2 3) s) (fun t => decide (t.rd (.REGION_CLK 2) F.REGION_CLK.fclk_design = 400)) = true
    ∧ holds (exec .refclkFail s) (fun t => decide (t.ctl.refclk = 1 - s.ctl.refclk ∧ t.raises = [⟨2, 0x106, 0xFFFF, 0xFFFF, []⟩])) = true
    ∧ holds (exec .refclkFail { s with ctl := { s.ctl with refFailed := [1 - s.ctl.refclk] } }) (fun t => decide (t.ctl.stopped = true)) = true := by decide +kernel

theorem test_arbiters :
    let s := State.reset
    let a := 2 ^ 16 + 5
    let w : List (Nat × Nat × Nat × Bool) := [(2, 4, 3, true), (2, 6, 1, false)]
    ((s.arb a).pickClass (fun k => (w.filter (fun p => decide (p.1 = k) && decide (0 < p.2.2.1))).any (fun p => p.2.2.2)) = some 2)
    ∧ holds (exec (.populationRefresh a [(2, 4), (2, 4), (2, 6), (1, 4)]) s) (fun t => decide (Tab.getD (t.arb a).pops (2 * 2 ^ 16 + 4) 0 = 2
        ∧ t.rd (.REGION_ARB_POP 5) F.REGION_ARB_POP.pop_bulk = 3 ∧ t.rd (.REGION_ARB_POP 5) F.REGION_ARB_POP.pop_response = 1)) = true
    ∧ holds (exec (.arbiterGrant a w) s) (fun t => decide ((t.arb a).last = some (2, 4) ∧ (t.arb a).since = 16)) = true := by decide +kernel

/-- A source, enabled for LC 2 in the fast class, pending or in service; no core runs LC 2. -/
def evented (n pend serv : Nat) : State :=
  let r := Reg.EV_SRC n
  let s := ((State.reset.wr r F.EV_SRC.enable 1).wr r F.EV_SRC.target 2).wr r F.EV_SRC.cls 1
  ((s.wr r F.EV_SRC.pending pend).wr r F.EV_SRC.in_service serv).wr (.CORE_MAP 2) F.CORE_MAP.valid 0

theorem test_event_raise :
    let s := { evented 5 0 0 with raises := [⟨5, 0x123, 1, 2, [3]⟩] }
    let held := { evented 5 1 0 with raises := [⟨5, 0x123, 1, 2, [3]⟩] }
    let quiet := { State.reset with raises := [⟨0x205, 0, 5, 0xFFFF, []⟩] }
    let x := Src.shared 5
    let due := (evented 5 0 0).wr (.EV_SRC 5) F.EV_SRC.pend_count 1
    (s.raises[0]? = some ⟨5, 0x123, 1, 2, [3]⟩ ∧ s.on .LOUPE_CTL F.LOUPE_CTL.events = false ∧ s.srcPending x = false ∧ s.srcServed x = false
      ∧ s.srcLc x = 2 ∧ writesRecord 5 = true ∧ writesRecord 0x205 = false ∧ due.releaseDue x = true ∧ State.reset.releaseDue x = false)
    ∧ holds (exec (.eventRaise 0) s) (fun t => decide (t.raises = [] ∧ t.srcPending x = true ∧ t.rd (.EV_SRC 5) F.EV_SRC.pend_count = 0
        ∧ t.rd (.EV_RING 2) F.EV_RING.tail = 1
        ∧ t.hub.read 0x210000 32 = [5, 0, 0x23, 1, 0, 0, 0, 0, 0, 0, 0, 0, 0, 0, 0, 0, 1, 0, 2, 0, 3, 0, 0, 0, 0, 0, 0, 0, 0, 0, 0, 0])) = true
    ∧ holds (exec (.eventRaise 0) held) (fun t => decide (t.srcPending x = true ∧ t.rd (.EV_SRC 5) F.EV_SRC.pend_count = 1)) = true
    ∧ holds (exec (.eventRaise 0) quiet) (fun t => decide (t.raises = [] ∧ t.hub = quiet.hub ∧ t.srcPending (.shared 0x205) = true)) = true
    ∧ holds (exec (.coalTimer 5) due) (fun t => decide (t.srcPending x = true ∧ t.rd (.EV_SRC 5) F.EV_SRC.pend_count = 0)) = true
    ∧ holds (exec (.coalTimer 5) State.reset) (fun t => decide (t = State.reset)) = true := by decide +kernel

theorem test_event_claims :
    let s := evented 0xFFF 1 0
    let n := s.wr (.EV_SRC 0xFFF) F.EV_SRC.cls 0
    let v := (s.wr (.EV_MODE 2) F.EV_MODE.vec_fast 1).wr (.EV_MODE 2) F.EV_MODE.vbase 7
    let run := s.wr (.CORE_MAP 2) F.CORE_MAP.valid 1
    let x := Src.shared 0xFFF
    let claimed := fun (t : State) => decide (t.srcPending x = false ∧ t.srcServed x = true ∧ Tab.find? t.ctl.evClaim 0xFFF = some 2
      ∧ t.rd (.EV_STAT 2) F.EV_STAT.claims = 1)
    (s.present 2 true = some x ∧ n.present 2 false = some x ∧ run.on (.CORE_MAP 2) F.CORE_MAP.valid = true
      ∧ run.present 2 true = some x)
    ∧ holds (exec (.interruptDeliver 2 true true) run) (fun t => decide (Tab.find? t.ctl.irq (run.rd (.CORE_MAP 2) F.CORE_MAP.phys * 2 + 1) = some 1
        ∧ t.rd (.EV_STAT 2) F.EV_STAT.wakes = 1)) = true
    ∧ holds (exec (.evClaim 2) n) (fun t => claimed t && decide (t.out = [.read 0xFFF false])) = true
    ∧ holds (exec (.evClaimf 2) s) (fun t => claimed t && decide (t.out = [.read 0xFFF false])) = true
    ∧ holds (exec (.vectorAccept 2 true) v) (fun t => claimed t && decide (t.out = [.vector 2 (0x7000 + 0xFFF0)])) = true := by decide +kernel

theorem test_event_completion :
    let s := evented 5 1 0
    let x := Src.shared 5
    let served := { evented 5 0 1 with ctl := { s.ctl with evClaim := [(5, 2)] } }
    served.srcServed x = true
    ∧ holds (exec (.evComplete 2 5) served) (fun t => decide (t.srcServed x = false ∧ t.srcPending x = false ∧ t.ctl.evClaim = [])) = true
    ∧ holds (exec (.evComplete 3 5) served) (fun t => decide (t = served)) = true
    ∧ holds (exec (.evSrcWrite 5 (7 * 2 ^ 48 + 3 * 2 ^ 40 + 4 * 2 ^ 16 + 2 ^ 11 + 1)) s) (fun t => decide (t.rd (.EV_SRC 5) F.EV_SRC.target = 4
        ∧ t.srcOn x = true ∧ t.srcFast x = true ∧ t.rd (.EV_SRC 5) F.EV_SRC.coal_count = 3
        ∧ t.rd (.EV_SRC 5) F.EV_SRC.coal_time = 7)) = true
    ∧ holds (exec (.evRaiseWrite 0x800) s) (fun t => decide (t.raises = [⟨0x800, 0, 0xFFFF, 0xFFFF, []⟩])) = true
    ∧ holds (exec (.evRaiseWrite 0xFFF) s) (fun t => decide (t.raises = [⟨0xFFF, 0, 0xFFFF, 0xFFFF, []⟩])) = true
    ∧ holds (exec (.evRaiseWrite (2 ^ 63 + 3 * 2 ^ 48 + 31)) s) (fun t => decide (t.raises = [⟨2 ^ 16 + 3 * 64 + 31, 0, 0xFFFF, 0xFFFF, []⟩])) = true
    ∧ holds (exec (.evRaiseWrite 0x7FF) s) (fun t => decide (t = s)) = true := by decide +kernel

/-- Core 2 runs LC 2, core 8 is a MIRROR. -/
def cored : State := (State.reset.wr (.CORE_STAT 2) F.CORE_STAT.state 2).wr (.CORE_STAT 8) F.CORE_STAT.state 3

theorem test_boot_rom :
    let s := { State.reset with power := { State.reset.power with phase := 0 } }
    let x := { HubBoot.reset with core := some 1 }
    let run := { s with boot := { s.boot with a := x } }
    let wait := { s with boot := { s.boot with a := { x with retryAt := some 7 } }, time := 7 }
    let late := { s with time := 2000000000 }
    (s.hubFenced 0 = false ∧ s.bootRec = none ∧ ((List.range 10).map (· + 0 * 10)).find? (fun p => !([0] : List Nat).contains p && decide (s.coreState p = 0)) = some 1
      ∧ late.hubALate = true ∧ run.hubALate = false ∧ s.hub.lost = [] ∧ s.ctl.evClaim = [] ∧ (∀ c < 16, s.rd (.CORE_MAP c) F.CORE_MAP.phys < 20))
    ∧ holds (exec (.bootRomStart 0 [0]) s) (fun t => decide ((t.hubBoot 0).core = some 1 ∧ t.coreState 1 = 1 ∧ t.rd .FW_STAT F.FW_STAT.rom_err = 1)) = true
    ∧ holds (exec (.bootSourceRound 0 []) run) (fun t => decide ((t.hubBoot 0).image = none ∧ (t.hubBoot 0).retryAt = some 1000000000
        ∧ t.rd .FW_STAT F.FW_STAT.rom_err = 1)) = true
    ∧ holds (exec (.bootRetryTimer 0) wait) (fun t => decide ((t.hubBoot 0).retryAt = none)) = true
    ∧ holds (exec .spiPinTakeover late) (fun t => decide (t.boot.spiHub = 1)) = true
    ∧ holds (exec .hubBBootTimeout late) (fun t => decide (t.boot.b.own = true)) = true
    ∧ holds (exec .hubBBootTimeout run) (fun t => decide (t = run)) = true := by decide +kernel

theorem test_cores :
    let s := cored
    let h := 2 ^ 63 + 8 * 2 ^ 16 + 2
    let mine := { s.wr (.EV_SRC 5) F.EV_SRC.in_service 1 with ctl := { s.ctl with evClaim := [(5, 2)] } }
    let hand := fun (v : Nat) (s : State) (e : Nat) => holds (exec (.coreHandover v) s) (fun t => decide (t.rd .CORE_HANDOVER F.CORE_HANDOVER.err = e ∧ t.boot = s.boot))
    (s.coreState 8 = 3 ∧ s.coreState 9 = 0 ∧ s.rd (.CORE_MAP 2) F.CORE_MAP.phys = 2 ∧ s.on (.CORE_MAP 2) F.CORE_MAP.valid = true ∧ s.coreState 2 = 2
      ∧ s.coreState 3 = 0 ∧ s.on .CORE_HANDOVER F.CORE_HANDOVER.busy = false ∧ s.on .FW_UPDATE F.FW_UPDATE.busy = false)
    ∧ holds (exec (.coreStart 0xC) s) (fun t => decide (t.boot.started = true ∧ t.coreState 3 = 2 ∧ t.coreState 2 = 2)) = true
    ∧ hand h (s.wr .CORE_HANDOVER F.CORE_HANDOVER.busy 1) 2 = true
    ∧ hand (2 ^ 63 + 20 * 2 ^ 16 + 2) s 1 = true
    ∧ hand (2 ^ 63 + 9 * 2 ^ 16 + 2) s 1 = true
    ∧ holds (exec (.coreHandover h) mine) (fun t => decide (t.rd (.CORE_MAP 2) F.CORE_MAP.phys = 8 ∧ t.coreState 8 = 2 ∧ t.coreState 2 = 0
        ∧ t.rd (.CORE_STAT 8) F.CORE_STAT.lc = 2 ∧ t.rd (.CORE_STAT 2) F.CORE_STAT.lc = 0x1F ∧ t.srcPending (.shared 5) = true
        ∧ t.raises = [⟨2 ^ 16 + 2 * 64 + 33, 0, 0xFFFF, 0xFFFF, []⟩, ⟨0xD, 0x107, 0xFFFF, 0xFFFF, []⟩])) = true
    ∧ holds (exec (.coreEccError 2 true) s) (fun t => decide (t.raises = [⟨2 ^ 16 + 2 * 64 + 32, 0, 0xFFFF, 0xFFFF, []⟩])) = true
    ∧ holds (exec (.coreEccError 2 false) s) (fun t => decide (t.coreState 2 = 5 ∧ t.faults.active.contains (unitDesc 8 2 0 0) = true)) = true := by decide +kernel

theorem test_firmware_update :
    let s := State.reset
    let u := { cored with boot := { cored.boot with update := some [] } }
    ((∀ p < 20, s.coreState p ≠ 3) ∧ Tab.getD u.boot.coreSlot 2 0 = u.boot.slot)
    ∧ holds (exec (.fwUpdate (2 ^ 63)) s) (fun t => decide (t.rd .FW_UPDATE F.FW_UPDATE.err = 5 ∧ t.raises = [⟨0xE, 0x10B, 0xFFFF, 0xFFFF, []⟩])) = true
    ∧ holds (exec .fwUpdateStandby u) (fun t => decide (t.boot.update = none ∧ t.coreState 8 = 4 ∧ t.coreState 2 = 2
        ∧ t.raises = [⟨0xE, 0x109, 0xFFFF, 0xFFFF, []⟩])) = true := by decide +kernel

/-- The first 24 bytes of an image, and 8172 zeros. -/
def imgHead : List Byte := [0x49, 0x57, 0x46, 0x5A, 1, 0, 0, 0, 7, 0, 0, 0, 0, 0, 0, 0, 4, 0, 0, 0, 0, 0, 0, 0]
def imgPad : List Byte := List.replicate 8172 0

/-- An image of 4 bytes of code, whose key and signature are zeros: the shortest that passes R434's checks of its form. -/
def img0 : List Byte := imgHead ++ imgPad

theorem test_image_fields : field img0 0 4 = 0x5A465749 ∧ field img0 4 2 = 1 ∧ field img0 8 4 = 7 ∧ field img0 12 2 = 0 ∧ imgBody img0 = 4 ∧ field img0 20 4 = 0 := by
  decide +kernel

theorem test_image_whole : imgWhole img0 = true := by
  have h : imgBody img0 = 4 := test_image_fields.2.2.2.2.1
  have l : img0.length = 8196 := by rw [img0, List.length_append, imgPad, List.length_replicate]; rfl
  simp [imgWhole, h, l]

/-- The image passes every check where its signature does: whether it does is a constant of Config without a value (log entry 6). -/
theorem test_image_passes (h : Config.dsaVerify ((img0.drop 64).take 2592) (imgDigest img0) ((img0.drop 2656).take 4627) = true) :
    imageErr img0 [sha3_512 ((img0.drop 64).take 2592)] 0 = 0 := by
  have f := test_image_fields
  have z : ∀ i n, 24 ≤ i → ((img0.drop i).take n).all (fun x => decide (x = 0)) = true := by
    intro i n hi
    rw [List.all_eq_true]
    intro x hx
    have hx := List.mem_of_mem_take hx
    obtain ⟨k, rfl⟩ : ∃ k, i = 24 + k := ⟨i - 24, by omega⟩
    have e : img0.drop (24 + k) = imgPad.drop k := by
      rw [img0, ← List.drop_drop, List.drop_left' (by rfl)]
    rw [e] at hx
    rw [List.eq_of_mem_replicate (List.mem_of_mem_drop hx)]
    rfl
  have z1 : ((img0.drop 6).take 2).all (fun x => decide (x = 0)) = true := by decide +kernel
  have z2 : ((img0.drop 14).take 2).all (fun x => decide (x = 0)) = true := by decide +kernel
  simp only [imageErr, f.1, f.2.1, f.2.2.2.1, f.2.2.2.2.1, f.2.2.2.2.2, z1, z2, z 24 40 (by omega), z 7283 909 (by omega), h]
  simp

/-- The boot record that trusts the image's key. -/
def rec0 : BootRec := ⟨[0], 0, none, [sha3_512 ((img0.drop 64).take 2592)], 0⟩
def vaulted (s : State) : State :=
  { s with vault := { s.vault with recs := [(vBoot * 4, ⟨1, true, .boot rec0⟩), (vBoot * 4 + 1, ⟨1, true, .boot rec0⟩)] } }

/-- Hub A waits for a source that answers `img0`, or has it and has not jumped. -/
def booting (img : Option (List Byte)) : State :=
  { vaulted State.reset with boot := { State.reset.boot with a := { HubBoot.reset with core := some 1, image := img } } }

theorem test_source_accepted (h : Config.dsaVerify ((img0.drop 64).take 2592) (imgDigest img0) ((img0.drop 2656).take 4627) = true) :
    let s := booting none
    s.bootRec = some rec0 ∧ (s.hubBoot 0).core = some 1 ∧ (s.hubBoot 0).image = none ∧ (s.hubBoot 0).retryAt = none
    ∧ (((s.attempts 0).filterMap (fun k => ([(0, img0)].find? (fun q => decide (q.1 = k) && imgWhole q.2)).map (fun q => (k, q.2)))).find?
        (fun q => decide (imageErr q.2 rec0.keys rec0.svn = 0))) = some (0, img0) := by
  have b : (booting none).bootRec = some rec0 := by rfl
  have a : (booting none).attempts 0 = [0, 1] := by rfl
  refine ⟨b, rfl, rfl, rfl, ?_⟩
  rw [a]
  have p : imageErr img0 rec0.keys rec0.svn = 0 := test_image_passes h
  simp [test_image_whole, p]

theorem test_jump_premises : let s := booting (some img0)
    s.boot.a.core = some 1 ∧ s.boot.a.jumped = false ∧ s.boot.a.image = some img0 ∧ imgWhole img0 = true := ⟨rfl, rfl, rfl, test_image_whole⟩

/-- `img0` in HBM from address 0: zeros are not listed. -/
def updating : State := { vaulted cored with hbm := ⟨[(0, 0x49), (1, 0x57), (2, 0x46), (3, 0x5A), (4, 1), (8, 7), (16, 4)], [], []⟩ }

theorem test_read_split (m : Mem) (k n : Nat) : ∀ a, m.read a (k + n) = m.read a k ++ m.read (a + k) n := by
  induction k with
  | zero => intro a; simp [Mem.read]
  | succ k ih => intro a; rw [Nat.succ_add, Mem.read, ih, Mem.read, List.cons_append, Nat.add_assoc, Nat.add_comm 1 k]

theorem test_read_zeros (m : Mem) (n : Nat) : ∀ a, (∀ i, a ≤ i → m.byte i = 0) → m.read a n = List.replicate n 0 := by
  induction n with
  | zero => intro a _; rfl
  | succ n ih => intro a h; rw [Mem.read, List.replicate_succ, h a (Nat.le_refl a), ih (a + 1) (fun i hi => h i (by omega))]

theorem test_update_image : updating.hbm.read 0 8196 = img0 := by
  rw [show 8196 = 24 + 8172 from rfl, test_read_split, test_read_zeros _ 8172 (0 + 24), img0, imgPad]
  · congr 1
  · intro i hi
    have e : ∀ k, k < 24 → k ≠ i := fun k hk => by omega
    simp [updating, Mem.byte, Tab.getD, Tab.find?, e 0, e 1, e 2, e 3, e 4, e 8, e 16]

theorem test_update_premises (h : Config.dsaVerify ((img0.drop 64).take 2592) (imgDigest img0) ((img0.drop 2656).take 4627) = true) :
    let s := updating
    s.bootRec = some rec0 ∧ s.coreState 8 = 3 ∧ s.hubFenced (hubOfCore 8) = false ∧ min 4194304 (8192 + s.hbm.readNat (0 + 16) 4) = 8196
    ∧ s.hbm.rangePoison 64 0 8196 = false ∧ imageErr (s.hbm.read 0 8196) rec0.keys rec0.svn = 0 := by
  refine ⟨rfl, by decide +kernel, by decide +kernel, by decide +kernel, by decide +kernel, ?_⟩
  rw [test_update_image]
  exact test_image_passes h

theorem test_fences :
    let s := State.reset.wr (.FAC_STAT 16) F.FAC_STAT.state 0
    let pf3 := unitDesc 3 3 0 0
    let chan := unitDesc 0x0B 2 5 0
    (s.names 0 = false ∧ s.names pf3 = true ∧ s.isFenced pf3 = false ∧ (s.facet 3).fenced = false ∧ s.lfOf 3 < 768 ∧ s.mirrorFree 0 = true
      ∧ { s with faults := { s.faults with active := [pf3] } }.isFenced pf3 = true ∧ s.isFenced chan = false)
    ∧ holds (exec (.fltFenceWrite 0) s) (fun t => decide (t.on .FLT_STAT F.FLT_STAT.fence_err = true ∧ t.faults = s.faults)) = true
    ∧ holds (exec (.fltFenceWrite pf3) { s with faults := { s.faults with active := [pf3] } }) (fun t => decide (t.faults.active = [pf3] ∧ t.lfOf 3 = 3)) = true
    ∧ holds (exec (.fltFenceWrite pf3) s) (fun t => decide ((t.facet 3).fenced = true ∧ t.lfOf 3 = 0x3FF ∧ t.lfOf 16 = s.lfOf 3
        ∧ t.faults.active = [pf3] ∧ t.faults.late = [(pf3, 1000000000)] ∧ t.raises.contains ⟨6, 0x1C0, 0xFFFF, 0xFFFF, [pf3, clsUnit, 0]⟩ = true)) = true
    ∧ holds (exec (.fltFenceWrite chan) s) (fun t => decide (t.hbmLost (2 * 2 ^ 37 + 5 * 2 ^ 33) = true ∧ t.hbmLost (2 * 2 ^ 37 + 6 * 2 ^ 33 - 1) = true
        ∧ t.hbmLost (2 * 2 ^ 37 + 6 * 2 ^ 33) = false ∧ t.hbmLost (2 * 2 ^ 37 + 5 * 2 ^ 33 - 1) = false)) = true := by decide +kernel

theorem test_fault_records :
    let s := { State.reset with faults := { State.reset.faults with late := [(7, 3), (8, 9)], toSend := [1, 2] }, time := 5 }
    let up := (s.wr .MGMT_STAT F.MGMT_STAT.state 2).wr .FLT_EXPORT F.FLT_EXPORT.enable 1
    ((s.faults.late.filter (fun e => decide (e.2 ≤ s.time))) = [(7, 3)] ∧ up.mgmtUp = true ∧ s.mgmtUp = false)
    ∧ holds (exec .mapAppendTimeout s) (fun t => decide (t.faults.map = [7] ∧ t.faults.late = [(8, 9)])) = true
    ∧ holds (exec .cperExport up) (fun t => decide (t.faults.toSend = [2] ∧ t.out.length = 1)) = true
    ∧ holds (exec (.cperResend (2 ^ 63 + 9 * 2 ^ 32 + 4 * 256 + 1)) s) (fun t => decide (t.faults.toSend = [1, 2, 4] ∧ t.rd .FLT_EXPORT F.FLT_EXPORT.port = 9
        ∧ t.on .FLT_EXPORT F.FLT_EXPORT.enable = true)) = true
    ∧ holds (exec (.cperResend 1) up) (fun t => decide (t.faults.toSend = [1, 2] ∧ t.out.length = 1)) = true := by decide +kernel

/-- Dies 0 and 3 inside the write window, or die 0 outside it. -/
def vaultState (w : List VWrite) (temp : Nat) : State :=
  let s := (List.range 12).foldl (fun s r => (s.wr (.CAL_REGION_STAT r) F.CAL_REGION_STAT.t_now temp).wr (.CAL_REGION_STAT (36 + r)) F.CAL_REGION_STAT.t_now temp) State.reset
  { s with vault := { s.vault with writes := w } }

theorem test_vault_writes :
    let w : VWrite := ⟨9, .count 4, 2, 0⟩
    let s := vaultState [w] 800
    let r := fun t => let s := vaultState [] t; { s with vault := { s.vault with rebuild := some (0, 3) } }
    (s.dieWindow 0 = true ∧ s.dieFenced 0 = false ∧ (vaultState [w] 239).dieWindow 0 = false ∧ (r 800).dieWindow 3 = true ∧ (r 1281).dieWindow 3 = false)
    ∧ holds (exec .vaultWrite s) (fun t => decide (Tab.find? t.vault.recs 36 = some ⟨2, true, .count 4⟩ ∧ t.vault.writes = [{ w with done := 1 }]
        ∧ t.on .VAULT_STAT F.VAULT_STAT.busy = true)) = true
    ∧ holds (exec .vaultWrite (vaultState [w] 239)) (fun t => decide (t.vault.recs = [] ∧ t.on .VAULT_STAT F.VAULT_STAT.waiting = true)) = true
    ∧ holds (exec .vaultRebuild (r 800)) (fun t => decide (t.vault.dies = [3, 1, 2] ∧ t.vault.rebuild = none)) = true
    ∧ holds (exec .vaultRebuild (r 1281)) (fun t => decide (t.vault.dies = [0, 1, 2] ∧ t.on .VAULT_STAT F.VAULT_STAT.waiting = true)) = true := by decide +kernel

def mirrored (m : Option MRun) : State :=
  let s := (State.reset.wr (.MR_CTL 0) F.MR_CTL.enable 1).wr (.MR_BUF 0) F.MR_BUF.valid 1
  { (s.wr (.FAC_STAT 3) F.FAC_STAT.state 4).wr (.FAC_BIND 3) F.FAC_BIND.bound 1 with regions := [(0, { Region.reset with mr := m, mrNext := 3 })] }

theorem test_mirror_runs :
    let o : MOut := ⟨1, 2, 3, [4], [5]⟩
    let run := fun p => mirrored (some ⟨3, p, 0, [], none⟩)
    let d : MDiff := ⟨1, 2, 3, [4], [5], none⟩
    let rep := mirrored (some ⟨3, 3, 0, [], some d⟩)
    let stat := Reg.MR_STAT 0
    let conf := fun n => rep.wr (.MR_CONF 0) F.MR_CONF.conf n
    ((mirrored none).mirrorsOn 0 = true ∧ (mirrored none).nextSlot 0 = some 3 ∧ (mirrored none).facState 3 = 4
      ∧ (mirrored none).on .FLT_INJ_CTL F.FLT_INJ_CTL.arm = false ∧ (mirrored none).staged = [])
    ∧ holds (exec (.mrRunStart 0) (mirrored none)) (fun t => decide ((t.region 0).mr = some ⟨3, 0, 0, [], none⟩)) = true
    ∧ holds (exec (.mrSnapshotDone 0) (run 0)) (fun t => decide ((t.region 0).mr = some ⟨3, 1, 0, [], none⟩)) = true
    ∧ holds (exec (.mrMirrorStepEnd 0 true none (some o)) (run 2)) (fun t => decide ((t.region 0).mr = none ∧ t.rd stat F.MR_STAT.void = 1)) = true
    ∧ holds (exec (.mrMirrorStepEnd 0 false none none) (run 2)) (fun t => decide ((t.region 0).mr = none ∧ t.rd stat F.MR_STAT.runs = 1)) = true
    ∧ holds (exec (.mrMirrorStepEnd 0 false none (some o)) (run 2)) (fun t => decide ((t.region 0).mr = some ⟨3, 3, 0, [], some d⟩)) = true
    ∧ holds (exec (.mrReplayDone 0 true [5]) rep) (fun t => decide (t.rd stat F.MR_STAT.confirmations = 1 ∧ t.confOf 0 3 = 1 ∧ (t.facet 3).fenced = false)) = true
    ∧ holds (exec (.mrReplayDone 0 true [5]) (conf (2 ^ 6))) (fun t => decide (t.confOf 0 3 = 2 ∧ (t.facet 3).fenced = true)) = true
    ∧ holds (exec (.mrReplayDone 0 true [4]) (conf (2 ^ 32))) (fun t => decide (t.rd stat F.MR_STAT.mirror_faults = 1 ∧ t.confOf 0 16 = 2
        ∧ (t.facet 16).fenced = true)) = true
    ∧ holds (exec (.mrReplayDone 0 false [5]) rep) (fun t => decide ((t.region 0).mr = none ∧ t.rd stat F.MR_STAT.unresolved = 1
        ∧ (t.region 0).focus.map Prod.fst = [3])) = true := by decide +kernel

theorem test_injection :
    let s := State.reset.wr .FLT_INJ_CTL F.FLT_INJ_CTL.allowed 1
    let inj := Reg.FLT_INJ_CTL
    let arm := fun k arg => arg * 2 ^ 24 + k * 2 ^ 16 + 1
    (knownKind 0 = false ∧ State.reset.on inj F.FLT_INJ_CTL.allowed = false)
    ∧ holds (exec (.fltInjArm (arm 1 7)) State.reset) (fun t => decide (t.on inj F.FLT_INJ_CTL.refused = true ∧ t.on inj F.FLT_INJ_CTL.arm = false)) = true
    ∧ holds (exec (.fltInjArm (arm 0 7)) s) (fun t => decide (t.on inj F.FLT_INJ_CTL.refused = true)) = true
    ∧ holds (exec (.fltInjArm (arm 9 7)) s) (fun t => decide (t.on inj F.FLT_INJ_CTL.arm = true ∧ t.rd inj F.FLT_INJ_CTL.kind = 9 ∧ t.rd inj F.FLT_INJ_CTL.arg = 7)) = true
    ∧ holds (exec (.fltInjArm (arm 0x0E 130)) s) (fun t => decide (t.faults.hbmCe = [2] ∧ t.on inj F.FLT_INJ_CTL.arm = false ∧ t.on inj F.FLT_INJ_CTL.done = true
        ∧ t.raises = [⟨6, 0x1C9, 0xFFFF, 0xFFFF, [0x0E, 0, 0]⟩])) = true := by decide +kernel

theorem test_mirror_lfs : ∀ n < 816, (mirrored none).lfOf n < 768 ∨ (mirrored none).lfOf n = 0x3FF := by decide +kernel

/-- Port 2 in a state, with lanes. -/
def ported (st lanes : Nat) (x : LPort) : State :=
  ((State.reset.wr (.LINK_PORT_STAT 2) F.LINK_PORT_STAT.state st).wr (.LINK_PORT_STAT 2) F.LINK_PORT_STAT.lanes lanes).setLport 2 x

theorem test_link_training :
    let s := ported 1 0 LPort.reset
    let on := (ported 2 0xFF { LPort.reset with txNext := 3 }).wr (.LINK_PORT_CTL 2) F.LINK_PORT_CTL.enable 1
    (s.conflict 2 1 77 = false ∧ s.conflict 2 s.pkg 77 = true ∧ State.reset.on (.LINK_PORT_CTL 2) F.LINK_PORT_CTL.enable = false)
    ∧ holds (exec (.linkPortEnable 2 1) State.reset) (fun t => decide (t.portState 2 = 1 ∧ t.lanes 2 = [])) = true
    ∧ holds (exec (.linkPortEnable 2 0) on) (fun t => decide (t.portState 2 = 0 ∧ (t.lport 2).sent = [])) = true
    ∧ holds (exec (.linkTrainDone 2 (List.range 9) 1 5 77) s) (fun t => decide (t.portState 2 = 2 ∧ t.lanes 2 = List.range 8
        ∧ t.raises = [⟨7, 0x190, 0xFFFF, 0xFFFF, [2, 1, 5, 8]⟩])) = true
    ∧ holds (exec (.linkTrainDone 2 [1, 3, 5, 8] 1 5 77) s) (fun t => decide (t.portState 2 = 3 ∧ t.lanes 2 = [1, 3, 5, 8])) = true
    ∧ holds (exec (.linkTrainDone 2 (List.range 9) s.pkg 5 77) s) (fun t => decide (t.portState 2 = 5 ∧ t.raises = [⟨7, 0x194, 0xFFFF, 0xFFFF, [2, 0]⟩])) = true
    ∧ holds (exec (.linkTrainDone 2 [0, 1, 2] 1 5 77) s) (fun t => decide (t.portState 2 = 4)) = true := by decide +kernel

theorem test_link_lanes_and_time :
    let up := ported 2 0x1F LPort.reset
    let f : Flit := ⟨0, 0, false, 0, 0, [], 0, (0, 0, 0)⟩
    let due := fun n => ported 2 0xFF { LPort.reset with sent := [(0, f)], timer := some 0, replays := n }
    let tx := up.wr (.LINK_PORT_CTL 2) F.LINK_PORT_CTL.time_tx 1
    let late := { ported 2 0xFF { LPort.reset with part := [(1, ⟨[], [], 0, false, 0, 0⟩)] } with time := 1000000 }
    (up.portUp 2 = true ∧ (up.lport 2).spare ≠ some 4 ∧ (up.lanes 2).contains 4 = true ∧ ((up.lanes 2).filter (fun i => decide (i ≠ 4))).length = 4
      ∧ max 1 ((due 0).rd (.LINK_PORT_CTL 2) F.LINK_PORT_CTL.replay_max) ≤ 9 ∧ 0 < max 1 ((due 0).rd (.LINK_PORT_CTL 2) F.LINK_PORT_CTL.replay_max)
      ∧ (tx.lport 2).sent.length < 512 ∧ 0 < (tx.lport 2).credits.getD 3 0)
    ∧ holds (exec (.laneReplace 2 4) up) (fun t => decide (t.portState 2 = 3 ∧ t.lanes 2 = [0, 1, 2, 3] ∧ t.raises = [⟨7, 0x193, 0xFFFF, 0xFFFF, [2, 4]⟩])) = true
    ∧ holds (exec (.laneReplace 2 1) (ported 3 0xF LPort.reset)) (fun t => decide (t.portState 2 = 4)) = true
    ∧ holds (exec (.linkReplayTimer 2) (due 0)) (fun t => decide ((t.lport 2).replays = 1 ∧ t.out.length = 1 ∧ t.portState 2 = 2)) = true
    ∧ holds (exec (.linkReplayTimer 2) (due 9)) (fun t => decide (t.portState 2 = 4 ∧ (t.lport 2).sent = [])) = true
    ∧ holds (exec (.delayMeasure 2 1000) up) (fun t => decide (t.rd (.LINK_PORT_DELAY 2) F.LINK_PORT_DELAY.delay = 500)) = true
    ∧ holds (exec (.timeSendTick 2) tx) (fun t => decide (t.out.length = 1 ∧ (t.lport 2).sent.length = 1)) = true
    ∧ holds (exec (.msgIncompleteTimeout 2 1) late) (fun t => decide ((t.lport 2).part = [])) = true := by decide +kernel

/-- A flit of kind 4 (a single-flit message), 8 bytes of data from package 1 to this one. -/
def flitBody : List Byte := [4, 3, 0, 0, 0, 1, 8, 0, 0, 0, 0, 0, 0, 0, 0, 0] ++ List.replicate 236 0
def flit4 : List Byte := flitBody ++ toBytes 4 (crc32c flitBody)

theorem test_flits :
    let s := ported 2 0xFF LPort.reset
    (flit4.length = 256 ∧ crc32c (flit4.take 252) = field flit4 252 4 ∧ field flit4 0 1 = 4 ∧ field flit4 4 1 = s.pkg ∧ bitAt (field flit4 1 1) 2 = false
      ∧ crc32c (([1] : List Byte).take 252) ≠ field [1] 252 4)
    ∧ holds (exec (.flitReceive 2 flit4 0) s) (fun t => decide ((t.lport 2).rxNext = 1 ∧ t.link.inbox.map (fun e => (e.1, e.2.src)) = [(2, 1)])) = true
    ∧ holds (exec (.flitReceive 2 [1] 0) s) (fun t => decide ((t.lport 2).nak = true ∧ t.link.inbox = [] ∧ t.rd (.LINK_PORT_ERR 2) F.LINK_PORT_ERR.crc = 1)) = true := by
  decide +kernel

def msg (kind addr : Nat) (data : List Byte) : LMsg := ⟨kind, 0, 1, 0, [], false, addr, 2, 5, data, []⟩
def inboxed (m : LMsg) : State := { State.reset with link := { Link.reset with inbox := [(3, m)] } }

theorem test_messages :
    let w := inboxed (msg 1 0x1000 [7, 8])
    let snd := inboxed (msg 2 (9 * 2 ^ 32 + 3) [6])
    let job : LdJob := { jobOf 0 (copyDesc 2 64) with slot := 5, pkgs := [1, 4] }
    let resp := { inboxed (msg 3 0 []) with loader := ⟨[job], [], []⟩ }
    let time := ((inboxed (msg 4 0 ([0, 0, 0, 0, 0, 0, 0, 0, 100, 0, 0, 0, 0, 0, 0, 0, 2]))).wr .LINK_CFG F.LINK_CFG.root 8).wr .LINK_CFG F.LINK_CFG.parent 3
    ((w.takeMsg 1).map Prod.snd = some (3, msg 1 0x1000 [7, 8]) ∧ w.hbmLost 0x1000 = false ∧ w.pageOf 0x1000 = none ∧ snd.pfOf 3 = some 3
      ∧ (snd.facet 3).core.recvs = [] ∧ (snd.facet 3).core.dropsMsg (some 9) = false ∧ job.kind = 2 ∧ time.pkg ≠ time.rd .LINK_CFG F.LINK_CFG.root)
    ∧ holds (exec .msgWrite w) (fun t => decide (t.hbm.bytes = [(0x1000, 7), (0x1001, 8)])) = true
    ∧ holds (exec .msgSend snd) (fun t => decide ((t.facet 3).core.rxq = [⟨2 ^ 24 + 2 ^ 16 + 5, 3, 2, some 9, [6], []⟩])) = true
    ∧ holds (exec .msgResp resp) (fun t => decide (t.loader.jobs.map (fun j => j.pkgs) = [[4]])) = true
    ∧ holds (exec .msgTime time) (fun t => decide (t.rd .TIME_STAT F.TIME_STAT.hops = 3 ∧ t.rd .TIME_STAT F.TIME_STAT.ofs = 100)) = true := by decide +kernel

/-- A barrier armed, this package its root or not. -/
def barred (root : Nat) (l : Link) : State :=
  { ((State.reset.wr .LINK_CFG F.LINK_CFG.root root).wr .BAR_STAT F.BAR_STAT.state 1).wr .BAR_CTL F.BAR_CTL.count 3 with link := l }

theorem test_barrier :
    let q := fun (k : Nat) (d : List Byte) => { Link.reset with inbox := [(3, msg k 0 d)] }
    let bar := fun (t : State) => t.rd .BAR_STAT F.BAR_STAT.state
    let idle := State.reset.wr .LINK_CFG F.LINK_CFG.root 8
    let at7 := (barred 8 { Link.reset with barAt := some 7 }).setReg .SYS_TIME 7
    let align := (at7.wr .BAR_CTL F.BAR_CTL.align 1).wr .BAR_T F.BAR_T.t 50
    (bar idle = 0 ∧ idle.isRoot = false ∧ (barred 0 (q 5 [])).isRoot = true ∧ (barred 0 (q 5 [])).takeMsg 5 ≠ none ∧ bar (barred 8 (q 6 [])) = 1
      ∧ align.anyLive = false ∧ ({ align with serve := { align.serve with entries := [(3, live9)] } }).anyLive = true)
    ∧ holds (exec (.barArm (2 * 2 ^ 16 + 3 * 2 ^ 7 + 1)) idle) (fun t => decide (bar t = 1 ∧ t.link.barTimer = some 2000 ∧ t.rd .BAR_CTL F.BAR_CTL.count = 3)) = true
    ∧ holds (exec .msgBarArrive (barred 0 (q 5 []))) (fun t => decide (t.link.barFrom = [1] ∧ t.rd .BAR_STAT F.BAR_STAT.arrivals = 1 ∧ bar t = 1)) = true
    ∧ holds (exec .msgBarRelease (barred 8 (q 6 [9, 0, 0, 0, 0, 0, 0, 0]))) (fun t => decide (t.link.barAt = some 9 ∧ bar t = 1)) = true
    ∧ holds (exec .msgBarRelease ((barred 8 (q 6 [9, 0, 0, 0, 0, 0, 0, 0])).setReg .SYS_TIME 10)) (fun t => decide (bar t = 2 ∧ t.on .BAR_STAT F.BAR_STAT.late = true)) = true
    ∧ holds (exec .msgBarFail (barred 8 (q 7 []))) (fun t => decide (bar t = 3 ∧ t.raises = [⟨7, 0x196, 0xFFFF, 0xFFFF, [0, 1]⟩])) = true
    ∧ holds (exec .barLocalRelease at7) (fun t => decide (bar t = 2 ∧ t.sysClock = 7)) = true
    ∧ holds (exec .barLocalRelease align) (fun t => decide (bar t = 2 ∧ t.sysClock = 50)) = true
    ∧ holds (exec .barLocalRelease { align with serve := { align.serve with entries := [(3, live9)] } }) (fun t => decide (bar t = 2 ∧ t.sysClock = 7
        ∧ t.on .BAR_STAT F.BAR_STAT.align_refused = true)) = true
    ∧ holds (exec .barTimer (barred 8 { Link.reset with barTimer := some 0 })) (fun t => decide (bar t = 3 ∧ t.link.barTimer = none)) = true
    ∧ holds (exec (.linkCfgWrite (4 * 2 ^ 24 + 6 * 2 ^ 16 + 9)) State.reset) (fun t => decide (t.pkg = 9 ∧ t.rd .LINK_CFG F.LINK_CFG.root = 6
        ∧ t.rd .LINK_CFG F.LINK_CFG.parent = 4)) = true
    ∧ holds (exec (.linkCfgWrite 9) (State.reset.wr (.LINK_PORT_CTL 2) F.LINK_PORT_CTL.enable 1)) (fun t => decide (t.pkg = 0)) = true := by decide +kernel

/-- Unlocked, an identity held, or a record held twice. -/
def secured (x : Sec) : State := { (State.reset.wr .SEC_STAT F.SEC_STAT.locked 0).wr .SEC_STAT F.SEC_STAT.id_state 1 with sec := x }
def heldTwice (s : State) (r : Nat) (d : VData) : State := { s with vault := { s.vault with recs := [(r * 4, ⟨3, true, d⟩), (r * 4 + 1, ⟨3, true, d⟩)] } }

theorem test_security_commands :
    let s := secured Sec.reset
    let busy := s.wr .SEC_CMD F.SEC_CMD.busy 1
    let lock := s.wr .SEC_STAT F.SEC_STAT.locked 1
    let run := fun c => (secured { Sec.reset with cmd := some c }).wr .SEC_CMD F.SEC_CMD.busy 1
    let c4 : SecCmd := ⟨4, [(vOwner, 3)], none, []⟩
    let four := (heldTwice (run c4) vOwner (.bytes [1])).wr .SEC_STAT F.SEC_STAT.locked 1
    let cmd := fun (t : State) => t.rd .SEC_CMD F.SEC_CMD.status
    (s.stateErr 1 = 0 ∧ s.stateErr 3 = 0 ∧ (s.secInput 64).2 = false ∧ lock.stateErr 1 = 8 ∧ four.vheld vOwner 3 = true ∧ four.locked = true)
    ∧ holds (exec .attest busy) (fun t => decide (cmd t = 2 ∧ t.sec = busy.sec)) = true
    ∧ holds (exec .owner lock) (fun t => decide (t.sec.cmd = some ⟨5, [], some 8, []⟩ ∧ t.vault = lock.vault)) = true
    ∧ holds (exec .attest s) (fun t => decide (t.on .SEC_CMD F.SEC_CMD.busy = true ∧ t.sec.cmd.map (fun c => (c.op, c.status)) = some (1, none))) = true
    ∧ holds (exec .svnCommit s) (fun t => decide (t.sec.cmd.map (fun c => (c.op, c.status)) = some (3, none))) = true
    ∧ holds (exec .secCmdComplete (run ⟨3, [], some 7, []⟩)) (fun t => decide (t.sec.cmd = none ∧ t.on .SEC_CMD F.SEC_CMD.busy = false ∧ cmd t = 7
        ∧ t.raises = [⟨5, 0x1A5, 0xFFFF, 0xFFFF, [3, 7]⟩])) = true
    ∧ holds (exec .secCmdComplete four) (fun t => decide (t.locked = false ∧ cmd t = 1 ∧ t.raises = [⟨5, 0x1A5, 0xFFFF, 0xFFFF, [4, 1]⟩])) = true := by decide +kernel

/-- The security version rises where the running image's is above the record's. -/
theorem test_svn_commit :
    let r : BootRec := ⟨[0], 0, none, [], 2⟩
    let s := (heldTwice (secured Sec.reset) vBoot (.boot r)).wr .FW_STAT F.FW_STAT.svn 5
    s.bootRec = some r ∧ holds (exec .svnCommit s) (fun t => decide (t.vault.writes.map (fun w => (w.rec_, w.data)) = [(vBoot, .boot { r with svn := 5 })])) = true := by
  decide +kernel

theorem test_identity_at_power_up :
    let s := { State.reset with power := { State.reset.power with phase := 0 } }
    let e := s.wr .SEC_STAT F.SEC_STAT.erase_pending 1
    (e.erasing = true ∧ s.erasing = false ∧ s.sec.seed = none ∧ s.unwrap 0 = none ∧ s.unwrap 1 = none ∧ s.owned = false ∧ s.vbytes vKey = none)
    ∧ holds (exec (.pufUnwrap []) e) (fun t => decide (t.idState = 2 ∧ t.sec = s.sec)) = true
    ∧ holds (exec (.pufUnwrap []) s) (fun t => decide (t.idState = 0 ∧ t.sec.seed = none)) = true := by decide +kernel

/-- A blob that hub A's key opens, whatever the PUF answers: the seed is found. -/
theorem test_seed_found (blob help x : List Byte) (h : gcmOpen (wrapKey 0 help 0) (blobNonce 0) [] blob = some x) :
    let s := { State.reset with power := { State.reset.power with phase := 0 }, vault := { State.reset.vault with recs :=
      [(vBlob 0 * 4, ⟨1, true, .bytes blob⟩), (vBlob 0 * 4 + 1, ⟨1, true, .bytes blob⟩), (vHelp 0 * 4, ⟨1, true, .bytes help⟩), (vHelp 0 * 4 + 1, ⟨1, true, .bytes help⟩)] } }
    s.unwrap 0 = some x ∧ s.erasing = false ∧ s.sec.seed = none := by
  have e : State.reset.erasing = false := by decide +kernel
  refine ⟨Eq.trans ?_ h, e, rfl⟩
  rfl

theorem test_keys :
    let s := (secured Sec.reset).setReg (.SEC_KEY_DATA 0) 7
    let lock := s.wr .SEC_STAT F.SEC_STAT.locked 1
    let used := s.setChan 5 { Chan.reset with enabled := true, keySlot := 9 }
    let refused := fun (s : State) => fun (t : State) => decide (t.sec = s.sec ∧ t.reg (.SEC_KEY_DATA 0) = 0 ∧ t.on .SEC_KEY_SEL F.SEC_KEY_SEL.refused = true)
    (s.locked = false ∧ s.serve.chans = [])
    ∧ holds (exec (.keyCommit 8191) s) (fun t => decide (Tab.find? t.sec.keys 8191 = some (7 :: List.replicate 31 0) ∧ t.reg (.SEC_KEY_DATA 0) = 0)) = true
    ∧ holds (exec (.keyClear 9) { s with sec := { s.sec with keys := [(9, [1])] } }) (fun t => decide (t.sec.keys = [] ∧ t.reg (.SEC_KEY_DATA 0) = 0)) = true
    ∧ holds (exec (.keyCommit 8192) s) (refused s) = true
    ∧ holds (exec (.keyCommit 9) lock) (refused lock) = true
    ∧ holds (exec (.keyClear 9) used) (refused used) = true := by decide +kernel

theorem test_alarms :
    let s := secured Sec.reset
    let a := Reg.SEC_ALARM 3
    let two := s.wr a F.SEC_ALARM.cls 2
    let er := { (heldTwice (secured { Sec.reset with erase := [(vBlob 0, 3)] }) (vBlob 0) (.bytes [])).wr .SEC_STAT F.SEC_STAT.erase_pending 1 with time := 1 }
    (s.on a F.SEC_ALARM.active = false ∧ s.rd (.SEC_ALARM 11) F.SEC_ALARM.cls ≤ 2 ∧ s.hubFenced 1 = false ∧ er.erasing = true ∧ er.vheld (vBlob 0) 3 = true)
    ∧ holds (exec (.sensorAlarm 3 false) (s.wr a F.SEC_ALARM.active 1)) (fun t => decide (t.on a F.SEC_ALARM.active = false ∧ t.raises = [])) = true
    ∧ holds (exec (.sensorAlarm 3 true) two) (fun t => decide (t.on a F.SEC_ALARM.active = true ∧ t.rd a F.SEC_ALARM.count = 1 ∧ t.locked = true
        ∧ t.raises.contains ⟨5, 0x1A0, 0xFFFF, 0xFFFF, [3, 2, 0]⟩ = true)) = true
    ∧ holds (exec .eraseComplete er) (fun t => decide (t.erasing = false ∧ t.sec.erase = [] ∧ t.raises = [⟨5, 0x1A2, 0xFFFF, 0xFFFF, [0]⟩])) = true
    ∧ holds (exec (.secAlarmClassWrite 3 (5 * 2 ^ 48 + 4)) two) (fun t => decide (t.rd a F.SEC_ALARM.count = 5 ∧ t.rd a F.SEC_ALARM.cls = 2)) = true
    ∧ holds (exec (.secAlarmClassWrite 3 12) two) (fun t => decide (t.rd a F.SEC_ALARM.cls = 3)) = true
    ∧ holds (exec (.d2dChallenge 1 [2]) s) (fun t => decide (t.on (.SEC_ALARM 11) F.SEC_ALARM.active = true)) = true := by decide +kernel

/-- A token of ENROLL, UNLOCK or OWNER_TRANSFER of the owner whose key is zeros, answering a nonce of zeros; the new owner is 0. -/
def tokHead (op : Byte) : List Byte := [0x4E, 0x57, 0x4F, 0x5A, 1, 0, op]
def tokPad : List Byte := List.replicate 7404 0
def tok (op : Byte) : List Byte := tokHead op ++ tokPad

theorem test_token (s : State) (op : Byte) (hop : op = 2 ∨ op = 4 ∨ op = 5) (hn : s.sec.nonce = some (((tok op).drop 64).take 64)) (ho : s.owner = sha3_512 (((tok op).drop 192).take 2592))
    (h : Config.dsaVerify (((tok op).drop 192).take 2592) (sha3_512 ((tok op).take 2784)) (((tok op).drop 2784).take 4627) = true) :
    s.tokenErr (tok op) op.toNat = 0 := by
  have z : ∀ i n, 7 ≤ i → (((tok op).drop i).take n).all (fun x => decide (x = 0)) = true := by
    intro i n hi
    rw [List.all_eq_true]
    intro x hx
    have hx := List.mem_of_mem_take hx
    obtain ⟨k, rfl⟩ : ∃ k, i = 7 + k := ⟨i - 7, by omega⟩
    have e : (tok op).drop (7 + k) = tokPad.drop k := by rw [tok, ← List.drop_drop, List.drop_left' (by rfl)]
    rw [e] at hx
    rw [List.eq_of_mem_replicate (List.mem_of_mem_drop hx)]
    rfl
  have f : field (tok op) 0 4 = 0x5A4F574E ∧ field (tok op) 4 2 = 1 ∧ field (tok op) 6 1 = op.toNat := by
    rcases hop with rfl | rfl | rfl <;> decide +kernel
  simp only [State.tokenErr, f.1, f.2.1, f.2.2, z 7 57 (by omega), z 128 64 (by omega), hn, ho, h]
  simp

/-- The token at address 0 of HBM, its nonce open, its owner in the vault. -/
def tokened (op : Byte) : State :=
  { secured { Sec.reset with nonce := some (((tok op).drop 64).take 64) } with
    hbm := ⟨[(0, 0x4E), (1, 0x57), (2, 0x4F), (3, 0x5A), (4, 1), (6, op)], [], []⟩
    vault := { State.reset.vault with recs := [(vOwner * 4, ⟨1, true, .bytes (sha3_512 (((tok op).drop 192).take 2592))⟩),
      (vOwner * 4 + 1, ⟨1, true, .bytes (sha3_512 (((tok op).drop 192).take 2592))⟩)] } }

theorem test_token_premises (op : Byte) (hop : op = 2 ∨ op = 4 ∨ op = 5)
    (h : Config.dsaVerify (((tok op).drop 192).take 2592) (sha3_512 ((tok op).take 2784)) (((tok op).drop 2784).take 4627) = true) :
    let s := tokened op
    s.on .SEC_CMD F.SEC_CMD.busy = false ∧ s.stateErr op.toNat = 0 ∧ s.secInput 7411 = (tok op, false) ∧ s.tokenErr (tok op) op.toNat = 0 := by
  have b : (secured Sec.reset).on .SEC_CMD F.SEC_CMD.busy = false := by decide +kernel
  refine ⟨b, ?_, ?_, test_token _ _ hop rfl rfl h⟩
  · rcases hop with rfl | rfl | rfl <;> decide +kernel
  · have r : (tokened op).hbm.read 0 7411 = tok op := by
      rw [show 7411 = 7 + 7404 from rfl, test_read_split, test_read_zeros _ 7404 (0 + 7), tok, tokPad]
      · rcases hop with rfl | rfl | rfl <;> rfl
      · intro i hi
        have e : ∀ k, k < 7 → k ≠ i := fun k hk => by omega
        simp [tokened, Mem.byte, Tab.getD, Tab.find?, e 0, e 1, e 2, e 3, e 4, e 6]
    have a : (secured Sec.reset).rd .SEC_CMD_SRC F.SEC_CMD_SRC.addr * 64 = 0 := by decide +kernel
    have a : (tokened op).rd .SEC_CMD_SRC F.SEC_CMD_SRC.addr * 64 = 0 := a
    have p : (tokened op).hbm.rangePoison 64 0 7411 = false := rfl
    rw [State.secInput, State.hbmRead, a, r, p]

/-- Region 0 in a thermal state at a temperature in 1/16 degrees, its clock and design point in MHz. -/
def thermal (st temp cur design : Nat) : State :=
  let s := (State.reset.wr (.REGION_THERM 0) F.REGION_THERM.state st).wr (.CAL_REGION_STAT 0) F.CAL_REGION_STAT.t_now temp
  (s.wr (.REGION_CLK 0) F.REGION_CLK.fclk_cur cur).wr (.REGION_CLK 0) F.REGION_CLK.fclk_design design

theorem test_sensor_round :
    let s := (thermal 0 800 1000 1000).wr (.REGION_THERM 0) F.REGION_THERM.in_use 7
    let round := fun (t : Int) => [t, t - 1, t - 2]
    ((s.region 0).sensNew = [] ∧ s.on .FLT_INJ_CTL F.FLT_INJ_CTL.arm = false ∧ s.sensBroken 0 = [] ∧ (s.region 0).cal = none ∧ s.sensUse 0 = [0, 1, 2]
      ∧ s.newlyBroken 0 (s.sensCount 0 (s.region 0) (round 1521)) (round 1521) = [] ∧ thermNext 0 1519 true = 0 ∧ thermNext 0 1520 true = 2
      ∧ thermNext 0 1760 true = 4 ∧ thermNext 1 127 true = 1 ∧ thermNext 1 128 true = 0 ∧ thermNext 0 79 true = 1 ∧ thermNext 4 1520 true = 4 ∧ thermNext 4 1519 true = 0)
    ∧ holds (exec (.sensorRound 0 (round 1521)) s) (fun t => decide (t.rd (.REGION_THERM 0) F.REGION_THERM.temp = 1521 ∧ t.regionTemp 0 = 1521
        ∧ t.rd (.REGION_THERM 0) F.REGION_THERM.state = 2)) = true
    ∧ holds (exec (.sensorRound 0 (round 1760)) s) (fun t => decide ((t.region 0).tripped = true ∧ (t.region 0).stopped = true
        ∧ t.rd (.REGION_THERM 0) F.REGION_THERM.trips = 1)) = true := by decide +kernel

theorem test_throttle_and_boost :
    let asked := fun (u : State) (f : Nat) => decide ((u.region 0).clkPend = some f ∨ (u.region 0).clkWait = some f)
    let boost := ((thermal 0 800 1000 1000).wr .THERM_CTL F.THERM_CTL.boost_en 1).wr .THERM_CTL F.THERM_CTL.boost_max 900
    let off := (thermal 0 800 1000 975).wr .THERM_CTL F.THERM_CTL.boost_en 0
    let boost := boost.wr .PWR_CTL F.PWR_CTL.p_limit 100
    (boost.regionTemp 0 < sext 16 (boost.rd .THERM_CTL F.THERM_CTL.boost_max) ∧ boost.rd .PWR_STAT F.PWR_STAT.p_in < boost.rd .PWR_CTL F.PWR_CTL.p_limit
     )
    ∧ off.on .THERM_CTL F.THERM_CTL.boost_en = false
    ∧ holds (exec (.throttleTick 0) (thermal 3 1600 1000 1000)) (fun u => decide ((u.region 0).clkPend = some 900 ∧ u.on (.REGION_CLK 0) F.REGION_CLK.throttled = true)) = true
    ∧ holds (exec (.throttleTick 0) (thermal 3 1600 450 1000)) (fun u => decide ((u.region 0).clkPend = some 400)) = true
    ∧ holds (exec (.throttleTick 0) (thermal 3 1567 900 1000)) (fun u => asked u 925) = true
    ∧ holds (exec (.throttleTick 0) (thermal 3 1568 900 1000)) (fun u => decide (u = thermal 3 1568 900 1000)) = true
    ∧ holds (exec (.boostDecision 0) (thermal 0 800 990 1000)) (fun u => asked u 1000) = true
    ∧ holds (exec (.boostDecision 0) boost) (fun u => asked u 1025) = true
    ∧ holds (exec (.boostDecision 0) off) (fun u => decide ((u.region 0).clkPend = some 975)) = true := by decide +kernel

theorem test_memory_temperature :
    let s := State.reset
    (Tab.getD s.plant.hot 3 0 < 2)
    ∧ holds (exec (.hbmTemp 3 1521 false) s) (fun u => decide (Tab.getD u.plant.hot 3 0 = 3 ∧ u.raises = [⟨3, 0x188, 3, 0xFFFF, [3, 1521]⟩])) = true
    ∧ holds (exec (.hbmTemp 3 1520 false) s) (fun u => decide (Tab.getD u.plant.hot 3 0 = 1 ∧ u.raises = [])) = true
    ∧ holds (exec (.hbmTemp 3 0 true) s) (fun u => decide (u.power.phase = 4 ∧ u.power.trip = true ∧ u.power.enabled = [])) = true := by decide +kernel

theorem test_rails :
    let w := { State.reset.wr .PWR_CTL F.PWR_CTL.avs_en 1 with regions := [(0, { Region.reset with clkWait := some 500 })] }
    let st := { w with power := { w.power with vwait := [(0, 900)] } }
    let rail := Reg.PWR_RAIL 5
    let lim := State.reset.wr rail F.PWR_RAIL.ilimit 100
    ((w.region 0).clkWait ≠ none ∧ w.on .PWR_CTL F.PWR_CTL.avs_en = true ∧ w.power.vwait = [] ∧ st.voltFor 500 ≤ 900)
    ∧ holds (exec (.vfacSetpointRaise 0) w) (fun u => decide (Tab.find? u.power.vwait 0 = some (w.dieVolt 0) ∧ u.out = [.avs 0 (w.dieVolt 0)])) = true
    ∧ holds (exec (.vfacSettled 0 true) st) (fun u => decide (u.rd (.PWR_RAIL 0) F.PWR_RAIL.vset = 900 ∧ u.power.vwait = [] ∧ (u.region 0).clkPend = some 500)) = true
    ∧ holds (exec (.vfacSettled 0 false) st) (fun u => decide (u.rd .PWR_STAT F.PWR_STAT.bus_err = 1 ∧ (u.region 0).clkWait = none ∧ (u.region 0).clkPend = none)) = true
    ∧ holds (exec (.railPoll 5 none) lim) (fun u => decide (u.on rail F.PWR_RAIL.comm_err = true ∧ u.rd .PWR_STAT F.PWR_STAT.bus_err = 1)) = true
    ∧ holds (exec (.railPoll 5 (some (7, 901, true))) lim) (fun u => decide (u.rd rail F.PWR_RAIL.vout = 7 ∧ u.rd rail F.PWR_RAIL.iout = 901
        ∧ u.on rail F.PWR_RAIL.over_warn = true)) = true
    ∧ holds (exec (.railPoll 5 (some (7, 900, true))) lim) (fun u => decide (u.on rail F.PWR_RAIL.over_warn = false)) = true
    ∧ (∀ v < 64, State.reset.svcOn v = false) := by decide +kernel

theorem test_plant :
    let s := State.reset.wr .PLANT_CTL F.PLANT_CTL.u_max 1000
    let on := s.wr .THERM_CTL F.THERM_CTL.plant_en 1
    let allWarm := (List.range 48).foldl (fun s g => s.wr (.REGION_THERM g) F.REGION_THERM.state 0) on
    let late := { s with time := 100000000 }
    let flow := (s.wr .PWR_STAT F.PWR_STAT.p_sched 10).wr .PLANT_IO F.PLANT_IO.k_factor 7
    let flow := flow.wr .PLANT_CTL F.PLANT_CTL.pump_min 0
    let since := { flow with plant := { flow.plant with lowSince := some 5 }, time := 1000000005 }
    let valve := fun (u : State) => u.rd .PLANT_STAT F.PLANT_STAT.valve
    (on.plant.lost = false ∧ on.plant.low = false ∧ s.on .THERM_CTL F.THERM_CTL.plant_en = false ∧ (∀ g < 48, allWarm.regionCold g = false) ∧ allWarm.on .THERM_CTL F.THERM_CTL.plant_en = true)
    ∧ holds (exec (.plantEnWrite 1) s) (fun u => decide (u.on .THERM_CTL F.THERM_CTL.plant_en = true ∧ u.plant.i = 0 ∧ valve u = valve s)) = true
    ∧ holds (exec (.plantEnWrite 0) on) (fun u => decide (u.on .THERM_CTL F.THERM_CTL.plant_en = false ∧ valve u = s.rd .PLANT_IO F.PLANT_IO.valve_man)) = true
    ∧ holds (exec (.plantSensorRead (some 320) (some (-5))) s) (fun u => decide (u.rd .PLANT_STAT F.PLANT_STAT.t_in = 320 ∧ u.rd .PLANT_STAT F.PLANT_STAT.t_out = 65531)) = true
    ∧ holds (exec .plantSensorLost late) (fun u => decide (u.plant.lost = true ∧ valve u = 1000 ∧ u.rd .PLANT_STAT F.PLANT_STAT.pump = 0x3FF
        ∧ u.on .PLANT_ERR F.PLANT_ERR.sensor_lost = true)) = true
    ∧ holds (exec (.flowWindow 7) flow) (fun u => decide (u.plant.low = false ∧ u.plant.lowSince = none)) = true
    ∧ holds (exec (.flowWindow 0) flow) (fun u => decide (u.plant.lowSince = some 0 ∧ valve u = valve flow)) = true
    ∧ holds (exec (.flowWindow 0) since) (fun u => decide (u.plant.low = true ∧ valve u = 1000 ∧ u.on .PLANT_ERR F.PLANT_ERR.flow_low = true)) = true := by decide +kernel

def powered (p : Power) (time : Nat) : State := { State.reset with power := p, time := time }

theorem test_power_sequence :
    let seq : Power := { Power.reset with phase := 2, group := 0, enabled := [6], good := [] }
    let two := { seq with group := 1, enabled := [6, 0, 1, 2, 3], good := [6] }
    let last := { seq with group := 7, enabled := railOrder, good := railOrder.filter (fun k => decide (k ≠ 5)) }
    let failed := fun (k : Nat) (u : State) => decide (u.power.fails = k ∧ u.power.phase = (if 3 ≤ k then 5 else 3) ∧ u.power.enabled = [])
    (State.reset.power.phase = 0 ∧ State.reset.power.good.contains 4 = true ∧ (∀ k ∈ last.enabled, k = 5 ∨ k ∈ last.good) ∧ (∃ k ∈ two.enabled, k ≠ 0 ∧ k ∉ two.good)
      ∧ State.reset.faults.map = [])
    ∧ holds (exec (.porstAssert 999) State.reset) (fun u => decide (u = State.reset)) = true
    ∧ holds (exec (.porstRelease) (powered { Power.reset with phase := 1 } 5)) (fun u => decide (u.power.phase = 2 ∧ u.power.enabled = [6] ∧ u.faults.boots = 1)) = true
    ∧ holds (exec (.porstRelease) (powered { Power.reset with phase := 1, trip := true } 5)) (fun u => decide (u.power.phase = 4)) = true
    ∧ holds (exec (.railPgRise 0) (powered two 5)) (fun u => decide (u.power.good = [0, 6] ∧ u.power.group = 1)) = true
    ∧ holds (exec (.railPgRise 6) (powered seq 5)) (fun u => decide (u.power.group = 1 ∧ u.power.enabled = [6, 0, 1, 2, 3] ∧ u.power.phase = 2)) = true
    ∧ holds (exec (.railPgRise 5) (powered last 5)) (fun u => decide (u.power.phase = 0 ∧ u.power.fails = 0)) = true
    ∧ holds (exec (.railPgTimeout 6) (powered seq 10000000)) (failed 1) = true
    ∧ holds (exec (.railPgTimeout 6) (powered { seq with fails := 2 } 10000000)) (failed 3) = true
    ∧ holds (exec (.railPgDrop 4 10001) State.reset) (failed 1) = true
    ∧ holds (exec (.railPgDrop 4 10000) State.reset) (fun u => decide (u = State.reset)) = true
    ∧ holds (exec .seqRestartTimer (powered { seq with phase := 3 } 1000000000)) (fun u => decide (u.power.phase = 2 ∧ u.power.group = 0 ∧ u.power.enabled = [6])) = true := by
  decide +kernel

theorem test_package_reset :
    let s := { State.reset with sec := { State.reset.sec with keys := [(9, [1])], seed := some [] }, hub := ⟨[(1, 1)], [], []⟩ }
    let trip := powered { Power.reset with phase := 4, trip := true } 5
    let cool : List Int := List.replicate 12 1359
    (cool.length = 12 ∧ (∀ x ∈ cool, x < 1360))
    ∧ holds (exec (.porstAssert 1000) s) (fun u => decide (u.power.phase = 1 ∧ u.power.enabled = [] ∧ u.hub = Mem.empty ∧ u.sec.keys = [(9, [1])]
        ∧ u.sec.seed = none)) = true
    ∧ holds (exec (.pkgSensorTrip 3 1920) State.reset) (fun u => decide (u.power.phase = 4 ∧ u.power.trip = true)) = true
    ∧ holds (exec (.pkgSensorTrip 3 1919) State.reset) (fun u => decide (u.power = Power.reset ∧ u.rd (.THERM_PKG 3) F.THERM_PKG.temp = 1919)) = true
    ∧ holds (exec (.pkgTripRestart cool) trip) (fun u => decide (u.power.trip = false ∧ u.power.phase = 2 ∧ u.rd (.THERM_PKG 3) F.THERM_PKG.temp = 1359)) = true
    ∧ holds (exec (.pkgTripRestart (1360 :: cool.tail)) trip) (fun u => decide (u = trip)) = true := by decide +kernel

theorem test_time_and_frames :
    let s := State.reset.setReg .SYS_TIME 77
    let rx := Reg.NET_RX 0
    let sw := ((s.wr (.SPORT_STAT 0) F.SPORT_STAT.state 2).wr (.SPORT_CTL 0) F.SPORT_CTL.to_sw 1).wr rx F.NET_RX.addr 64
    let full := sw.wr rx F.NET_RX.tail 15
    (sw.macState 0 = 2 ∧ (0 + 1) % ringLen (sw.rd rx F.NET_RX.size_log2) ≠ sw.rd rx F.NET_RX.head ∧ (15 + 1) % ringLen (full.rd rx F.NET_RX.size_log2) = full.rd rx F.NET_RX.head)
    ∧ holds (exec (.timeInEdge 1000) s) (fun t => decide (t.rd .TIME_IN_STAMP F.TIME_IN_STAMP.time = 77 ∧ t.raises = [⟨0xC, 0x1B5, 0xFFFF, 0xFFFF, [77]⟩])) = true
    ∧ holds (exec (.timeInEdge 999) s) (fun t => decide (t = s)) = true
    ∧ holds (exec (.frameToSoftware 0 [1, 2] false false) sw) (fun t => decide (t.rd rx F.NET_RX.tail = 1 ∧ t.raises = [⟨8, 0x1B2, 0xFFFF, 0xFFFF, [0, 1]⟩])) = true
    ∧ holds (exec (.frameToSoftware 0 [1, 2] false false) full) (fun t => decide (t.rd (.SPORT_ERR 0) F.SPORT_ERR.sw_drop = 1 ∧ t.hbm = full.hbm)) = true := by
  decide +kernel

theorem test_net_tx :
    let tx := Reg.NET_TX 0
    let s := ((State.reset.wr tx F.NET_TX.addr 64).wr tx F.NET_TX.tail 1).wr (.SPORT_STAT 1) F.SPORT_STAT.state 2
    let s := { s with hbm := ⟨[(0x1001, 0x20), (0x1008, 2), (0x100A, 1), (0x2000, 9)], [], []⟩ }
    (s.hbm.readNat 0x100A 1 = 1 ∧ s.macState 1 = 2 ∧ s.hbm.readNat 0x1000 8 = 0x2000 ∧ s.hbm.readNat 0x1008 2 = 2 ∧ s.hbm.rangePoison 64 0x2000 2 = false)
    ∧ holds (exec (.netTxSend 0) s) (fun t => decide (t.out = [.frame 1 ([9, 0] ++ frameFcs [9, 0])] ∧ t.rd tx F.NET_TX.head = 1 ∧ t.hbm.byte 0x100B = 1)) = true := by
  decide +kernel

theorem test_port_enables :
    let s := State.reset
    let on := s.wr (.SPORT_CTL 1) F.SPORT_CTL.enable 1
    (s.on (.SPORT_CTL 1) F.SPORT_CTL.enable = false ∧ s.on .MGMT_CTL F.MGMT_CTL.enable = false ∧ s.hubFenced 1 = false ∧ s.on (.PCIE_STAT 1) F.PCIE_STAT.up = false)
    ∧ holds (exec (.sportEnable 1 1 15) s) (fun t => decide (t.rd (.SPORT_STAT 1) F.SPORT_STAT.state = 2 ∧ t.on (.SPORT_CTL 1) F.SPORT_CTL.enable = true)) = true
    ∧ holds (exec (.sportEnable 1 1 7) s) (fun t => decide (t.rd (.SPORT_STAT 1) F.SPORT_STAT.state = 3 ∧ t.rd (.SPORT_STAT 1) F.SPORT_STAT.lanes_ok = 7)) = true
    ∧ holds (exec (.sportEnable 1 0 15) on) (fun t => decide (t.rd (.SPORT_STAT 1) F.SPORT_STAT.state = 0 ∧ t.on (.SPORT_CTL 1) F.SPORT_CTL.enable = false)) = true
    ∧ holds (exec (.mgmtPortEnable 17 true) s) (fun t => decide (t.rd .MGMT_STAT F.MGMT_STAT.state = 2 ∧ t.rd .MGMT_STAT F.MGMT_STAT.hub_active = 1)) = true
    ∧ holds (exec (.mgmtPortEnable 1 false) s) (fun t => decide (t.rd .MGMT_STAT F.MGMT_STAT.state = 3)) = true
    ∧ holds (exec (.pcieEnable 1 (3 * 16 + 1) 5 8) s) (fun t => decide (t.on (.PCIE_STAT 1) F.PCIE_STAT.up = true ∧ t.rd (.PCIE_STAT 1) F.PCIE_STAT.width = 4
        ∧ t.rd (.PCIE_STAT 1) F.PCIE_STAT.speed = 3)) = true := by decide +kernel

theorem test_pcie :
    let s := ((State.reset.wr (.PCIE_STAT 1) F.PCIE_STAT.up 1).wr (.PCIE_WIN 1) F.PCIE_WIN.base 3).wr (.PCIE_WINSZ 1) F.PCIE_WINSZ.mib 1
    (s.on (.PCIE_STAT 1) F.PCIE_STAT.up = true ∧ s.rd (.PCIE_WIN 1) F.PCIE_WIN.base * 2 ^ 20 = 0x300000 ∧ s.rd (.PCIE_WINSZ 1) F.PCIE_WINSZ.mib * 2 ^ 20 = 0x100000
      ∧ s.hbmLost 0x300040 = false ∧ s.pageOf 0x300040 = none)
    ∧ holds (exec (.pcieInbound 1 0x40 0 (some [5, 6]) false) s) (fun t => decide (t.hbm.bytes = [(0x300040, 5), (0x300041, 6)])) = true
    ∧ holds (exec (.pcieInbound 1 0xFFFFF 2 none false) s) (fun t => decide (t.out = [.pcieCpl 1 [] false true] ∧ t.rd (.PCIE_STAT 1) F.PCIE_STAT.ur = 1)) = true
    ∧ holds (exec (.pcieInbound 1 0xFEE00000 4 (some [5]) false) s) (fun t => decide (t.raises = [⟨0xB, 0x1B4, 1, 0xFFFF, [0xFEE00000, 5]⟩])) = true
    ∧ holds (exec (.pcieInbound 1 0xFEE00FFF 4 (some [5]) false) s) (fun t => decide (t.hbm = s.hbm ∧ t.raises.length = 1)) = true
    ∧ holds (exec (.pcieObAccess 1 none (some 9)) s) (fun t => decide (t.out = [.read 9 false, .pcieOb 1 false false 0 0])) = true
    ∧ holds (exec (.pcieObAccess 1 (some 7) (some 9)) s) (fun t => decide (t.out = [.pcieOb 1 true false 0 7])) = true
    ∧ holds (exec (.pcieObAccess 1 none (some 9)) State.reset) (fun t => decide (t.out = [.read (2 ^ 64 - 1) false] ∧ t.on (.PCIE_OB_CTL 1) F.PCIE_OB_CTL.err = true)) = true := by
  decide +kernel

theorem test_tap_and_loupe :
    let s := State.reset
    let ready := { s with power := { s.power with ready := true } }
    let loupe := ((s.wr .LOUPE_CTL F.LOUPE_CTL.samples 1).wr .LOUPE_CTL F.LOUPE_CTL.enable 1).wr .SEC_STAT F.SEC_STAT.locked 0
    (s.power.ready = false ∧ loupe.on .LOUPE_CTL F.LOUPE_CTL.trig_mode = false ∧ loupe.rd .LOUPE_CTL F.LOUPE_CTL.pf < 816)
    ∧ holds (exec .tapBypass s) (fun t => decide (t.tap.ir = 0xFF ∧ t.out = [.tap 1 0])) = true
    ∧ holds (exec .tapIdcode s) (fun t => decide (t.tap.ir = 2 ∧ t.out = [.tap 32 (idcode s.variant)])) = true
    ∧ holds (exec (.tapSamplePreload [true, false] [true]) s) (fun t => decide (t.tap = ⟨1, [true]⟩ ∧ t.out = [.tap 2 (scanOut [true, false])])) = true
    ∧ holds (exec .tapClamp s) (fun t => decide (t.tap.ir = 4)) = true
    ∧ holds (exec .tapClamp ready) (fun t => decide (t.tap.ir = 0xFF)) = true
    ∧ holds (exec .tapReset ready) (fun t => decide (t.tap.ir = 2)) = true
    ∧ holds (exec .loupeTrigIn (s.wr .LOUPE_CTL F.LOUPE_CTL.trig_mode 1)) (fun t => decide (t.ctl.loupe = true)) = true
    ∧ holds (exec .loupeSample loupe) (fun t => decide (t.out.length = 1 ∧ t.regs = loupe.regs)) = true := by decide +kernel

theorem test_losses :
    let s := State.reset
    let one := { s with faults := { s.faults with active := [unitDesc 7 1 0 0] } }
    let d := unitDesc 0x0A 2 1 7
    (s.hubFenced 0 = false ∧ s.hubFenced 1 = false ∧ one.hubFenced 1 = true ∧ s.isFenced d = false ∧ s.dieFenced 2 = false ∧ s.isFenced (unitDesc 0x0B 3 15 0) = false)
    ∧ holds (exec (.hubLinkLoss 0) one) (fun t => decide (t.ctl.stopped = true)) = true
    ∧ holds (exec (.hubLinkLoss 1) one) (fun t => decide (t = one)) = true
    ∧ holds (exec (.d2dLaneFailure 2 1 7 false) s) (fun t => decide (t.faults.active = [d] ∧ t.hbm.lost = [])) = true
    ∧ holds (exec (.hbmChannelRetrainFail 3 15) s) (fun t => decide (t.hbmLost (3 * 2 ^ 37 + 15 * 2 ^ 33) = true ∧ t.hbmLost (4 * 2 ^ 37) = false)) = true := by decide +kernel

theorem test_register_writes :
    let s := State.reset
    let stops := fun (a : Nat) => match exec (.registerWrite a 5) s with | .fault (.unmapped b) => decide (b = a) | _ => false
    let errs := s.setReg .PLANT_ERR 7
    (s.hbmLost 0x1000 = false ∧ s.pageOf 0x1000 = none ∧ s.hbmLost (2 ^ 40 - 8) = false ∧ s.pageOf (2 ^ 40 - 8) = none)
    ∧ holds (exec (.registerWrite 0x1000 0x0102030405060708) s) (fun t => decide (t.hbm.read 0x1000 8 = [8, 7, 6, 5, 4, 3, 2, 1])) = true
    ∧ holds (exec (.registerWrite (2 ^ 40 - 8) 1) s) (fun t => decide (t.hbm.bytes = [(2 ^ 40 - 8, 1)])) = true
    ∧ holds (exec (.registerWrite 0x60000007FFF8 5) s) (fun t => decide (t.hub = s.hub ∧ t.rd .RT_STAT F.RT_STAT.sw_reject = 1)) = true
    ∧ holds (exec (.registerWrite 0x6000000C0000 5) s) (fun t => decide (t.hub.bytes = [(0xC0000, 5)])) = true
    ∧ holds (exec (.registerWrite 0x600002080000 5) s) (fun t => decide (t.hub.bytes = [(0x2080000, 5)])) = true := by decide +kernel

theorem test_register_fields :
    let s := State.reset
    let stops := fun (a : Nat) => match exec (.registerWrite a 5) s with | .fault (.unmapped b) => decide (b = a) | _ => false
    let errs := s.setReg .PLANT_ERR 7
    holds (exec (.registerWrite 0x700000800010 5) s) (fun t => decide (t.reg .FLT_INJ_SEL = 5)) = true
    ∧ holds (exec (.registerWrite 0x700000000008 5) s) (fun t => decide (t.reg .PKG_VARIANT = s.reg .PKG_VARIANT)) = true
    ∧ holds (exec (.registerWrite 0x700000500028 5) errs) (fun t => decide (t.on .PLANT_ERR F.PLANT_ERR.sensor_lost = false ∧ t.on .PLANT_ERR F.PLANT_ERR.flow_low = true)) = true
    ∧ holds (exec (.registerWrite (0x700000402000 + 56) 0) s) (fun t => decide (t.pfOf 7 = none)) = true
    ∧ stops (2 ^ 40) = true ∧ stops (0x400000000000 - 1) = true ∧ stops 0x600004000000 = true ∧ stops (0x700000000000 - 1) = true ∧ stops 0x700100000000 = true := by
  decide +kernel

/-- The queue: the command at the front runs on the rest of the queue; on an empty queue time passes; no word spells a command. -/
theorem test_step :
    let s := { State.reset with pending := [Instr.facReset 5, .loupeTrigIn] }
    holds (step s) (fun t => decide (t.pending = [.loupeTrigIn])) = true
    ∧ holds (step State.reset) (fun t => decide (t.time = 1 ∧ t.reg .SYS_TIME = 1 ∧ t.pending = [])) = true
    ∧ decodeTableWord 32 0 = none
    ∧ State.reset.withFetchWord 32 0 = State.reset := by decide +kernel

/-- A command that answers a next state, and a slot that is not its bundle's last. -/
theorem test_frames :
    holds (exec (.svcStop 2) State.reset) (fun t => decide (t.reg (.SVC_CTL 3) = State.reset.reg (.SVC_CTL 3) ∧ t.on (.SVC_CTL 2) F.SVC_CTL.stop = true)) = true
    ∧ Reg.key (.SVC_CTL 3) ∉ [Reg.SVC_CTL 2].map Reg.key
    ∧ holds (exec (.nop { slot 0 with last := false }) (running FCore.reset)) (fun t => decide ((t.facet 3).core = ((running FCore.reset).facet 3).core)) = true
    ∧ slotOf (.nop { slot 0 with last := false }) = some { slot 0 with last := false } := by decide +kernel

theorem test_reset_canonical : State.reset.Canonical := by unfold State.Canonical; decide +kernel

/-- One command beyond each kind of range is refused: facet, array, converter, logical array, register's value, check word, slot and
predicate of a header, the fields of an instruction, region, service, entry, channel, customer, key slot, event source, logical core, core,
hub, die, stack and memory channel, port and lane, package sensor, rail, reader, tag, step number, address. -/
theorem test_ill_formed : ([.facRun 816, .productStart 3 132, .calAttemptEnd 3 0 264, .convFenceWrite 3 264, .bindingApply 3 128, .facBindWrite 3 (2 ^ 64),
    .checkWindowWrite 3 384 0, .nop (slot 8), .nop { slot 0 with pred := 16 }, .nop { slot 0 with pf := 816 }, .exception 3 8 1, .exception 3 0 256] : List Instr).all
      (fun c => !c.wf) = true
    ∧ ([.br (slot 0) 8192, .loop (slot 0) 64 0, .add (slot 0) 64 0 0, .add (slot 0) 0 64 0, .add (slot 0) 0 0 64, .addi (slot 0) 0 0 (2 ^ 32), .li (slot 0) 0 (2 ^ 47),
    .lih (slot 0) 0 (2 ^ 17), .cmp (slot 0) 16 0 0 0, .cmp (slot 0) 0 0 0 16, .ld (slot 0) 0 0 4 false 0, .ld (slot 0) 0 0 0 false (2 ^ 24), .rdc (slot 0) 0 8,
    .vadd (slot 0) 32 0 0 0, .vadd (slot 0) 0 0 0 16, .vred (slot 0) 0 0 0 4 0, .vmovs (slot 0) 0 0 128 false, .hset (slot 0) 16 0, .tclr (slot 0) 4,
    .tmsk (slot 0) 32, .mwait (slot 0) 65536, .send (slot 0) 0 0 0 16, .bar (slot 0) 16 0] : List Instr).all (fun c => !c.wf) = true
    ∧ ([.calRunStart 48, .formStep 64, .egressEnd 8192, .bareAckTimer 4096, .budCfgWrite 1024 0, .keyClear 8192, .evSrcWrite 4096 0, .evClaim 16, .evComplete 0 0x1040,
    .lfMapWrite 768 0, .coreEccError 20 true, .bootJump 2, .vfacSettled 4 true, .hbmTemp 8 0 false, .hbmChannelRetrainFail 0 16, .linkReplayTimer 12, .laneReplace 0 9,
    .linkTrainDone 0 [] 256 0 0, .sensorAlarm 13 true, .pkgSensorTrip 12 0, .railPgRise 12, .prismBlockDecode 0 2, .messageArrive 0 (2 ^ 25) 0, .barrierRelease 0 0 (2 ^ 48),
    .codedSectorRead 0 0 (2 ^ 40), .swTreeWrite 0 256, .windowRead (2 ^ 64) 8, .frameToSoftware 3 [] false false, .pcieInbound 0 0 4097 none false,
    .sportEnable 0 0 16, .registerWrite 0 (2 ^ 64)] : List Instr).all (fun c => !c.wf) = true := by decide +kernel

/-- The last value within each kind of range is accepted. -/
theorem test_well_formed : ([.facRun 815, .productStart 3 131, .calAttemptEnd 3 0 263, .bindingApply 3 127, .facBindWrite 3 (2 ^ 64 - 1), .checkWindowWrite 3 383 0, .nop (slot 7),
    .br (slot 0) 8191, .add (slot 0) 63 63 63, .vadd (slot 0) 31 31 31 15, .calRunStart 47, .formStep 63, .egressEnd 8191, .bareAckTimer 4095, .keyClear 8191,
    .evComplete 15 0x103F, .lfMapWrite 767 0, .coreEccError 19 true, .hbmChannelRetrainFail 7 15, .laneReplace 11 8, .railPgRise 11] : List Instr).all Instr.wf = true := by
  decide +kernel

end Sys2Proof.Tests
end

section
/-! The scalar slots of section 08: their operations in the vocabulary of bit vectors, then what each form of instruction does to
its slot, then the statements of R214 to R217 and R219. -/

namespace Sys2Proof.Machine

/-! ## The operations as functions of 64-bit words -/

/-- A two's complement code read by the model is the signed value of the word of that width. -/
theorem toInt_ofNat_eq_sext {n : Nat} (hn : 0 < n) (x : Nat) : (BitVec.ofNat n x).toInt = sext n x := by
  obtain ⟨m, rfl⟩ : ∃ m, n = m + 1 := ⟨n - 1, by omega⟩
  rw [BitVec.toInt_eq_toNat_cond, BitVec.toNat_ofNat]
  unfold sext
  have hpow : 2 ^ (m + 1) = 2 * 2 ^ m := Nat.pow_succ'
  simp only [Nat.add_sub_cancel, hpow, Nat.mul_lt_mul_left Nat.zero_lt_two]

/-- The sign-extended immediates of R209 and R215. -/
theorem ofInt_sext_eq_signExtend {n : Nat} (hn : 0 < n) (imm : Nat) :
    BitVec.ofInt 64 (sext n imm) = (BitVec.ofNat n imm).signExtend 64 := by
  rw [← toInt_ofNat_eq_sext hn imm]; rfl

/-- An immediate shift count from 0 to 63 is the count itself. -/
theorem shiftCount_imm {imm : Nat} (hi : imm < 64) : shiftCount (BitVec.ofInt 64 (sext 32 imm)) = imm := by
  have hs : sext 32 imm = (imm : Int) := by unfold sext; split <;> omega
  rw [hs, BitVec.ofInt_natCast, shiftCount, BitVec.toNat_ofNat]
  omega

theorem mulhuOp_eq (a b : Word64) : mulhuOp a b = (a.zeroExtend 128 * b.zeroExtend 128).extractLsb' 64 64 := by
  have hprod : a.toNat * b.toNat < 2 ^ 64 * 2 ^ 64 := Nat.mul_lt_mul'' a.isLt b.isLt
  apply BitVec.eq_of_toNat_eq
  simp only [mulhuOp, BitVec.toNat_ofNat, BitVec.extractLsb'_toNat, BitVec.toNat_mul, BitVec.truncate_eq_setWidth,
    BitVec.toNat_setWidth_of_le (show 64 ≤ 128 by decide), Nat.shiftRight_eq_div_pow]
  rw [Nat.mod_eq_of_lt (a := a.toNat * b.toNat) (by omega)]

theorem divOp_eq (a b : Word64) : divOp a b = if b = 0 then BitVec.allOnes 64 else a.sdiv b := by
  have hdiv : BitVec.ofInt 64 (a.toInt.tdiv b.toInt) = a.sdiv b := by
    apply BitVec.eq_of_toInt_eq
    rw [BitVec.toInt_ofInt, BitVec.toInt_sdiv]
  rw [divOp, hdiv]

theorem divuOp_eq (a b : Word64) : divuOp a b = if b = 0 then BitVec.allOnes 64 else a.udiv b := by
  rw [divuOp, ← BitVec.toNat_udiv, BitVec.ofNat_toNat, BitVec.setWidth_eq]; rfl

theorem remOp_eq (a b : Word64) : remOp a b = if b = 0 then a else a.srem b := by
  rw [remOp, ← BitVec.toInt_srem, BitVec.ofInt_toInt]

theorem remuOp_eq (a b : Word64) : remuOp a b = if b = 0 then a else a.umod b := by
  rw [remuOp, ← BitVec.toNat_umod, BitVec.ofNat_toNat, BitVec.setWidth_eq]; rfl

theorem minOp_eq (a b : Word64) : minOp a b = if a.sle b then a else b := by
  simp only [minOp, BitVec.sle_iff_toInt_le]

theorem maxOp_eq (a b : Word64) : maxOp a b = if a.sle b then b else a := by
  simp only [maxOp, BitVec.sle_iff_toInt_le]

theorem minuOp_eq (a b : Word64) : minuOp a b = if a.ule b then a else b := by
  simp only [minuOp, BitVec.ule_iff_toNat_le]

theorem maxuOp_eq (a b : Word64) : maxuOp a b = if a.ule b then b else a := by
  simp only [maxuOp, BitVec.ule_iff_toNat_le]

/-- LI's immediate. -/
theorem ofNat_mod_pow_eq_zeroExtend (imm : Nat) :
    BitVec.ofNat 64 (imm % 2 ^ 47) = (BitVec.ofNat 47 imm).zeroExtend 64 := by
  apply BitVec.eq_of_toNat_eq
  simp [BitVec.truncate_eq_setWidth]

/-- LIH puts imm17 above the low 47 bits. -/
theorem ofNat_low_add_high_eq_append (v : Word64) (imm : Nat) :
    BitVec.ofNat 64 (v.toNat % 2 ^ 47 + imm % 2 ^ 17 * 2 ^ 47) = BitVec.ofNat 17 imm ++ v.extractLsb' 0 47 := by
  have hlow : v.toNat % 2 ^ 47 < 2 ^ 47 := Nat.mod_lt _ (by decide)
  apply BitVec.eq_of_toNat_eq
  rw [BitVec.toNat_append, BitVec.toNat_ofNat, BitVec.toNat_ofNat, BitVec.extractLsb'_toNat, Nat.shiftRight_zero,
    ← Nat.shiftLeft_add_eq_or_of_lt hlow, Nat.shiftLeft_eq]
  omega

/-- The cond codes of R217. -/
theorem condHolds_codes (a b : Word64) :
    condHolds 0 a b = (a == b) ∧ condHolds 1 a b = (a != b) ∧ condHolds 2 a b = a.slt b
      ∧ condHolds 3 a b = b.sle a ∧ condHolds 4 a b = a.ult b ∧ condHolds 5 a b = b.ule a :=
  ⟨(Bool.beq_eq_decide_eq a b).symm, by rw [bne, Bool.beq_eq_decide_eq]; exact decide_not, rfl, rfl, rfl, rfl⟩

/-- The truth table's bit of PLOG. -/
theorem bitAt_pair_eq_testBit (table : Nat) (x y : Bool) :
    bitAt table (2 * b2n x + b2n y) = table.testBit (2 * x.toNat + y.toNat) := by
  rw [bitAt, Nat.testBit_eq_decide_div_mod_eq]
  cases x <;> cases y <;> rfl

/-! ## Waiting -/

/-- A register that is ready adds nothing to what is waited for. -/
theorem firstWait_append_none (l : List (Option Nat)) : firstWait (l ++ [none]) = firstWait l := by
  unfold firstWait
  rw [List.foldl_append, List.foldl_cons, List.foldl_nil]
  split <;> simp_all

theorem waitFor_some {l : List (Option Nat)} {k : Nat} (hk : firstWait l = some k) (r : SlotRes) : waitFor l r = .stall k := by
  unfold waitFor; rw [hk]

/-- P0 is never waited for (R168). -/
@[simp] theorem FCore.pendP_zero (c : FCore) : c.pendP 0 = none := by simp [FCore.pendP]

/-- A write of P0 is discarded (R168). -/
@[simp] theorem FCore.wrP_zero (c : FCore) (x : PReg) : c.wrP 0 x = c := by simp [FCore.wrP]

/-- A slot depends on its rule only at the core before the bundle. -/
theorem slotStep_congr {h : Hdr} {cls : List Nat} {dests : List (Nat × Nat)} {illegal : Bool}
    {run run' : State → FCore → FCore → SlotRes} {s : State}
    (hr : ∀ w, run s (s.facet h.pf).core w = run' s (s.facet h.pf).core w) :
    slotStep h cls dests illegal run s = slotStep h cls dests illegal run' s := by
  have hg : ∀ w, guarded h (s.facet h.pf).core w (run s) = guarded h (s.facet h.pf).core w (run' s) := by
    intro w; unfold guarded; rw [hr w]
  unfold slotStep
  simp only [hg]

/-! ## What each form of scalar instruction does to its slot -/

section
variable {h : Hdr} {i : Instr} {s : State} {rd ra rb imm : Nat} {op : Word64 → Word64 → Word64} {x : Word64}

/-- Form SR without a control operand. -/
theorem exec_sr (g : SlotGoes h [1, 2] [(0, rd)] s) {c : FCore} (hc : c = (s.facet h.pf).core)
    (nw : NoWait [c.pendS ra, c.pendS rb, c.pendS rd]) (hi : exec i s = .next (srSlot h rd ra rb false op s))
    (hx : op (c.rdS ra).v (c.rdS rb).v = x) :
    exec i s = .next (slotDone h [(0, rd)] ((openBundle s h.pf).work.wrS rd ⟨x, (c.rdS ra).p || (c.rdS rb).p⟩) s) := by
  rw [hi, srSlot_ok g c hc nw (Bool.false_and _), hx]

/-- A register shift: with a good count the poison is that of the shifted register, a poisoned count raises POISON_CTL (R190). -/
theorem exec_sr_shift (g : SlotGoes h [1, 2] [(0, rd)] s) {c : FCore} (hc : c = (s.facet h.pf).core)
    (nw : NoWait [c.pendS ra, c.pendS rb, c.pendS rd]) (hi : exec i s = .next (srSlot h rd ra rb true op s))
    (hx : op (c.rdS ra).v (c.rdS rb).v = x) :
    ((c.rdS rb).p = false →
      exec i s = .next (slotDone h [(0, rd)] ((openBundle s h.pf).work.wrS rd ⟨x, (c.rdS ra).p⟩) s))
    ∧ ((c.rdS rb).p = true → exec i s = .next (slotRaises h [(0, rd)] 6 s)) := by
  refine ⟨fun hp => ?good, fun hp => ?poisoned⟩
  case good => rw [hi, srSlot_ok g c hc nw (by rw [hp]; rfl), hx, hp, Bool.or_false]
  case poisoned =>
    subst hc
    rw [hi, srSlot]
    refine congrArg _ (coreSlot_exc g ?_)
    rw [waitFor_none nw, hp]
    rfl

/-- Form SI. -/
theorem exec_si (g : SlotGoes h [1, 2] [(0, rd)] s) {c : FCore} (hc : c = (s.facet h.pf).core)
    (nw : NoWait [c.pendS ra, c.pendS rd]) (hi : exec i s = .next (siSlot h rd ra imm false op s))
    (hx : op (c.rdS ra).v (BitVec.ofInt 64 (sext 32 imm)) = x) :
    exec i s = .next (slotDone h [(0, rd)] ((openBundle s h.pf).work.wrS rd ⟨x, (c.rdS ra).p⟩) s) := by
  rw [hi, siSlot_ok g c hc nw, hx]

/-- Forms SL, SH and SX: a result that waits for its destination only. -/
theorem exec_waitDest {val : FCore → SReg} {r : SReg} (g : SlotGoes h [1, 2] [(0, rd)] s) {c : FCore} (hc : c = (s.facet h.pf).core)
    (nw : NoWait [c.pendS rd])
    (hi : exec i s = .next (coreSlot h [1, 2] [(0, rd)] false (fun c w => waitFor [c.pendS rd] (.ok (w.wrS rd (val c)))) s))
    (hr : val c = r) :
    exec i s = .next (slotDone h [(0, rd)] ((openBundle s h.pf).work.wrS rd r) s) := by
  subst hc
  rw [hi]
  refine congrArg _ (coreSlot_ok g ?_)
  rw [waitFor_none nw, hr]

end

/-- SHLI, SHRI and SRAI with a count from 0 to 63 are legal. -/
theorem shift_imm_legal {imm : Nat} (hi : imm < 64) : decide (64 ≤ imm) = false := by simpa using hi

section
variable {h : Hdr} {pd : Nat} {waits : FCore → List (Option Nat)} {bad : FCore → Bool} {val : FCore → PReg} {s : State}

/-- A predicate result of P0 waits for the sources all the same (R217). -/
theorem predSlot_zero_wait {k : Nat} (hk : firstWait (waits (s.facet h.pf).core) = some k) :
    predSlot h 0 false waits bad val s = slotStep h [1, 2] [(1, 0)] false (fun _ _ _ => .stall k) s := by
  unfold predSlot coreSlot
  refine slotStep_congr fun w => ?_
  simp only [FCore.pendP_zero]
  exact waitFor_some ((firstWait_append_none _).trans hk) _

/-- A predicate result with a code that the instruction does not have. -/
theorem predSlot_illegal (g : SlotGoes h [1, 2] [(1, pd)] s) : predSlot h pd true waits bad val s = slotRaises h [(1, pd)] 1 s :=
  coreSlot_illegal g

end

/-! ## The comparisons -/

section
variable (h : Hdr) (pd ra rb imm : Nat) (s : State) {cond : Nat}

/-- CMP with a code of R217. -/
theorem exec_cmp_legal (hc : cond < 6) : exec (.cmp h pd ra rb cond) s =
    .next (predSlot h pd false (fun c => [c.pendS ra, c.pendS rb]) (fun _ => false)
      (fun c => ⟨condHolds cond (c.rdS ra).v (c.rdS rb).v, (c.rdS ra).p || (c.rdS rb).p⟩) s) := by
  have hl : decide (6 ≤ cond) = false := by simpa using hc
  change execCmp h pd ra rb cond s = _
  rw [execCmp, hl]

/-- CMPI with a code of R217. -/
theorem exec_cmpi_legal (hc : cond < 6) : exec (.cmpi h pd ra cond imm) s =
    .next (predSlot h pd false (fun c => [c.pendS ra]) (fun _ => false)
      (fun c => ⟨condHolds cond (c.rdS ra).v ((BitVec.ofNat 32 imm).signExtend 64), (c.rdS ra).p⟩) s) := by
  have hl : decide (6 ≤ cond) = false := by simpa using hc
  change execCmpi h pd ra cond imm s = _
  rw [execCmpi, hl, ofInt_sext_eq_signExtend (by decide)]

variable {h pd ra rb imm s}

theorem exec_cmp_of_goes (g : SlotGoes h [1, 2] [(1, pd)] s) {c : FCore} (ec : c = (s.facet h.pf).core)
    (nw : NoWait [c.pendS ra, c.pendS rb, c.pendP pd]) (hc : cond < 6) {x : Bool}
    (hx : condHolds cond (c.rdS ra).v (c.rdS rb).v = x) :
    exec (.cmp h pd ra rb cond) s =
      .next (slotDone h [(1, pd)] ((openBundle s h.pf).work.wrP pd ⟨x, (c.rdS ra).p || (c.rdS rb).p⟩) s) := by
  rw [exec_cmp_legal h pd ra rb s hc, predSlot_ok g c ec nw rfl, hx]

theorem exec_cmpi_of_goes (g : SlotGoes h [1, 2] [(1, pd)] s) {c : FCore} (ec : c = (s.facet h.pf).core)
    (nw : NoWait [c.pendS ra, c.pendP pd]) (hc : cond < 6) {x : Bool}
    (hx : condHolds cond (c.rdS ra).v ((BitVec.ofNat 32 imm).signExtend 64) = x) :
    exec (.cmpi h pd ra cond imm) s =
      .next (slotDone h [(1, pd)] ((openBundle s h.pf).work.wrP pd ⟨x, (c.rdS ra).p⟩) s) := by
  rw [exec_cmpi_legal h pd ra imm s hc, predSlot_ok g c ec nw rfl, hx]

/-- Codes from 6 on raise ILLEGAL_BUNDLE (R217). -/
theorem exec_cmp_illegal (g : SlotGoes h [1, 2] [(1, pd)] s) (hc : 6 ≤ cond) :
    exec (.cmp h pd ra rb cond) s = .next (slotRaises h [(1, pd)] 1 s) := by
  change execCmp h pd ra rb cond s = _
  rw [execCmp, decide_eq_true hc, predSlot_illegal g]

theorem exec_cmpi_illegal (g : SlotGoes h [1, 2] [(1, pd)] s) (hc : 6 ≤ cond) :
    exec (.cmpi h pd ra cond imm) s = .next (slotRaises h [(1, pd)] 1 s) := by
  change execCmpi h pd ra cond imm s = _
  rw [execCmpi, decide_eq_true hc, predSlot_illegal g]

end

/-- PLOG of predicates that no oversize message left bad. -/
theorem exec_plog_of_goes {h : Hdr} {pd pa pb table : Nat} {s : State} (g : SlotGoes h [1, 2] [(1, pd)] s) {c : FCore}
    (ec : c = (s.facet h.pf).core) (nw : NoWait [c.pendP pa, c.pendP pb, c.pendP pd]) (hb : c.recvBad = []) :
    exec (.plog h pd pa pb table) s = .next (slotDone h [(1, pd)] ((openBundle s h.pf).work.wrP pd
      ⟨table.testBit (2 * (c.rdP pa).v.toNat + (c.rdP pb).v.toNat), (c.rdP pa).p || (c.rdP pb).p⟩) s) := by
  change execPlog h pd pa pb table s = _
  rw [execPlog, predSlot_ok g c ec nw (by simp [hb]), bitAt_pair_eq_testBit]

/-! ## The statements -/

/-- Settles O1: each instruction's form gives the slot, each operation its word. -/
theorem scalarResults : Obligations.ScalarResults := by
  unfold Obligations.ScalarResults
  refine ⟨?registerForms, ?shifts, ?immediates⟩
  case registerForms =>
    intro h rd ra rb s g c nw a b p gives
    exact ⟨exec_sr g rfl nw rfl rfl, exec_sr g rfl nw rfl rfl, exec_sr g rfl nw rfl rfl, exec_sr g rfl nw rfl rfl,
      exec_sr g rfl nw rfl rfl, exec_sr g rfl nw rfl rfl, exec_sr g rfl nw rfl (mulhuOp_eq a b),
      exec_sr g rfl nw rfl (divOp_eq a b), exec_sr g rfl nw rfl (divuOp_eq a b), exec_sr g rfl nw rfl (remOp_eq a b),
      exec_sr g rfl nw rfl (remuOp_eq a b), exec_sr g rfl nw rfl (minOp_eq a b), exec_sr g rfl nw rfl (maxOp_eq a b),
      exec_sr g rfl nw rfl (minuOp_eq a b), exec_sr g rfl nw rfl (maxuOp_eq a b)⟩
  case shifts =>
    intro h rd ra rb s g c nw a n w gives
    exact ⟨exec_sr_shift g rfl nw rfl rfl, exec_sr_shift g rfl nw rfl rfl, exec_sr_shift g rfl nw rfl rfl⟩
  case immediates =>
    intro h rd ra imm s g c nw nd a w p gives i32
    have hi32 : BitVec.ofInt 64 (sext 32 imm) = i32 := ofInt_sext_eq_signExtend (by decide) imm
    refine ⟨exec_si g rfl nw rfl (congrArg _ hi32), exec_si g rfl nw rfl (congrArg _ hi32), exec_si g rfl nw rfl (congrArg _ hi32),
      exec_si g rfl nw rfl (congrArg _ hi32), exec_si g rfl nw rfl (congrArg _ hi32), fun hn => ?shiftCounts,
      exec_waitDest g rfl nd rfl (congrArg (SReg.mk · false) (ofNat_mod_pow_eq_zeroExtend imm)),
      exec_waitDest g rfl nd rfl (congrArg (SReg.mk · false) (ofInt_sext_eq_signExtend (by decide) imm)),
      exec_waitDest g rfl nd rfl (congrArg (SReg.mk · _) (ofNat_low_add_high_eq_append _ imm))⟩
    case shiftCounts =>
      have hcnt : shiftCount (BitVec.ofInt 64 (sext 32 imm)) = imm := shiftCount_imm hn
      have hl := shift_imm_legal hn
      exact ⟨exec_si g rfl nw (by rw [← hl]; rfl) (congrArg (a <<< ·) hcnt),
        exec_si g rfl nw (by rw [← hl]; rfl) (congrArg (a >>> ·) hcnt),
        exec_si g rfl nw (by rw [← hl]; rfl) (congrArg a.sshiftRight hcnt)⟩

/-- Settles O2: the codes of R217 are the comparisons of words, and the wait of the sources does not depend on the destination. -/
theorem predicateResults : Obligations.PredicateResults := by
  unfold Obligations.PredicateResults
  intro h pd ra rb cond imm pa pb table s g c a b i32 w gives
  refine ⟨fun nw => ?registers, fun nw => ?immediate, fun nw hb => exec_plog_of_goes g rfl nw hb,
    fun hc => ⟨exec_cmp_illegal g hc, exec_cmpi_illegal g hc⟩, by decide, fun x => FCore.wrP_zero w x, ?waits⟩
  case registers =>
    obtain ⟨heq, hne, hlt, hge, hltu, hgeu⟩ := condHolds_codes a b
    exact ⟨exec_cmp_of_goes g rfl nw (by decide) heq, exec_cmp_of_goes g rfl nw (by decide) hne,
      exec_cmp_of_goes g rfl nw (by decide) hlt, exec_cmp_of_goes g rfl nw (by decide) hge,
      exec_cmp_of_goes g rfl nw (by decide) hltu, exec_cmp_of_goes g rfl nw (by decide) hgeu⟩
  case immediate =>
    obtain ⟨heq, hne, hlt, hge, hltu, hgeu⟩ := condHolds_codes a i32
    exact ⟨exec_cmpi_of_goes g rfl nw (by decide) heq, exec_cmpi_of_goes g rfl nw (by decide) hne,
      exec_cmpi_of_goes g rfl nw (by decide) hlt, exec_cmpi_of_goes g rfl nw (by decide) hge,
      exec_cmpi_of_goes g rfl nw (by decide) hltu, exec_cmpi_of_goes g rfl nw (by decide) hgeu⟩
  case waits =>
    refine ⟨fun k hk hc => ?_, fun k hk hc => ?_, fun k hk => ?_⟩
    · exact (exec_cmp_legal h 0 ra rb s hc).trans (congrArg _ (predSlot_zero_wait hk))
    · exact (exec_cmpi_legal h 0 ra imm s hc).trans (congrArg _ (predSlot_zero_wait hk))
    · exact congrArg _ (predSlot_zero_wait hk)

/-- Settles O5: the legal codes one by one, and the illegal codes before any read. -/
theorem counterReads : Obligations.CounterReads := by
  unfold Obligations.CounterReads
  intro h rd sel s g nw gives
  refine ⟨exec_waitDest g rfl nw rfl rfl, exec_waitDest g rfl nw rfl rfl, exec_waitDest g rfl nw rfl rfl,
    exec_waitDest g rfl nw rfl rfl, fun hs => ?illegal⟩
  case illegal =>
    change execRdc h rd sel s = _
    unfold execRdc
    rw [decide_eq_true hs]
    exact congrArg _ (coreSlot_illegal g)

end Sys2Proof.Machine
end
